-- ==== Sys2Proof/Word.lean ====
section
/-! DEFINITION. The word types of Kicor: a 64-bit register word and a byte (R5, R6). -/

namespace Sys2Proof

/-- A register's 64 bits. -/
abbrev Word := BitVec 64

/-- One byte (R5). -/
abbrev Byte := BitVec 8

end Sys2Proof
end

