-- ==== Sys2Proof/Syntax.lean ====
section
/-! DEFINITION. The instructions and hardware events of spec/opcode_table.json: one constructor per row.
An instruction carries the fields of its base word and extension (R59, R60, R69); an event carries the
identifiers of the agent and the object it moves. -/

namespace Sys2Proof

/-- The three lengths of R57. -/
inductive Len where
  | l64 | l96 | l128
  deriving DecidableEq, Repr

/-- Bytes of an instruction of this length (R57). -/
def Len.bytes : Len → Nat
  | .l64 => 8
  | .l96 => 12
  | .l128 => 16

/-- The fields of an instruction beside OP and FN[2:0]: the base word of R59 and the extension of R57.
`im21` is IMM21, which holds an immediate or the modifier word of R69; `ext` is the extension,
32 bits of it in the 96-bit form. -/
structure Args where
  len : Len
  gpred : BitVec 3
  gsense : Bool
  i : Bool
  d : BitVec 6
  a : BitVec 6
  b : BitVec 6
  sa : Bool
  sb : Bool
  e : Bool
  ty : BitVec 4
  im21 : BitVec 21
  ext : BitVec 64
  deriving DecidableEq, Repr

/-- What firmware and the world decide at boot (R388): the compute dies and I/O dies that are present and those that
pass authentication, the device identifier and the firmware revision, the two windows of CR.DECWIN (R381), the slices
each physical die gives to the die cache by 16·die + slice (R23), the host ports that train, the peers with which a
session opens, and the links that do not train; persistent caps other than 1,000 by physical die, the HBM channels and
die-memory slices that are not healthy, each by physical die, and the slots that are retired, by physical die, cluster and
slot (R383); and the links that train at fewer lanes or a lower rate than their full, with those (R380). -/
structure BootPlan where
  present : BitVec 8
  compute : BitVec 8
  presentIo : BitVec 2
  io : BitVec 2
  devId : BitVec 21
  fwRev : BitVec 32
  ackw : BitVec 16
  win : BitVec 32
  cacheSlices : BitVec 128
  hostTrained : BitVec 2
  peers : List Nat
  lostLinks : List Nat
  caps : List (Nat × Nat) := []
  badHbm : List (Nat × Nat) := []
  badSlices : List (Nat × Nat) := []
  retired : List (Nat × Nat × Nat) := []
  trained : List (Nat × Nat × Nat) := []
  deriving DecidableEq, Repr

/-- A register that a management core may name in a debug halt (R231): word 256 of an operand buffer is its tag, and word 6
of an exact accumulator its status bits. -/
inductive DebugReg where
  | w (i : Nat) | g (i : Nat) | p (i : Nat)
  | aPtr (i : Nat) | aBase (i : Nat) | aLen (i : Nat) | aPs (i : Nat)
  | v (i lane : Nat) | k (i half : Nat) | y (i word : Nat) | z (i word : Nat) | x (i word : Nat)
  | pc | cr (number : Nat)
  deriving DecidableEq, Repr

/-- One constructor per row of the opcode table, in the table's order. -/
inductive Instr where
  /-- ADD (R96): Integer add of A and B or an immediate, with optional saturation. -/
  | add (x : Args)
  /-- SUB (R96): Integer subtract, with optional saturation. -/
  | sub (x : Args)
  /-- MUL (R96): Integer multiply, with optional saturation. -/
  | mul (x : Args)
  /-- MULH (R96): High w bits of the 2w-bit integer product. -/
  | mulh (x : Args)
  /-- DIV (R97): Integer divide truncating toward zero; fault 8 on a zero divisor. -/
  | div (x : Args)
  /-- REM (R97): Integer remainder with the sign of the dividend; fault 8 on a zero divisor. -/
  | rem (x : Args)
  /-- AND (R96): Bitwise and. -/
  | and (x : Args)
  /-- OR (R96): Bitwise or. -/
  | or (x : Args)
  /-- XOR (R96): Bitwise exclusive or. -/
  | xor (x : Args)
  /-- ANDN (R96): Bitwise A and not B. -/
  | andn (x : Args)
  /-- SHL (R96): Shift left by B modulo w. -/
  | shl (x : Args)
  /-- SHR (R96): Logical shift right by B modulo w. -/
  | shr (x : Args)
  /-- SRA (R96): Arithmetic shift right by B modulo w. -/
  | sra (x : Args)
  /-- ROL (R96): Rotate the w-bit pattern left. -/
  | rol (x : Args)
  /-- CLZ (R96): Count leading zeros of the low w bits. -/
  | clz (x : Args)
  /-- CTZ (R96): Count trailing zeros of the low w bits. -/
  | ctz (x : Args)
  /-- POPC (R96): Count ones in the low w bits. -/
  | popc (x : Args)
  /-- MIN (R96): Lesser of two integers. -/
  | min (x : Args)
  /-- MAX (R96): Greater of two integers. -/
  | max (x : Args)
  /-- ABS (R96): Integer absolute value, with optional saturation. -/
  | abs (x : Args)
  /-- NEG (R96): Integer negation, with optional saturation. -/
  | neg (x : Args)
  /-- MOV (R96): Integer move, truncated and extended by type. -/
  | mov (x : Args)
  /-- MOVI (R98): Load an immediate extended by type. -/
  | movi (x : Args)
  /-- EXTB (R99): Extract a bit field and extend it. -/
  | extb (x : Args)
  /-- INSB (R99): Insert the low bits of B into a bit field of A. -/
  | insb (x : Args)
  /-- SEXT (R100): Sign-extend the low n bits. -/
  | sext (x : Args)
  /-- ZEXT (R100): Zero-extend the low n bits. -/
  | zext (x : Args)
  /-- CMP (R101): Integer compare writing a predicate. -/
  | cmp (x : Args)
  /-- SEL (R102): Select A or B by a predicate. -/
  | sel (x : Args)
  /-- PSET (R103): Set a predicate from a truth table of two predicates. -/
  | pset (x : Args)
  /-- FADD (R105): Floating add rounded once. -/
  | fadd (x : Args)
  /-- FSUB (R105): Floating subtract rounded once. -/
  | fsub (x : Args)
  /-- FMUL (R105): Floating multiply rounded once. -/
  | fmul (x : Args)
  /-- FFMA (R105): Fused multiply-add rounded once. -/
  | ffma (x : Args)
  /-- FDIV (R105): Floating divide rounded once. -/
  | fdiv (x : Args)
  /-- FSQRT (R105): Floating square root rounded once. -/
  | fsqrt (x : Args)
  /-- FMIN (R105): Floating minimum ordering -0 below +0. -/
  | fmin (x : Args)
  /-- FMAX (R105): Floating maximum ordering -0 below +0. -/
  | fmax (x : Args)
  /-- FABS (R105): Clear the sign bit, raising nothing. -/
  | fabs (x : Args)
  /-- FNEG (R105): Invert the sign bit, raising nothing. -/
  | fneg (x : Args)
  /-- FCMP (R106): Floating compare writing a predicate, with an unordered relation. -/
  | fcmp (x : Args)
  /-- FCVT (R107): Convert between floating formats, optionally saturating. -/
  | fcvt (x : Args)
  /-- FCVI (R108): Convert floating to integer. -/
  | fcvi (x : Args)
  /-- ICVF (R108): Convert integer to floating. -/
  | icvf (x : Args)
  /-- FRND (R109): Round to an integral value in the same format. -/
  | frnd (x : Args)
  /-- FCLS (R110): Write a one-hot class mask of the operand. -/
  | fcls (x : Args)
  /-- AMK (R112): Make an address register from another or, privileged, from nothing. -/
  | amk (x : Args)
  /-- ANAR (R113): Narrow the permissions of an address register. -/
  | anar (x : Args)
  /-- AADV (R114): Advance a pointer within its range, fault 13 otherwise. -/
  | aadv (x : Args)
  /-- AGET (R115): Read one part of an address register. -/
  | aget (x : Args)
  /-- ASETP (R115): Copy an address register with a new pointer, unchecked. -/
  | asetp (x : Args)
  /-- ACHK (R116): Test an access against an address register without performing it. -/
  | achk (x : Args)
  /-- BRA (R117): Guarded relative branch. -/
  | bra (x : Args)
  /-- JMP (R118): Jump to a register target with no slide. -/
  | jmp (x : Args)
  /-- CALL (R118): Relative call: slide the window in and write the link to w7. -/
  | call (x : Args)
  /-- CALLR (R118): Register call: slide the window in and write the link to w7. -/
  | callr (x : Args)
  /-- RET (R119): Return to w7 after sliding the window out. -/
  | ret (x : Args)
  /-- NOP (R77): Perform nothing beyond guard evaluation and issue. -/
  | nop (x : Args)
  /-- TRAP (R120): Raise fault 6 with a code. -/
  | trap (x : Args)
  /-- BRK (R120): Raise fault 5 with a code. -/
  | brk (x : Args)
  /-- ERET (R121): Return from a handler: slide out, clear ACT, continue at CR.EPC. -/
  | eret (x : Args)
  /-- CRR (R122): Read a control register. -/
  | crr (x : Args)
  /-- CRW (R122): Write a control register that has no row of its own, field by field under its access codes. -/
  | crw (x : Args)
  /-- CR_QUANT_WRITE (R221): Write of CR.QUANT, values below 64 written as 64, applying from the next core cycle. -/
  | crQuantWrite (x : Args)
  /-- CR_DECWIN_WRITE (R381): Write of CR.DECWIN with ACKW 0 written as 1 and WIN below 1,024 written as 1,024. -/
  | crDecwinWrite (x : Args)
  /-- CR_FPC_WRITE (R38): Write of CR.FPC: RW control fields and W1C sticky flags, waiting for earlier TMMAs. -/
  | crFpcWrite (x : Args)
  /-- TICK (R123): Read the core's local tick count. -/
  | tick (x : Args)
  /-- SELF (R124): Read rank, core, context, device, priority or privilege. -/
  | self (x : Args)
  /-- LDL (R140): Scalar load from LOCAL space. -/
  | ldl (x : Args)
  /-- STL (R140): Scalar store to LOCAL space. -/
  | stl (x : Args)
  /-- LDC (R140): Scalar load from CLUSTER space. -/
  | ldc (x : Args)
  /-- STC (R140): Scalar store to CLUSTER space. -/
  | stc (x : Args)
  /-- LDG (R140): Scalar load from GLOBAL space through L1, forwarding and the die cache. -/
  | ldg (x : Args)
  /-- STG (R140): Scalar store to GLOBAL space entering the store buffer. -/
  | stg (x : Args)
  /-- LDS (R141): Wait for a word to be full and load it, clearing the bit under .c. -/
  | lds (x : Args)
  /-- STF (R142): Store a word and set it full, waiting for empty under .e. -/
  | stf (x : Args)
  /-- FEB_RD (R143): Read the full bits of up to 64 words. -/
  | febRd (x : Args)
  /-- FEB_SET (R143): Set the full bits of a word range, one word at a time. -/
  | febSet (x : Args)
  /-- FEB_CLR (R143): Clear the full bits of a word range, one word at a time. -/
  | febClr (x : Args)
  /-- AMO (R144): Atomic read-modify-write at the space's ordering point. -/
  | amo (x : Args)
  /-- PRF (R145): Prefetch a GLOBAL line into L1 and the die cache, never faulting. -/
  | prf (x : Args)
  /-- CLN (R146): Write back dirty die-cache lines of a range. -/
  | cln (x : Args)
  /-- INV (R146): Discard die-cache and L1 lines of a range. -/
  | inv (x : Args)
  /-- CPY (R148): Queue a chunked copy on the cluster copy engine. -/
  | cpy (x : Args)
  /-- CPYS (R149): Queue a strided block copy on the copy engine. -/
  | cpys (x : Args)
  /-- CPYG (R150): Queue an indexed gather copy on the copy engine. -/
  | cpyg (x : Args)
  /-- ZENC (R153): Queue a Distill encode of f32 or f64 blocks. -/
  | zenc (x : Args)
  /-- ZDEC (R153): Queue a Distill decode of encoded blocks. -/
  | zdec (x : Args)
  /-- MSRQ (R154): Send a 32-byte request record to a memory server. -/
  | msrq (x : Args)
  /-- GET (R171): Scalar remote read with a pending destination. -/
  | get (x : Args)
  /-- GET_BLK (R171): Block remote read into local memory with a status word. -/
  | getBlk (x : Args)
  /-- PUT (R172): Scalar remote write in mode .e, .g or .f. -/
  | put (x : Args)
  /-- PUT_BLK (R172): Block remote write sent as messages with a status word. -/
  | putBlk (x : Args)
  /-- RAMO (R173): Remote atomic operation returning the old value. -/
  | ramo (x : Args)
  /-- FENCE_ACQ (R167): Park until covered GETs and RAMOs complete. -/
  | fenceAcq (x : Args)
  /-- FENCE_REL (R167): Hold later non-load instructions until covered stores and remote accesses end. -/
  | fenceRel (x : Args)
  /-- FENCE_FULL (R167): Park until the union of acquire and release waits ends. -/
  | fenceFull (x : Args)
  /-- SBD (R175): Hold the next instruction until present store-buffer entries perform. -/
  | sbd (x : Args)
  /-- WAITC (R176): Park until the outstanding-operation counters fall to limits. -/
  | waitc (x : Args)
  /-- TLBI_PG (R352): Invalidate the translation of one page at its owner. -/
  | tlbiPg (x : Args)
  /-- TLBI_ALL (R352): Invalidate every translation of the context on one die. -/
  | tlbiAll (x : Args)
  /-- FBRD (R352): Read a fault-buffer slot word or the status word. -/
  | fbrd (x : Args)
  /-- RPLY_ALL (R352): Release every recorded and dropped entry of the context on a die and clear DROP. -/
  | rplyAll (x : Args)
  /-- RPLY_ONE (R352): Release the recorded entry of one slot for replay. -/
  | rplyOne (x : Args)
  /-- RPLY_DECL (R352): Release one slot's entry with a decline. -/
  | rplyDecl (x : Args)
  /-- PHOT (R352): Read, and optionally clear, a page's quadrant hotness counters. -/
  | phot (x : Args)
  /-- PMIG (R353): Migrate a page to a new frame and home slice. -/
  | pmig (x : Args)
  /-- RMV (R192): Read a word of the installed resource-map record. -/
  | rmv (x : Args)
  /-- RMACK (R192): Acknowledge a resource-map version on every live die. -/
  | rmack (x : Args)
  /-- OMARK (R193): Order-log marker: count, record or compare by mode. -/
  | omark (x : Args)
  /-- WDOG_KICK (R193): Zero the context's watchdog counts, locally at once and remotely on arrival. -/
  | wdogKick (x : Args)
  /-- WDOG_LIM (R193): Set CR.WDOG.LIMIT, capped at CEIL. -/
  | wdogLim (x : Args)
  /-- SPAWN (R211): Create one child process on a chosen core. -/
  | spawn (x : Args)
  /-- FORKR (R212): Create one child per grain of a range and raise a join cell. -/
  | forkr (x : Args)
  /-- JINIT (R214): Store a join cell value and set it full. -/
  | jinit (x : Args)
  /-- JOIN (R215): Decrement a join cell; continue if last, otherwise stop. -/
  | join (x : Args)
  /-- PUSHK (R216): Push a task record onto the core's work deque. -/
  | pushk (x : Args)
  /-- STOP (R233): Wait for outstanding operations, then deliver a recorded fault or stop. -/
  | stop (x : Args)
  /-- YIELD (R234): Give up the slot if a same or higher priority process waits, and restart the quantum. -/
  | yield (x : Args)
  /-- SPRI (R235): Set the process's priority, above its floor unless privileged. -/
  | spri (x : Args)
  /-- SLEEP (R236): Park until a relative or absolute tick target. -/
  | sleep (x : Args)
  /-- SEND (R261): Send a word part, opening, continuing or closing a packet. -/
  | send (x : Args)
  /-- RECV (R262): Receive one word part, optionally asynchronously and reporting the last part. -/
  | recv (x : Args)
  /-- SENDV (R261): Send a vector part. -/
  | sendv (x : Args)
  /-- RECVV (R262): Receive one vector part. -/
  | recvv (x : Args)
  /-- SENDT (R263): Post a tile send from LOCAL or CLUSTER memory. -/
  | sendt (x : Args)
  /-- RECVT (R263): Post a tile receive into LOCAL or CLUSTER memory. -/
  | recvt (x : Args)
  /-- CHB (R264): Rebind a channel after in-progress transfers end. -/
  | chb (x : Args)
  /-- CHQ_BIND (R265): Return a channel's binding word. -/
  | chqBind (x : Args)
  /-- CHQ_STAT (R265): Return a channel's status word. -/
  | chqStat (x : Args)
  /-- CHCL (R266): Close a channel at its receive end's ordering point. -/
  | chcl (x : Args)
  /-- ALTB (R267): Open an empty alt, discarding any earlier one. -/
  | altb (x : Args)
  /-- ALTG (R267): Add a guard to the open alt. -/
  | altg (x : Args)
  /-- ALTW (R255): Wait for a guard, choose one and reserve its item. -/
  | altw (x : Args)
  /-- GSEND (R319): Multicast a block to every core holding a group member. -/
  | gsend (x : Args)
  /-- GRED (R323): Contribute to a collective reduction over a group. -/
  | gred (x : Args)
  /-- GQRY (R326): Query a group entry, member or base. -/
  | gqry (x : Args)
  /-- GSW (R322): Rewrite a group entry's member set and wait for the drain. -/
  | gsw (x : Args)
  /-- BINI (R334): Initialise a barrier in arrival, byte or group mode. -/
  | bini (x : Args)
  /-- BARV (R335): Add one arrival to a barrier. -/
  | barv (x : Args)
  /-- BWT (R336): Park until a barrier's generation differs from B. -/
  | bwt (x : Args)
  /-- BAW (R335): Add one arrival and wait for the generation. -/
  | baw (x : Args)
  /-- BADD (R335): Add n to a barrier in arrival or byte mode. -/
  | badd (x : Args)
  /-- BGEN (R336): Read a barrier's status or target word. -/
  | bgen (x : Args)
  /-- QPOST (R205): Post a launch record to a host work queue of the context. -/
  | qpost (x : Args)
  /-- VLDL (R273): Vector load from LOCAL space, contiguous, strided or formatted. -/
  | vldl (x : Args)
  /-- VSTL (R273): Vector store to LOCAL space. -/
  | vstl (x : Args)
  /-- VLDC (R273): Vector load from CLUSTER space. -/
  | vldc (x : Args)
  /-- VSTC (R273): Vector store to CLUSTER space. -/
  | vstc (x : Args)
  /-- VLDG (R273): Vector load from GLOBAL space. -/
  | vldg (x : Args)
  /-- VSTG (R273): Vector store to GLOBAL space via store-buffer entries or lane by lane. -/
  | vstg (x : Args)
  /-- VGAT (R277): Indexed vector gather. -/
  | vgat (x : Args)
  /-- VSCA (R277): Indexed vector scatter in increasing lane order. -/
  | vsca (x : Args)
  /-- VADD (R278): Lane-wise add. -/
  | vadd (x : Args)
  /-- VSUB (R278): Lane-wise subtract. -/
  | vsub (x : Args)
  /-- VMUL (R278): Lane-wise multiply. -/
  | vmul (x : Args)
  /-- VFMA (R278): Lane-wise fused multiply-add. -/
  | vfma (x : Args)
  /-- VDIV (R278): Lane-wise floating divide. -/
  | vdiv (x : Args)
  /-- VSQRT (R278): Lane-wise floating square root. -/
  | vsqrt (x : Args)
  /-- VMIN (R278): Lane-wise minimum. -/
  | vmin (x : Args)
  /-- VMAX (R278): Lane-wise maximum. -/
  | vmax (x : Args)
  /-- VABS (R279): Lane-wise absolute value. -/
  | vabs (x : Args)
  /-- VNEG (R279): Lane-wise negation. -/
  | vneg (x : Args)
  /-- VCMP (R280): Lane-wise compare into a mask register. -/
  | vcmp (x : Args)
  /-- VSEL (R281): Lane-wise select by a mask. -/
  | vsel (x : Args)
  /-- VAND (R282): Lane-wise bitwise and. -/
  | vand (x : Args)
  /-- VOR (R282): Lane-wise bitwise or. -/
  | vor (x : Args)
  /-- VXOR (R282): Lane-wise bitwise exclusive or. -/
  | vxor (x : Args)
  /-- VSHL (R282): Lane-wise shift left. -/
  | vshl (x : Args)
  /-- VSHR (R282): Lane-wise logical shift right. -/
  | vshr (x : Args)
  /-- VSRA (R282): Lane-wise arithmetic shift right. -/
  | vsra (x : Args)
  /-- VCVT (R283): Convert between a type and a format, with block scales and stochastic rounding. -/
  | vcvt (x : Args)
  /-- VRED (R285): Reduce active lanes in a fixed tree to a scalar. -/
  | vred (x : Args)
  /-- VPRM (R286): Permute lanes from two sources by index. -/
  | vprm (x : Args)
  /-- VSHF (R286): Shift lanes across two sources by n. -/
  | vshf (x : Args)
  /-- VBC (R287): Broadcast a scalar into active lanes. -/
  | vbc (x : Args)
  /-- VEXT (R287): Extract one lane to a scalar. -/
  | vext (x : Args)
  /-- VINS (R287): Insert a scalar into one lane. -/
  | vins (x : Args)
  /-- VEXP (R288): Correctly rounded exponential per lane. -/
  | vexp (x : Args)
  /-- VLOG (R288): Correctly rounded natural logarithm per lane. -/
  | vlog (x : Args)
  /-- VSIN (R288): Correctly rounded sine per lane. -/
  | vsin (x : Args)
  /-- VCOS (R288): Correctly rounded cosine per lane. -/
  | vcos (x : Args)
  /-- VTANH (R288): Correctly rounded hyperbolic tangent per lane. -/
  | vtanh (x : Args)
  /-- VERF (R288): Correctly rounded error function per lane. -/
  | verf (x : Args)
  /-- VRSQ (R288): Correctly rounded reciprocal square root per lane. -/
  | vrsq (x : Args)
  /-- VRCP (R288): Correctly rounded reciprocal per lane. -/
  | vrcp (x : Args)
  /-- VRNG (R290): Draw KMX values per lane from seed, stream and counter base. -/
  | vrng (x : Args)
  /-- VCLS (R289): Classify lanes into a mask by a class set. -/
  | vcls (x : Args)
  /-- KAND (R291): Mask and. -/
  | kand (x : Args)
  /-- KOR (R291): Mask or. -/
  | kor (x : Args)
  /-- KXOR (R291): Mask exclusive or. -/
  | kxor (x : Args)
  /-- KNOT (R291): Mask complement. -/
  | knot (x : Args)
  /-- KPOP (R291): Count ones in the mask's first L bits. -/
  | kpop (x : Args)
  /-- KMOV (R291): Move 64 bits between a mask half and a scalar. -/
  | kmov (x : Args)
  /-- VSCL (R292): Compute e8m0 block scales of lane blocks. -/
  | vscl (x : Args)
  /-- VQDC (R293): Decode vq2 indices into weights. -/
  | vqdc (x : Args)
  /-- TCFG (R307): Set an operand buffer's format tag. -/
  | tcfg (x : Args)
  /-- TLD (R305): Issue an asynchronous tile load with optional scales. -/
  | tld (x : Args)
  /-- TST (R306): Issue an asynchronous tile store with optional scales. -/
  | tst (x : Args)
  /-- TMMA (R303): Issue a tile multiply-accumulate after tag checks. -/
  | tmma (x : Args)
  /-- TZR (R308): Zero a tile, accumulator or exact accumulator register. -/
  | tzr (x : Args)
  /-- TRD (R309): Move 128 bytes of a tile register to a vector register. -/
  | trd (x : Args)
  /-- TWR (R309): Move a vector register into 128 bytes of a tile register. -/
  | twr (x : Args)
  /-- TXP (R310): Transpose square blocks of a tile. -/
  | txp (x : Args)
  /-- TBS (R312): Exact block sums of eight blocks into a vector. -/
  | tbs (x : Args)
  /-- XACC_V (R313): Add masked pairs from a vector into an exact accumulator. -/
  | xaccV (x : Args)
  /-- XACC_W (R313): Add one pair from two scalars into an exact accumulator. -/
  | xaccW (x : Args)
  /-- XRD (R314): Round an exact accumulator once to a floating format. -/
  | xrd (x : Args)
  /-- XRD_ST (R314): Read an exact accumulator's status bits. -/
  | xrdSt (x : Args)
  /-- XRD_WD (R314): Read one 64-bit word of an exact accumulator's V. -/
  | xrdWd (x : Args)
  /-- TCVT (R311): Convert an accumulator into columns of an operand buffer. -/
  | tcvt (x : Args)
  /-- FAULT_DELIVERY (R94): Deliver a precise fault to the handler, or make the process FAULTED. -/
  | faultDelivery (pid : Nat)
  /-- DELAYED_FAULT_DELIVERY (R166): Deliver a recorded delayed fault at the first eligible boundary. -/
  | delayedFaultDelivery (pid : Nat)
  /-- FAULT_RECORD_SEND (R230): Send a held fault record once the supervisor channel accepts it. -/
  | faultRecordSend (core : Nat)
  /-- STORE_BUFFER_PERFORM (R132): The oldest store-buffer entry performs at its home slice. -/
  | storeBufferPerform (core : Nat)
  /-- LDG_MISS_RETURN (R134): Data for a GLOBAL load miss returns and the process wakes. -/
  | ldgMissReturn (pid : Nat)
  /-- COPY_ENGINE_CHUNK (R148): The cluster copy engine reads and writes one chunk, row or element. -/
  | copyEngineChunk (cluster : Nat)
  /-- ENGINE_COMPLETE (R147): An engine instruction completes or stops and writes its status word. -/
  | engineComplete (cluster : Nat)
  /-- MEMORY_SERVER_REQUEST_TAKE (R253): A memory server takes a request record and checks it. -/
  | memoryServerRequestTake (die server : Nat)
  /-- MEMORY_SERVER_REQUEST_COMPLETE (R253): A memory server finishes a request and writes or sends its status word. -/
  | memoryServerRequestComplete (die server : Nat)
  /-- WORK_QUEUE_POST (R201): A host 64-byte write to a post window enters or is refused. -/
  | workQueuePost (queue : Nat) (words : List Word)
  /-- QCFG_WRITE (R197): Host write of QCFG: quota request, vector and interrupt enable. -/
  | qcfgWrite (queue : Nat) (value : Word)
  /-- QCMPL_WRITE (R197): Host write of the completion ring base and size. -/
  | qcmplWrite (queue : Nat) (value : Word)
  /-- QCHEAD_WRITE (R200): Host write of the consumed completion count, freeing ring space. -/
  | qcheadWrite (queue : Nat) (value : Word)
  /-- LAUNCH_RECORD_TAKE (R199): The queue consumer takes a record, checks it and launches or refuses it. -/
  | launchRecordTake (queue : Nat)
  /-- COMPLETION_ENTRY_WRITE (R200): Write a completion entry once ring space allows, with optional MSI-X. -/
  | completionEntryWrite (queue : Nat)
  /-- CXL_MEM_READ (R201): Host read of device HBM, poisoned on an uncorrectable word. -/
  | cxlMemRead (offset count : Nat)
  /-- CXL_MEM_WRITE (R201): Host write of device HBM at the owner's home slice. -/
  | cxlMemWrite (offset : Nat) (bytes : List Byte)
  /-- CREATE (R202): Management command creating a context. -/
  | create
  /-- KERNEL_LOAD (R207): Management command loading and checking a kernel image. -/
  | kernelLoad (offsets frames : List Nat)
  /-- BIND (R203): Management command binding a context from its bind block. -/
  | bind (bases : List Nat) (grants : List (Nat × Nat × Nat))
  /-- SUSPEND (R181): Management command suspending a context. -/
  | suspend
  /-- RESUME (R180): Management command resuming a suspended context. -/
  | resume
  /-- SAVE (R182): Management command requesting a context image of a suspended context. -/
  | save
  /-- CONTEXT_IMAGE_WRITE (R182): Write the context image once no operation of the context is outstanding. -/
  | contextImageWrite (ctx : Nat)
  /-- RESTORE (R183): Management command installing a context image through a die table. -/
  | restore (accepts : Bool) (bases : List Nat)
  /-- DESTROY (R184): Management command moving a context to DRAINING. -/
  | destroy
  /-- QUEUE_ASSIGN (R202): Management command assigning a host work queue to a context. -/
  | queueAssign
  /-- CONTEXT_DRAIN_END (R180): The last outstanding operation of a draining context ends and it becomes EMPTY. -/
  | contextDrainEnd (ctx : Nat)
  /-- WATCHDOG_EXPIRY (R186): A core's watchdog count exceeds the limit and the context is suspended with cause 52. -/
  | watchdogExpiry (core ctx : Nat)
  /-- RMAP_ACK_WINDOW_EXPIRY (R188): A version's acknowledgement window ends unacknowledged; cause 50. -/
  | rmapAckWindowExpiry (die ctx : Nat)
  /-- BUDGET_PERIOD_START (R185): A new budget period begins and exhausted budgets regain eligibility. -/
  | budgetPeriodStart (ofDie : Bool) (unit : Nat)
  /-- WDOG_KICK_ARRIVAL (R193): A watchdog kick reaches another die and zeroes its counts. -/
  | wdogKickArrival (index : Nat)
  /-- RMACK_ARRIVAL (R384): An acknowledgement reaches a die, recorded now or held until install. -/
  | rmackArrival (index : Nat)
  /-- ORDER_LOG_DRAIN (R190): Firmware drains the Sillage area to the host, clearing FULL. -/
  | orderLogDrain (ctx : Nat)
  /-- RMAP_VERSION_INSTALL (R384): A die installs a new resource-map version and starts acknowledgement windows. -/
  | rmapVersionInstall (die : Nat)
  /-- CORE_RETIRE (R386): Firmware retires a core and substitutes its cluster's spare. -/
  | coreRetire (die cluster slot : Nat)
  /-- DIE_LOSS (R387): A compute die is lost in service and marked absent. -/
  | dieLoss (die : Nat)
  /-- MODULE_RESET (R388): Boot: firmware checks, authentication, numbering, training and version 1. -/
  | moduleReset (boot : BootPlan)
  /-- HOST_FUNCTION_PRESENT (R388): The host function is presented on the chosen port and queue 0 opens. -/
  | hostFunctionPresent
  /-- TRANSIENT_CAP_STEP (R390): Every 10 microseconds the transient cap steps down or up by thermal limits. -/
  | transientCapStep (die : Nat) (up : Bool)
  /-- PERSISTENT_CAP_SET (R390): Firmware sets a die's persistent cap, making a new version. -/
  | persistentCapSet (die mhz : Nat)
  /-- DEBUG_HALT (R231): A management core halts a process. -/
  | debugHalt (mgmt ctx rank : Nat)
  /-- DEBUG_HALT_END (R231): The requesting management core ends a halt. -/
  | debugHaltEnd (mgmt ctx rank : Nat)
  /-- DEBUG_REGISTER_WRITE (R231): A management core writes a halted process's register. -/
  | debugRegisterWrite (mgmt ctx rank : Nat) (reg : DebugReg) (value : Word)
  /-- FIRMWARE_CAUSE_RAISE (R231): A management core raises cause 60-63 on a halted process. -/
  | firmwareCauseRaise (mgmt ctx rank cause : Nat)
  /-- LK_RATE_WRITE (R382): Write of a link rate register, ignored whole when out of range. -/
  | lkRateWrite (die index : Nat) (value : Word)
  /-- SLOT_TAKE (R223): A freed issue slot is taken by the first resident READY process. -/
  | slotTake (core : Nat)
  /-- PREEMPTION (R223): A newly ready higher-priority process displaces a slot at its next boundary. -/
  | preemption (core : Nat)
  /-- QUANTUM_EXPIRY (R223): A slot's count reaches Q and rotates or restarts. -/
  | quantumExpiry (core slot : Nat)
  /-- PROCESS_FILL (R220): An evicted READY process becomes resident, evicting another if needed. -/
  | processFill (core : Nat)
  /-- SLEEP_WAKE (R236): The core's tick count reaches a sleeper's target. -/
  | sleepWake (pid : Nat)
  /-- WAIT_LIMIT_EXPIRY (R137): A full-bit wait exceeds the synchronising wait limit; fault 27. -/
  | waitLimitExpiry (pid : Nat)
  /-- PROCESS_FREE (R218): A STOPPED process with nothing outstanding releases its descriptor. -/
  | processFree (pid : Nat)
  /-- TASK_RECORD_TAKE (R217): An underloaded core creates a process from its own deque's youngest record. -/
  | taskRecordTake (core : Nat)
  /-- TASK_RECORD_STEAL (R217): An underloaded core steals the oldest record of a neighbour's deque. -/
  | taskRecordSteal (core : Nat)
  /-- OUTBOUND_MESSAGE_SEND (R373): A queued message with grant, live path and window room sends its fragments. -/
  | outboundMessageSend (die index : Nat)
  /-- FRAGMENT_ARRIVAL (R371): A fragment reaches its destination die and is checked, discarded or held. -/
  | fragmentArrival (index : Nat)
  /-- FRAGMENT_FORWARD (R376): An intermediate die forwards a fragment, checking its tag under containment. -/
  | fragmentForward (index : Nat)
  /-- AGE_INCREMENT (R378): A waiting fragment's AGE rises for each 256 die cycles. -/
  | ageIncrement (index : Nat)
  /-- PUT_FLAG_PERFORM (R164): A PUT.f flag performs as STF once its interval counts are reached. -/
  | putFlagPerform (index : Nat)
  /-- ACK_ARRIVAL (R372): An acknowledgement ends a retained message as performed. -/
  | ackArrival (index : Nat)
  /-- GET_RESPONSE_ARRIVAL (R171): A GET response lands its data at the requester. -/
  | getResponseArrival (index : Nat)
  /-- RAMO_RESPONSE_ARRIVAL (R173): A RAMO response returns the old value. -/
  | ramoResponseArrival (index : Nat)
  /-- NAK_ARRIVAL (R372): A negative acknowledgement triggers one retransmission or is ignored. -/
  | nakArrival (index : Nat)
  /-- FINAL_FAILURE_ARRIVAL (R372): A final failure ends a message with delayed fault 42. -/
  | finalFailureArrival (index : Nat)
  /-- ACK_WINDOW_EXPIRY (R372): The acknowledgement window ends: fault 43, or 42 for GET. -/
  | ackWindowExpiry (die index : Nat)
  /-- DECODE_WINDOW_EXPIRY (R371): A short decode slot sends a negative acknowledgement, or later abandons. -/
  | decodeWindowExpiry (die slot : Nat)
  /-- EMPTY_MASK_EXPIRY (R356): A message whose effective mask stays empty for ACKW ends with fault 42. -/
  | emptyMaskExpiry (die index : Nat)
  /-- SLOT_REQUEST (R370): A destination grants free decode slots to a source's request. -/
  | slotRequest (index : Nat)
  /-- SLOT_GRANT (R370): A source receives decode-slot grants. -/
  | slotGrant (index : Nat)
  /-- SLOT_RELEASE (R370): A destination takes back unused granted slots. -/
  | slotRelease (index : Nat)
  /-- SLOT_REQUEST_REPEAT (R370): An unanswered slot request is repeated after ACKW. -/
  | slotRequestRepeat (die index : Nat)
  /-- FLAG_CANCEL (R164): A flag cancel discards an unperformed flag and its interval counts. -/
  | flagCancel (index : Nat)
  /-- CHANNEL_NOTICE (R412): A channel notice completes a waiting send or raises fault 30. -/
  | channelNotice (index : Nat)
  /-- CHANNEL_MESSAGE_ARRIVAL (R244): A channel message reaches its receive end's ordering point and is accepted or waits. -/
  | channelMessageArrival (index : Nat)
  /-- TILE_TRANSFER_COMPLETE (R250): A matched tile finishes moving and status words are written. -/
  | tileTransferComplete (index : Nat)
  /-- END_LOST (R249): The other end of a channel is lost and waiting parties end with cause 34. -/
  | endLost (ctx chan : Nat)
  /-- QP_STATE_FETCH_COMPLETE (R363): A queue-pair state becomes resident, releasing held messages and fragments. -/
  | qpStateFetchComplete (ioDie qp : Nat)
  /-- QP_STATE_WRITE (R362): Firmware writes a queue-pair state to READY or RESET. -/
  | qpStateWrite (ioDie qp : Nat) (words : List Word)
  /-- QP_PEER_ERROR (R362): A peer reports an unknown queue pair and it enters ERROR. -/
  | qpPeerError (ioDie qp : Nat)
  /-- KEY_UPDATE (R375): Firmware renews a session or in-package key, releasing held messages. -/
  | keyUpdate (peer : Nat)
  /-- KEY_HOLD_EXPIRY (R375): A message held for key renewal beyond the window ends with fault 44. -/
  | keyHoldExpiry (die index : Nat)
  /-- SPDM_SESSION_CLOSE (R377): A peer's SPDM session closes and new messages end with fault 44. -/
  | spdmSessionClose (peer : Nat)
  /-- LINK_TRAINING_COMPLETE (R380): A link trains and goes UP, raising a version if degraded. -/
  | linkTrainingComplete (link lanes speed : Nat)
  /-- LINK_FAILURE (R380): Lane failure, replay limit or loss of signal returns a link to TRAINING. -/
  | linkFailure (link : Nat)
  /-- LINK_TRAINING_FAIL (R380): Three failed trainings make a link LOST. -/
  | linkTrainingFail (link : Nat)
  /-- LINK_FENCE (R380): Firmware fences a link to LOST. -/
  | linkFence (link : Nat)
  /-- DEADLOCK_TOKEN_VISIT (R258): The deadlock token samples a die and adds its counts. -/
  | deadlockTokenVisit (ctx : Nat)
  /-- TOKEN_REISSUE (R258): The first die reissues a token lost for 2^20 die cycles. -/
  | tokenReissue (ctx : Nat)
  /-- DIFFUSER_PACKET_ACCEPT (R320): The Diffuser accepts a GSEND packet and fixes its member set. -/
  | diffuserPacketAccept (index : Nat)
  /-- GSEND_COPY_LAND (R320): A multicast copy lands at a destination core or cluster. -/
  | gsendCopyLand (index : Nat)
  /-- GRED_CONTRIBUTION_ARRIVAL (R324): A contribution joins its collective instance, completing it when last. -/
  | gredContributionArrival (index : Nat)
  /-- GSW_DRAIN_COMPLETE (R318): A rewriting group entry drains and returns to ACTIVE. -/
  | gswDrainComplete (ctx entry : Nat)
  /-- GROUP_BARRIER_ARRIVAL (R332): A core's group-barrier arrival reaches the combining point. -/
  | groupBarrierArrival (index : Nat)
  /-- GROUP_BARRIER_COMPLETION (R329): Completion from the combining point completes a core's barrier. -/
  | groupBarrierCompletion (index : Nat)
  /-- PAGE_WALK (R343): A translation walk completes, filling the TLB or recording or dropping a fault. -/
  | pageWalk (die index : Nat)
  /-- REQUESTER_RETRANSMIT (R347): A released requester retransmits its access for fresh translation. -/
  | requesterRetransmit (die index : Nat)
  /-- TLBI_COMPLETE (R349): An invalidation completes at the owner die. -/
  | tlbiComplete (die : Nat)
  /-- MIGRATION_COPY_DONE (R353): A page migration finishes its copy and rewrites the leaf. -/
  | migrationCopyDone (die : Nat)
  /-- TILE_PIPE_START (R301): A tile pipe starts its next queued instruction. -/
  | tilePipeStart (core : Nat) (multiply : Bool)
  /-- TLD_COMPLETE (R305): A tile load writes its buffer, tag and scales. -/
  | tldComplete (core : Nat)
  /-- TST_COMPLETE (R306): A tile store's writes have all performed. -/
  | tstComplete (core : Nat)
  /-- TMMA_COMPLETE (R304): A TMMA writes its accumulator and ORs its flags. -/
  | tmmaComplete (core : Nat)
  /-- TIMEOUT_FIRING (R254): An ALTW timeout guard becomes ready when the core's tick count reaches T0 + t, waking the parked ALTW. -/
  | timeoutFiring (pid : Nat)
  /-- OWNER_ON_ISSUING_DIE_PERFORM (R164): A PUT, GET or RAMO whose owner is the issuing die performs at its home slice over the mesh and is acknowledged or answered. -/
  | ownerOnIssuingDiePerform (die index : Nat)
  /-- HOST_PORT_FAILOVER (R27): After the resource map marks host port 0 or I/O die 8 lost, firmware moves the device function to host port 1. -/
  | hostPortFailover
  /-- IO_DIE_LOSS (R383): An I/O die is lost in service, its LOST bit is set and a new resource-map version is made. -/
  | ioDieLoss (ioDie : Nat)
  /-- HBM_CHANNEL_FAULT (R384): An HBM4 channel or die-memory slice fails, clearing HBMOK or SLOK and making a new version. -/
  | hbmChannelFault (die : Nat) (slice : Bool) (unit : Nat)
  deriving DecidableEq, Repr

end Sys2Proof
end

