-- ==== Sys2Proof/Machine/Encoding.lean ====
section
/-! DEFINITION. The opcode map of R74 and R75 as data: for each instruction its major, function code, accepted
lengths, TY codes, MOD bits, rounding, operand classes and further conditions, as the instruction's entry gives
them, and the decode checks of R76 (steps 2 and 4 to 8) written once over that data. -/

namespace Sys2Proof.Machine

/-- How an entry uses a 6-bit operand field (R61, R62, R64). -/
inductive Use where
  /-- unused: the field must be zero -/
  | none
  /-- scalar source (R61) that may carry .s -/
  | src
  /-- scalar source that never carries .s (ALTG.to and ALTG.bar, R260) -/
  | srcNoS
  /-- scalar destination (R61) -/
  | dst
  /-- status destination: a window register, a global or zero (R147) -/
  | status
  /-- address register read as a plain source -/
  | areg
  /-- address register written -/
  | aregD
  /-- address register or operand zero (AMK, R112) -/
  | aregZ
  /-- memory operand: an address register whose pointer only is read (R64) -/
  | mem
  /-- predicate read -/
  | pred
  /-- predicate read that never carries .s (ALTG.pr, R267) -/
  | predNoS
  /-- predicate written -/
  | predD
  /-- vector register index -/
  | vec
  /-- vector register index of the destination -/
  | vecD
  /-- mask register index -/
  | mask
  /-- mask register index of the destination -/
  | maskD
  /-- index of a y, z or x register -/
  | quad
  deriving DecidableEq, Repr

/-- The use of every operand field of an instruction. -/
structure Uses where
  d : Use := .none
  a : Use := .none
  b : Use := .none
  c : Use := .none
  f : Use := .none
  deriving DecidableEq, Repr

/-- What IMM21 holds (R69, R70, R73): the modifier word unless the 64-bit immediate form takes it, a memory
or branch offset in the 64-bit form, or never a modifier word. -/
inductive I21 where
  | modw | offset | own
  deriving DecidableEq, Repr

/-- True when IMM21 holds the modifier word of R69. (DEDUCED, log entry 14; unsafe.) -/
def modwIn (k : I21) (x : Args) : Bool :=
  match k with
  | .modw => !(x.i && x.len == .l64)
  | .offset => x.len != .l64
  | .own => false

/-- The MOD field (R69), zero where IMM21 holds an immediate. -/
def modOf (k : I21) (x : Args) : BitVec 11 :=
  if modwIn k x then x.im21.extractLsb' 10 11 else 0

/-- The RND field (R69). -/
def rndOf (k : I21) (x : Args) : BitVec 3 :=
  if modwIn k x then x.im21.extractLsb' 7 3 else 0

/-- The SC bit (R69). -/
def scOf (k : I21) (x : Args) : Bool :=
  if modwIn k x then x.im21.getLsbD 6 else false

/-- The C operand field (R69). -/
def cOf (k : I21) (x : Args) : BitVec 6 :=
  if modwIn k x then x.im21.extractLsb' 0 6 else 0

/-- The F operand field of the second operand set (R60). -/
def fOf (x : Args) : BitVec 6 := x.ext.extractLsb' 0 6

/-- The SF bit of the second operand set (R60). -/
def sfOf (x : Args) : Bool := x.ext.getLsbD 12

/-- The SH bit, .s on the operand H, which no instruction reads. -/
def shOf (x : Args) : Bool := x.ext.getLsbD 13

/-- One entry of the opcode map. `ty` is the set of accepted TY codes as a bit set. `extra` holds the entry's
further conditions of step 6 of R76 and `extra7` those of step 7 (R410). `mark2` holds the bits SA, SB and SC, from bit 0
up, that the entry itself requires zero on pain of fault 2. -/
structure Entry where
  op : Nat
  fn : Nat := 0
  lens : List Len := [.l64]
  immOk : Bool := false
  needC : Bool := false
  i21 : I21 := .modw
  ty : BitVec 16 := 1
  modMask : BitVec 11 := 0
  rnd : Bool := false
  eOk : Bool := false
  priv : Bool := false
  vec : Bool := false
  mark2 : BitVec 3 := 0
  extMask : BitVec 64 := BitVec.allOnes 64
  uses : Args → Uses
  /-- a privileged operand makes the form privileged (step 9 of R76) -/
  privX : Args → Bool := fun _ => false
  /-- fault 2 in a context that records or replays (R255) -/
  notLogged : Args → Bool := fun _ => false
  extra : Args → Bool := fun _ => true
  extra7 : Args → Bool := fun _ => true
  build : Args → Instr

/-- TY sets of R67: integer types, f64 to f16, all types, arithmetic types, widths 64 and 32. -/
def tyInt : BitVec 16 := 0x00FF
def tyFlt : BitVec 16 := 0x0F00
def tyAll : BitVec 16 := 0x3FFF
def tyNum : BitVec 16 := 0x0FFF
def tyFp8 : BitVec 16 := 0x3F00
def tyW32 : BitVec 16 := 0x0333
def tyZero : BitVec 16 := 0x0001

/-- The format codes 0 to 11 of R68. -/
def fmtAll : BitVec 16 := 0x0FFF

def allLens : List Len := [.l64, .l96, .l128]

/-- MOD as a number, for entries whose IMM21 always holds the modifier word or holds an offset in the 64-bit form. -/
def mN (x : Args) : Nat := (modOf .modw x).toNat
def mO (x : Args) : Nat := (modOf .offset x).toNat

/-- TY as a number. -/
def tyN (x : Args) : Nat := x.ty.toNat

def isIntTy (x : Args) : Bool := tyN x < 8

/-- Lane count of R269 for the type code `t`. -/
def lanesOf (t : Nat) : Nat :=
  match t with
  | 0 | 4 | 8 => 16
  | 1 | 5 | 9 => 32
  | 2 | 6 | 10 | 11 => 64
  | _ => 128

/-- True for the format codes that take block scales (R34), vq2 included. -/
def scaledFmt (f : Nat) : Bool := (4 ≤ f && f ≤ 8) || f == 11

/-- The element format code of R68 that the type code `t` of R67 stands for, where there is one. -/
def fmtOfTy (t : Nat) : Option Nat :=
  match t with
  | 8 => some 0
  | 9 => some 1
  | 10 => some 2
  | 11 => some 3
  | 12 => some 4
  | 13 => some 5
  | 3 => some 9
  | _ => none

/-- Width in bits that R283 counts for a format code: e3m2 and e2m3 count as 8, e2m1 and s4 as 4. -/
def fmtWidth (f : Nat) : Nat :=
  match f with
  | 0 => 64
  | 1 => 32
  | 2 | 3 => 16
  | 8 | 10 => 4
  | _ => 8

/-- Width in bits of a type code of R67 (R269). -/
def tyWidth (t : Nat) : Nat :=
  match t with
  | 0 | 4 | 8 => 64
  | 1 | 5 | 9 => 32
  | 2 | 6 | 10 | 11 => 16
  | _ => 8

def isFltTy (t : Nat) : Bool := 8 ≤ t && t ≤ 13
def isFltFmt (f : Nat) : Bool := f ≤ 8

/-- The VCVT conditions of R283 and R284 that step 6 checks. (DEDUCED, log entry 15; unsafe.) -/
def vcvtOk (x : Args) : Bool :=
  let m := modOf .modw x
  let f := (m.extractLsb' 4 4).toNat
  let p := (m.extractLsb' 8 3).toNat
  let t := tyN x
  let wt := tyWidth t
  let wf := fmtWidth f
  let n := 1024 / max wt wf
  let narrow := 1024 / min wt wf
  let tyScaled := t == 12 || t == 13
  let fmtScaled := 4 ≤ f && f ≤ 8
  let tyFl := isFltTy t
  let fmtFl := isFltFmt f
  let rnd := (rndOf .modw x).toNat
  let fl2fl := tyFl && fmtFl
  let int2int := !tyFl && !fmtFl
  f ≤ 10
    && (if wt == wf then p == 0 else (p + 1) * n ≤ narrow)
    && !(tyScaled && fmtScaled)
    && (tyScaled || fmtScaled || cOf .modw x == 56)
    && (rnd != 5 || fl2fl)
    && (rnd == 5 || x.b == 0)
    && !(int2int && rnd != 0)

/-- Number of elements that VCVT converts (R283). -/
def vcvtCount (x : Args) : Nat :=
  1024 / max (tyWidth (tyN x)) (fmtWidth (((modOf .modw x).extractLsb' 4 4).toNat))

/-- The control registers of R92 by number. -/
def crKnown (n : Nat) : Bool :=
  n ≤ 8 || (0x10 ≤ n && n ≤ 0x17) || (0x20 ≤ n && n ≤ 0x24) || n == 0x30 || n == 0x31

/-- IMM21[11:0], the control-register number of CRR and CRW (R122). -/
def crNum (x : Args) : Nat := (x.im21.extractLsb' 0 12).toNat

/-- The control registers that only a privileged process may access (R122): CR.SPILL, CR.QUANT, CR.DECWIN. -/
def crPriv (n : Nat) : Bool := n == 4 || n == 0x30 || n == 0x31

/-- The instruction takes more than one core cycle (R222, R272, R301), so it raises fault 33 inside a packet. -/
def multiCycle (op fn : Nat) (x : Args) : Bool :=
  if op < 0x40 then op == 0x04 || op == 0x05 || op == 0x24 || op == 0x25
  else if op < 0xC0 then false
  else if op < 0xC8 then true
  else if op < 0xE0 then
    if op == 0xC8 || op == 0xC9 || op == 0xCE || op == 0xCF || op == 0xD0 || op == 0xD1 then !isIntTy x
    else !(op == 0xD2 || op == 0xD3 || op == 0xD4 || op == 0xD8 || op == 0xDD) && fn < 8
  else !(op == 0xE0 || op == 0xE5 || op == 0xE6)

/-- What may issue while a FENCE.rel waits (R167): loads, scalar GET, PRF and instructions that touch only the
process's registers. VQDC reads its table in TCM (R293), and TICK, and CRR and CRW of some numbers, name registers of the core,
die, context or module (R92). -/
def lightOp (op : Nat) (x : Args) : Bool :=
  op < 0x40 || op == 0x40 || op == 0x41 || op == 0x45 || op == 0x4C
    || ((op == 0x49 || op == 0x4A) && crNum x < 0x20)
    || op == 0x60 || op == 0x62 || op == 0x64 || (op == 0x66 && !(modOf .offset x).getLsbD 0) || op == 0x6A
    || (op == 0x80 && !(mN x).testBit 2)
    || (0xC8 ≤ op && op ≤ 0xE0 && op != 0xDF) || (0xE4 ≤ op && op ≤ 0xEB)

def useNone : Args → Uses := fun _ => {}
def useD : Args → Uses := fun _ => { d := .dst }
def useA : Args → Uses := fun _ => { a := .src }
def useDA : Args → Uses := fun _ => { d := .dst, a := .src }
def useDAB : Args → Uses := fun _ => { d := .dst, a := .src, b := .src }
def useAB : Args → Uses := fun _ => { a := .src, b := .src }
def useVVV : Args → Uses := fun _ => { d := .vecD, a := .vec, b := .vec }
def useVV : Args → Uses := fun _ => { d := .vecD, a := .vec }

/-- An integer instruction of R95 with two sources. -/
def intEntry (op : Nat) (sat : Bool) (mk : Args → Instr) : Entry :=
  { op := op, immOk := true, ty := tyInt, modMask := if sat then 1 else 0, uses := useDAB, build := mk }

/-- A unary integer instruction of R96. -/
def intUnEntry (op : Nat) (sat : Bool) (mk : Args → Instr) : Entry :=
  { op := op, ty := tyInt, modMask := if sat then 1 else 0, uses := useDA, build := mk }

/-- A floating instruction of R104 with two sources. -/
def fltEntry (op : Nat) (rnd : Bool) (mk : Args → Instr) : Entry :=
  { op := op, immOk := true, ty := tyFlt, rnd := rnd, uses := useDAB, build := mk }

/-- A unary floating instruction. -/
def fltUnEntry (op : Nat) (ty : BitVec 16) (rnd : Bool) (mk : Args → Instr) : Entry :=
  { op := op, ty := ty, rnd := rnd, uses := useDA, build := mk }

def loadEntry (op : Nat) (mk : Args → Instr) : Entry :=
  { op := op, lens := allLens, i21 := .offset, ty := tyAll, uses := fun _ => { d := .dst, a := .mem }, build := mk }

def storeEntry (op : Nat) (mk : Args → Instr) : Entry :=
  { op := op, lens := allLens, i21 := .offset, ty := tyAll, uses := fun _ => { a := .mem, b := .src }, build := mk }

/-- The type and operation pairing of R144. -/
def amoOk (x : Args) : Bool :=
  let o := mN x % 16
  o ≤ 8 && (if o == 8 then tyN x ≥ 8 else tyN x < 8)

def eAdd : Entry :=
  intEntry 0x00 true .add

def eSub : Entry :=
  intEntry 0x01 true .sub

def eMul : Entry :=
  intEntry 0x02 true .mul

def eMulh : Entry :=
  intEntry 0x03 false .mulh

def eDiv : Entry :=
  intEntry 0x04 false .div

def eRem : Entry :=
  intEntry 0x05 false .rem

def eAnd : Entry :=
  intEntry 0x06 false .and

def eOr : Entry :=
  intEntry 0x07 false .or

def eXor : Entry :=
  intEntry 0x08 false .xor

def eAndn : Entry :=
  intEntry 0x09 false .andn

def eShl : Entry :=
  intEntry 0x0A false .shl

def eShr : Entry :=
  intEntry 0x0B false .shr

def eSra : Entry :=
  intEntry 0x0C false .sra

def eRol : Entry :=
  intEntry 0x0D false .rol

def eClz : Entry :=
  intUnEntry 0x0E false .clz

def eCtz : Entry :=
  intUnEntry 0x0F false .ctz

def ePopc : Entry :=
  intUnEntry 0x10 false .popc

def eMin : Entry :=
  intEntry 0x11 false .min

def eMax : Entry :=
  intEntry 0x12 false .max

def eAbs : Entry :=
  intUnEntry 0x13 true .abs

def eNeg : Entry :=
  intUnEntry 0x14 true .neg

def eMov : Entry :=
  intUnEntry 0x15 false .mov

def eMovi : Entry :=
  { op := 0x16, lens := allLens, i21 := .own, ty := tyInt, uses := useD, build := .movi }

def eExtb : Entry :=
  { op := 0x17, lens := [.l96], ty := 0x0011, extMask := 0x3F3F, uses := useDA, build := .extb }

def eInsb : Entry :=
  { op := 0x18, lens := [.l96], extMask := 0x3F3F, uses := useDAB, build := .insb }

def eSext : Entry :=
  { op := 0x19, modMask := 0x3F, uses := useDA, build := .sext }

def eZext : Entry :=
  { op := 0x1A, modMask := 0x3F, uses := useDA, build := .zext }

def eCmp : Entry :=
  { op := 0x1B, immOk := true, ty := tyInt, modMask := 7, uses := fun _ => { d := .predD, a := .src, b := .src },
    extra := fun x => mN x < 6, build := .cmp }

def eSel : Entry :=
  { op := 0x1C, uses := fun _ => { d := .dst, a := .src, b := .src, c := .pred }, build := .sel }

def ePset : Entry :=
  { op := 0x1D, modMask := 0xF, uses := fun _ => { d := .predD, a := .pred, b := .pred }, build := .pset }

def eFadd : Entry :=
  fltEntry 0x20 true .fadd

def eFsub : Entry :=
  fltEntry 0x21 true .fsub

def eFmul : Entry :=
  fltEntry 0x22 true .fmul

def eFfma : Entry :=
  { op := 0x23, immOk := true, needC := true, ty := tyFlt, rnd := true,
    uses := fun _ => { d := .dst, a := .src, b := .src, c := .src }, build := .ffma }

def eFdiv : Entry :=
  fltEntry 0x24 true .fdiv

def eFsqrt : Entry :=
  fltUnEntry 0x25 tyFlt true .fsqrt

def eFmin : Entry :=
  fltEntry 0x26 false .fmin

def eFmax : Entry :=
  fltEntry 0x27 false .fmax

def eFabs : Entry :=
  fltUnEntry 0x28 tyFlt false .fabs

def eFneg : Entry :=
  fltUnEntry 0x29 tyFlt false .fneg

def eFcmp : Entry :=
  { op := 0x2A, immOk := true, ty := tyFlt, modMask := 7, uses := fun _ => { d := .predD, a := .src, b := .src },
    extra := fun x => mN x < 7, build := .fcmp }

def eFcvt : Entry :=
  { op := 0x2B, ty := tyFp8, modMask := 0x1F, rnd := true, uses := useDA,
    extra := fun x => 8 ≤ mN x % 16 && mN x % 16 ≤ 13, build := .fcvt }

def eFcvi : Entry :=
  { op := 0x2C, ty := tyInt, modMask := 0xF, rnd := true, uses := useDA,
    extra := fun x => 8 ≤ mN x && mN x ≤ 11, build := .fcvi }

def eIcvf : Entry :=
  { op := 0x2D, ty := tyFlt, modMask := 0xF, rnd := true, uses := useDA, extra := fun x => mN x < 8, build := .icvf }

def eFrnd : Entry :=
  fltUnEntry 0x2E tyFlt true .frnd

def eFcls : Entry :=
  fltUnEntry 0x2F tyFp8 false .fcls

def eAmk : Entry :=
  { op := 0x30, modMask := 0xFF, privX := fun x => x.a == 56,
    uses := fun _ => { d := .aregD, a := .aregZ, b := .src, c := .src }, build := .amk }

def eAnar : Entry :=
  { op := 0x31, modMask := 0x3E, uses := fun _ => { d := .aregD, a := .areg }, build := .anar }

def eAadv : Entry :=
  { op := 0x32, lens := allLens, uses := fun _ => { d := .aregD, a := .areg, b := .src }, build := .aadv }

def eAget : Entry :=
  { op := 0x33, modMask := 3, uses := fun _ => { d := .dst, a := .areg }, build := .aget }

def eAsetp : Entry :=
  { op := 0x34, uses := fun _ => { d := .aregD, a := .areg, b := .src }, build := .asetp }

def eAchk : Entry :=
  { op := 0x35, modMask := 0x3E, uses := fun _ => { d := .predD, a := .areg, b := .src }, build := .achk }

def entriesScalar : List Entry := [
  eAdd, eSub, eMul, eMulh, eDiv, eRem, eAnd, eOr, eXor, eAndn, eShl, eShr, eSra, eRol, eClz, eCtz, ePopc, eMin,
  eMax, eAbs, eNeg, eMov, eMovi, eExtb, eInsb, eSext, eZext, eCmp, eSel, ePset, eFadd, eFsub, eFmul, eFfma,
  eFdiv, eFsqrt, eFmin, eFmax, eFabs, eFneg, eFcmp, eFcvt, eFcvi, eIcvf, eFrnd, eFcls, eAmk, eAnar, eAadv,
  eAget, eAsetp, eAchk]

def eBra : Entry :=
  { op := 0x40, lens := allLens, i21 := .offset, uses := useNone, build := .bra }

def eJmp : Entry :=
  { op := 0x41, i21 := .own, uses := useA, build := .jmp }

def eCall : Entry :=
  { op := 0x42, lens := allLens, i21 := .offset, uses := useNone, build := .call }

def eCallr : Entry :=
  { op := 0x43, i21 := .own, uses := useA, build := .callr }

def eRet : Entry :=
  { op := 0x44, uses := useNone, build := .ret }

def eNop : Entry :=
  { op := 0x45, lens := allLens, extMask := 0, uses := useNone, build := .nop }

def eTrap : Entry :=
  { op := 0x46, i21 := .own, uses := useNone, extra := fun x => x.im21.toNat < 65536, build := .trap }

def eEret : Entry :=
  { op := 0x47, uses := useNone, build := .eret }

def eBrk : Entry :=
  { op := 0x48, i21 := .own, uses := useNone, extra := fun x => x.im21.toNat < 65536, build := .brk }

def eCrr : Entry :=
  { op := 0x49, i21 := .own, privX := fun x => crPriv (crNum x), uses := useD, extra := fun x => x.im21.toNat < 4096 && crKnown (crNum x), build := .crr }

def eCrw : Entry :=
  { op := 0x4A, i21 := .own, privX := fun x => crPriv (crNum x), uses := useA, extra := fun x => x.im21.toNat < 4096 && crKnown (crNum x),
    build := fun x =>
      if crNum x = 0x30 then .crQuantWrite x else if crNum x = 0x31 then .crDecwinWrite x
      else if crNum x = 6 then .crFpcWrite x else .crw x }

def eTick : Entry :=
  { op := 0x4B, uses := useD, build := .tick }

def eSelf : Entry :=
  { op := 0x4C, modMask := 7, uses := useD, extra := fun x => mN x < 6, build := .self }

def entriesControl : List Entry := [
  eBra, eJmp, eCall, eCallr, eRet, eNop, eTrap, eEret, eBrk, eCrr, eCrw, eTick, eSelf]

def eLdl : Entry :=
  loadEntry 0x60 .ldl

def eStl : Entry :=
  storeEntry 0x61 .stl

def eLdc : Entry :=
  loadEntry 0x62 .ldc

def eStc : Entry :=
  storeEntry 0x63 .stc

def eLdg : Entry :=
  loadEntry 0x64 .ldg

def eStg : Entry :=
  storeEntry 0x65 .stg

def eLds : Entry :=
  { op := 0x66, lens := allLens, i21 := .offset, modMask := 1, uses := fun _ => { d := .dst, a := .mem }, build := .lds }

def eStf : Entry :=
  { op := 0x67, lens := allLens, i21 := .offset, modMask := 1, uses := fun _ => { a := .mem, b := .src }, build := .stf }

/-- FEB (R143): .set and .clr need D = 0. (DEDUCED, log entry 16; unsafe.) -/
def eFeb : Entry :=
  { op := 0x68, lens := allLens, i21 := .offset, modMask := 3,
    uses := fun x => { d := if mO x = 0 then .dst else .none, a := .mem, b := .src },
    extra := fun x => mO x < 3,
    build := fun x => if mO x = 0 then .febRd x else if mO x = 1 then .febSet x else .febClr x }

def eAmo : Entry :=
  { op := 0x69, lens := [.l96, .l128], ty := tyW32, modMask := 0xF,
    uses := fun x => { d := .dst, a := .mem, b := .src, c := if mN x = 7 then .src else .none },
    extra := amoOk, build := .amo }

def ePrf : Entry :=
  { op := 0x6A, lens := allLens, i21 := .offset, modMask := 1, uses := fun _ => { a := .mem }, build := .prf }

def eCln : Entry :=
  { op := 0x6B, uses := fun _ => { a := .mem, b := .src }, build := .cln }

def eInv : Entry :=
  { op := 0x6C, uses := fun _ => { a := .mem, b := .src }, build := .inv }

def eCpy : Entry :=
  { op := 0x6D, modMask := 0xFF, uses := fun _ => { d := .status, a := .mem, b := .mem, c := .src }, build := .cpy }

def eCpys : Entry :=
  { op := 0x6E, lens := [.l128], modMask := 0xFF, extMask := 0x303F,
    uses := fun _ => { d := .status, a := .mem, b := .mem, c := .src, f := .src }, build := .cpys }

def eCpyg : Entry :=
  { op := 0x6F, lens := [.l128], ty := 0x000F, modMask := 0xFF, extMask := 0x303F,
    uses := fun _ => { d := .status, a := .mem, b := .mem, c := .areg, f := .src }, build := .cpyg }

def eZenc : Entry :=
  { op := 0x70, ty := 0x0300, modMask := 0xFF, uses := fun _ => { d := .status, a := .mem, b := .mem, c := .src },
    build := .zenc }

def eZdec : Entry :=
  { op := 0x71, ty := 0x0300, modMask := 0xFF, uses := fun _ => { d := .status, a := .mem, b := .mem, c := .src },
    build := .zdec }

def eMsrq : Entry :=
  { op := 0x72, uses := fun _ => { d := .status, a := .src, b := .mem }, build := .msrq }

def entriesMemory : List Entry := [
  eLdl, eStl, eLdc, eStc, eLdg, eStg, eLds, eStf, eFeb, eAmo, ePrf, eCln, eInv, eCpy, eCpys, eCpyg, eZenc,
  eZdec, eMsrq]

/-- GET, PUT and RAMO (R170). -/
def getBlk (x : Args) : Bool := (mN x).testBit 2

def eGet : Entry :=
  { op := 0x80, lens := allLens, ty := tyAll, modMask := 4,
    uses := fun x => if getBlk x then { d := .status, a := .mem, b := .mem, c := .src }
      else { d := .dst, a := .mem, c := .src },
    extra := fun x => !getBlk x || tyN x == 0,
    build := fun x => if getBlk x then .getBlk x else .get x }

def ePut : Entry :=
  { op := 0x81, lens := allLens, ty := tyAll, modMask := 7,
    uses := fun x => if getBlk x then { d := .status, a := .mem, b := .mem, c := .src }
      else { a := .mem, b := .src, c := .src },
    extra := fun x =>
      mN x % 4 != 3 && (if getBlk x then tyN x == 0 && mN x % 4 != 2
        else mN x % 4 != 2 || tyWidth (tyN x) == 64),
    build := fun x => if getBlk x then .putBlk x else .put x }

/-- RAMO (R173): C of a form other than .cas reads as zero, 0 or 56. (DEDUCED, log entry 16; unsafe.) -/
def eRamo : Entry :=
  { op := 0x82, lens := allLens, ty := tyW32, modMask := 0xF,
    uses := fun x => { d := .dst, a := .mem, b := .src, c := if mN x = 7 ∨ cOf .modw x = 56 then .src else .none },
    extra := amoOk, build := .ramo }

def eFence : Entry :=
  { op := 0x83, modMask := 0x1F, mark2 := 7, uses := useNone,
    extra := fun x => mN x % 4 != 3 && mN x / 4 ≤ 4,
    build := fun x => if mN x % 4 = 0 then .fenceAcq x else if mN x % 4 = 1 then .fenceRel x else .fenceFull x }

def eSbd : Entry :=
  { op := 0x84, uses := useNone, build := .sbd }

def eWaitc : Entry :=
  { op := 0x85, lens := [.l64, .l96], i21 := .own, uses := useNone,
    extra := fun x => if x.len == .l64 then !x.im21.getLsbD 20 else x.im21 == 0, build := .waitc }

def eTlbi : Entry :=
  { op := 0x86, modMask := 1, mark2 := 4, priv := true, uses := useA,
    build := fun x => if mN x = 0 then .tlbiPg x else .tlbiAll x }

def eFbrd : Entry :=
  { op := 0x87, modMask := 3, mark2 := 4, priv := true, uses := useDAB, build := .fbrd }

def eRply : Entry :=
  { op := 0x88, modMask := 3, mark2 := 4, priv := true,
    uses := fun x => if mN x = 0 then { a := .src } else { a := .src, b := .src },
    extra := fun x => mN x < 3,
    build := fun x => if mN x = 0 then .rplyAll x else if mN x = 1 then .rplyOne x else .rplyDecl x }

def ePhot : Entry :=
  { op := 0x89, modMask := 1, mark2 := 4, priv := true, uses := useDA, build := .phot }

def ePmig : Entry :=
  { op := 0x8A, mark2 := 4, priv := true, uses := useDAB, build := .pmig }

def eRmv : Entry :=
  { op := 0x8B, mark2 := 2, uses := useDA, build := .rmv }

def eRmack : Entry :=
  { op := 0x8C, mark2 := 2, priv := true, uses := useDA, build := .rmack }

def eOmark : Entry :=
  { op := 0x8D, mark2 := 2, uses := useA, build := .omark }

def eWdog : Entry :=
  { op := 0x8E, mark2 := 2, modMask := 1, priv := true,
    uses := fun x => if mN x = 0 then {} else { a := .src },
    build := fun x => if mN x = 0 then .wdogKick x else .wdogLim x }

def entriesRemote : List Entry := [
  eGet, ePut, eRamo, eFence, eSbd, eWaitc, eTlbi, eFbrd, eRply, ePhot, ePmig, eRmv, eRmack, eOmark, eWdog]

/-- F of SPAWN and FORKR, MOD[10:6], and n, MOD[5:3] (R211, R212). (DEDUCED, log entry 17; unsafe.) -/
def spawnF (x : Args) : Nat := mN x / 64
def spawnN (x : Args) : Nat := mN x / 8 % 8
def spawnPlace (x : Args) : Nat := mN x / 2 % 4

/-- The floating operations and types of GRED (R323). A nonzero RND on floating .min and .max, which do not round, is accepted:
R323 refuses it on integer types alone. (DEDUCED, log entry 19; unsafe.) -/
def gredOk (x : Args) : Bool :=
  mN x ≤ 5 && (isIntTy x || mN x ≤ 2) && (!isIntTy x || rndOf .modw x == 0)

def eSpawn : Entry :=
  { op := 0xA0, lens := [.l96], modMask := 0x7FE,
    uses := fun x => { d := .dst, a := if spawnPlace x = 1 then .src else .none, b := .src },
    extra := fun x => spawnPlace x != 3 && spawnF x + spawnN x ≤ 32, build := .spawn }

def eForkr : Entry :=
  { op := 0xA1, lens := [.l96], modMask := 0x7FE,
    uses := fun _ => { d := .dst, a := .src, b := .src, c := .areg },
    extra := fun x => spawnPlace x != 3 && spawnN x ≤ 4 && spawnF x + spawnN x ≤ 32, build := .forkr }

/-- JINIT (R214): SB must be zero. (DEDUCED, log entry 13; unsafe.) -/
def eJinit : Entry :=
  { op := 0xA2, mark2 := 2, lens := allLens, i21 := .offset, uses := fun _ => { a := .mem, b := .src }, build := .jinit }

def eJoin : Entry :=
  { op := 0xA3, lens := allLens, i21 := .offset, uses := fun _ => { a := .mem }, build := .join }

def ePushk : Entry :=
  { op := 0xA4, lens := allLens, i21 := .offset, uses := fun _ => { a := .mem }, build := .pushk }

def eStop : Entry :=
  { op := 0xA5, uses := useNone, build := .stop }

def eYield : Entry :=
  { op := 0xA6, uses := useNone, build := .yield }

def eSpri : Entry :=
  { op := 0xA7, uses := useDA, build := .spri }

def eSleep : Entry :=
  { op := 0xA8, modMask := 1, uses := useA, build := .sleep }

def eSend : Entry :=
  { op := 0xA9, eOk := true, uses := useAB, build := .send }

def eRecv : Entry :=
  { op := 0xAA, modMask := 3,
    uses := fun x => { d := .dst, a := .src, c := if (mN x).testBit 1 then .predD else .none }, build := .recv }

def eSendv : Entry :=
  { op := 0xAB, eOk := true, vec := true, uses := fun _ => { a := .src, b := .vec }, build := .sendv }

def eRecvv : Entry :=
  { op := 0xAC, modMask := 2, vec := true,
    uses := fun x => { d := .vecD, a := .src, c := if (mN x).testBit 1 then .predD else .none }, build := .recvv }

def eSendt : Entry :=
  { op := 0xAD, uses := fun _ => { d := .status, a := .src, b := .mem, c := .src }, build := .sendt }

def eRecvt : Entry :=
  { op := 0xAE, uses := fun _ => { d := .status, a := .src, b := .mem, c := .src },
    extra7 := fun x => x.d != 56, build := .recvt }

def eChb : Entry :=
  { op := 0xAF, uses := useDAB, build := .chb }

def eChq : Entry :=
  { op := 0xB0, modMask := 1, uses := useDA, build := fun x => if mN x = 0 then .chqBind x else .chqStat x }

def eChcl : Entry :=
  { op := 0xB1, uses := useA, build := .chcl }

def eAltb : Entry :=
  { op := 0xB2, modMask := 1, notLogged := fun x => mN x == 1, uses := useNone, build := .altb }

def eAltg : Entry :=
  { op := 0xB3, modMask := 7,
    uses := fun x =>
      { a := if mN x = 4 then .predNoS else if mN x < 2 then .src else .srcNoS, b := if mN x = 3 then .src else .none },
    extra := fun x => mN x < 5, build := .altg }

def eAltw : Entry :=
  { op := 0xB4, uses := useD, build := .altw }

def eGsend : Entry :=
  { op := 0xB5, modMask := 0xFF, uses := fun _ => { d := .status, a := .src, b := .mem, c := .src }, build := .gsend }

def eGred : Entry :=
  { op := 0xB6, ty := tyNum, modMask := 7, mark2 := 4, rnd := true, uses := useDAB, extra := gredOk, build := .gred }

def eGqry : Entry :=
  { op := 0xB7, modMask := 7,
    uses := fun x => if mN x = 4 then { d := .dst } else if mN x = 1 then { d := .dst, a := .src, b := .src }
      else { d := .dst, a := .src },
    extra := fun x => mN x < 5, build := .gqry }

def eGsw : Entry :=
  { op := 0xB8, uses := fun _ => { a := .src, b := .src, c := .src }, build := .gsw }

def eBini : Entry :=
  { op := 0xB9, modMask := 7,
    uses := fun x => if mN x % 4 = 2 then { a := .src, c := .src } else { a := .src, b := .src },
    extra := fun x => mN x % 4 != 3, build := .bini }

def eBarv : Entry :=
  { op := 0xBA, uses := useA, build := .barv }

def eBwt : Entry :=
  { op := 0xBB, uses := useDAB, build := .bwt }

def eBaw : Entry :=
  { op := 0xBC, uses := useDA, build := .baw }

def eBadd : Entry :=
  { op := 0xBD, uses := useAB, build := .badd }

def eBgen : Entry :=
  { op := 0xBE, modMask := 1, uses := useDA, build := .bgen }

def eQpost : Entry :=
  { op := 0xBF, modMask := 1, uses := fun _ => { d := .status, a := .src, b := .mem }, build := .qpost }

def entriesProcess : List Entry := [
  eSpawn, eForkr, eJinit, eJoin, ePushk, eStop, eYield, eSpri, eSleep, eSend, eRecv, eSendv, eRecvv, eSendt,
  eRecvt, eChb, eChq, eChcl, eAltb, eAltg, eAltw, eGsend, eGred, eGqry, eGsw, eBini, eBarv, eBwt, eBaw, eBadd,
  eBgen, eQpost]

/-- A contiguous or strided vector load (R273). RND is used by the .f form only. -/
def vldEntry (op : Nat) (mk : Args → Instr) : Entry :=
  { op := op, lens := allLens, i21 := .offset, ty := tyAll, modMask := 0x1F, rnd := true, vec := true,
    uses := fun _ => { d := .vecD, a := .mem, b := .src },
    extra := fun x => if (mO x).testBit 4 then x.b == 56 else rndOf .offset x == 0, build := mk }

def vstEntry (op : Nat) (mk : Args → Instr) : Entry :=
  { op := op, lens := allLens, i21 := .offset, ty := tyAll, modMask := 0x17, rnd := true, vec := true,
    uses := fun _ => { d := .vec, a := .mem, b := .src },
    extra := fun x => if (mO x).testBit 4 then x.b == 56 else rndOf .offset x == 0, build := mk }

/-- VADD, VSUB, VMUL (R278): .sat on integer types only, RND on floating types only. -/
def vecSatOk (x : Args) : Bool :=
  (isIntTy x || !(mN x).testBit 4) && (!isIntTy x || rndOf .modw x == 0)

def vArith (op : Nat) (mk : Args → Instr) : Entry :=
  { op := op, immOk := true, ty := tyNum, modMask := 0x1F, rnd := true, vec := true, uses := useVVV,
    extra := vecSatOk, build := mk }

def vFun (op fn : Nat) (mk : Args → Instr) : Entry :=
  { op := op, fn := fn, ty := tyFlt, modMask := 0xF, rnd := true, vec := true, uses := useVV, build := mk }

def vLogic (fn : Nat) (mk : Args → Instr) : Entry :=
  { op := 0xD3, fn := fn, immOk := true, ty := tyAll, modMask := 0xF, vec := true, uses := useVVV,
    extra := fun x => !x.i || isIntTy x, build := mk }

def vShift (fn : Nat) (mk : Args → Instr) : Entry :=
  { op := 0xD4, fn := fn, immOk := true, ty := tyInt, modMask := 0xF, vec := true, uses := useVVV, build := mk }

def kLogic (fn : Nat) (mk : Args → Instr) : Entry :=
  { op := 0xDD, fn := fn, vec := true, uses := fun _ => { d := .maskD, a := .mask, b := .mask }, build := mk }

/-- Register lanes of the block size code of VSCL (R292). -/
def vsclOk (x : Args) : Bool :=
  let f := mN x / 16 % 16
  let bs := mN x / 256 % 4
  4 ≤ f && f ≤ 8 && bs != 3 && 16 * 2 ^ bs ≤ lanesOf (tyN x)

def vqdcOk (x : Args) : Bool := mN x / 16 % 64 + lanesOf (tyN x) / 8 ≤ 64

def eVldl : Entry :=
  vldEntry 0xC0 .vldl

def eVstl : Entry :=
  vstEntry 0xC1 .vstl

def eVldc : Entry :=
  vldEntry 0xC2 .vldc

def eVstc : Entry :=
  vstEntry 0xC3 .vstc

def eVldg : Entry :=
  vldEntry 0xC4 .vldg

def eVstg : Entry :=
  vstEntry 0xC5 .vstg

def eVgat : Entry :=
  { op := 0xC6, lens := allLens, i21 := .offset, ty := tyW32, modMask := 0xF, vec := true,
    uses := fun _ => { d := .vecD, a := .mem, b := .vec }, build := .vgat }

def eVsca : Entry :=
  { op := 0xC7, lens := allLens, i21 := .offset, ty := tyW32, modMask := 7, vec := true,
    uses := fun _ => { d := .vec, a := .mem, b := .vec }, build := .vsca }

def eVadd : Entry :=
  vArith 0xC8 .vadd

def eVsub : Entry :=
  vArith 0xC9 .vsub

def eVmul : Entry :=
  vArith 0xCA .vmul

def eVfma : Entry :=
  { op := 0xCB, immOk := true, needC := true, ty := tyNum, modMask := 0x1F, rnd := true, vec := true,
    uses := fun _ => { d := .vecD, a := .vec, b := .vec, c := .vec }, extra := vecSatOk, build := .vfma }

def eVdiv : Entry :=
  { op := 0xCC, immOk := true, ty := tyFlt, modMask := 0xF, rnd := true, vec := true, uses := useVVV, build := .vdiv }

def eVsqrt : Entry :=
  { op := 0xCD, ty := tyFlt, modMask := 0xF, rnd := true, vec := true, uses := useVV, build := .vsqrt }

def eVmin : Entry :=
  { op := 0xCE, immOk := true, ty := tyNum, modMask := 0xF, vec := true, uses := useVVV, build := .vmin }

def eVmax : Entry :=
  { op := 0xCF, immOk := true, ty := tyNum, modMask := 0xF, vec := true, uses := useVVV, build := .vmax }

def eVabs : Entry :=
  { op := 0xD0, fn := 0, ty := tyNum, modMask := 0x1F, vec := true, uses := useVV, extra := vecSatOk, build := .vabs }

def eVneg : Entry :=
  { op := 0xD0, fn := 1, ty := tyNum, modMask := 0x1F, vec := true, uses := useVV, extra := vecSatOk, build := .vneg }

def eVcmp : Entry :=
  { op := 0xD1, immOk := true, ty := tyNum, modMask := 0x7F, vec := true,
    uses := fun _ => { d := .maskD, a := .vec, b := .vec },
    extra := fun x => if isIntTy x then mN x / 16 < 6 else mN x / 16 < 7, build := .vcmp }

def eVsel : Entry :=
  { op := 0xD2, ty := tyAll, modMask := 0xF, vec := true,
    uses := fun _ => { d := .vecD, a := .vec, b := .vec, c := .mask }, build := .vsel }

def eVand : Entry :=
  vLogic 0 .vand

def eVor : Entry :=
  vLogic 1 .vor

def eVxor : Entry :=
  vLogic 2 .vxor

def eVshl : Entry :=
  vShift 0 .vshl

def eVshr : Entry :=
  vShift 1 .vshr

def eVsra : Entry :=
  vShift 2 .vsra

def eVcvt : Entry :=
  { op := 0xD5, ty := tyAll, modMask := 0x7FF, rnd := true, vec := true,
    uses := fun x => { d := .vecD, a := .vec, b := if (rndOf .modw x).toNat = 5 then .vec else .none, c := .src },
    extra := vcvtOk,
    extra7 := fun x => (rndOf .modw x).toNat != 5 || x.b.toNat + (vcvtCount x - 1) / 32 ≤ 31, build := .vcvt }

def eVred : Entry :=
  { op := 0xD6, ty := tyAll, modMask := 0x37, rnd := true, vec := true, uses := fun _ => { d := .dst, a := .vec },
    extra := fun x => mN x / 16 < 3 && (rndOf .modw x == 0 || (!isIntTy x && mN x / 16 == 0)), build := .vred }

def eVprm : Entry :=
  { op := 0xD7, fn := 0, ty := tyAll, modMask := 0xF, vec := true,
    uses := fun _ => { d := .vecD, a := .vec, b := .vec, c := .vec }, build := .vprm }

def eVshf : Entry :=
  { op := 0xD7, fn := 1, ty := tyAll, modMask := 0x7FF, vec := true,
    uses := fun _ => { d := .vecD, a := .vec, c := .vec },
    extra := fun x => mN x / 16 ≤ lanesOf (tyN x), build := .vshf }

def eVbc : Entry :=
  { op := 0xD8, fn := 0, ty := tyAll, modMask := 0xF, vec := true, uses := fun _ => { d := .vecD, a := .src },
    build := .vbc }

def eVext : Entry :=
  { op := 0xD8, fn := 1, ty := tyAll, vec := true, uses := fun _ => { d := .dst, a := .vec, b := .src }, build := .vext }

def eVins : Entry :=
  { op := 0xD8, fn := 2, ty := tyAll, modMask := 7, vec := true,
    uses := fun _ => { d := .vecD, a := .src, b := .src }, build := .vins }

def eVexp : Entry :=
  vFun 0xD9 0 .vexp

def eVlog : Entry :=
  vFun 0xD9 1 .vlog

def eVsin : Entry :=
  vFun 0xD9 2 .vsin

def eVcos : Entry :=
  vFun 0xD9 3 .vcos

def eVtanh : Entry :=
  vFun 0xD9 4 .vtanh

def eVerf : Entry :=
  vFun 0xD9 5 .verf

def eVrsq : Entry :=
  vFun 0xDA 0 .vrsq

def eVrcp : Entry :=
  vFun 0xDA 1 .vrcp

def eVrng : Entry :=
  { op := 0xDB, ty := 0x0020, modMask := 0xF, vec := true,
    uses := fun _ => { d := .vecD, a := .src, b := .src, c := .src }, build := .vrng }

def eVcls : Entry :=
  { op := 0xDC, ty := tyFp8, modMask := 0xF, vec := true,
    uses := fun _ => { d := .maskD, a := .vec, b := .src }, build := .vcls }

def eKand : Entry :=
  kLogic 0 .kand

def eKor : Entry :=
  kLogic 1 .kor

def eKxor : Entry :=
  kLogic 2 .kxor

def eKnot : Entry :=
  { op := 0xDD, fn := 3, vec := true, uses := fun _ => { d := .maskD, a := .mask }, build := .knot }

def eKpop : Entry :=
  { op := 0xDD, fn := 4, ty := tyAll, vec := true, uses := fun _ => { d := .dst, a := .mask }, build := .kpop }

def eKmov : Entry :=
  { op := 0xDD, fn := 5, modMask := 0x30, vec := true,
    uses := fun x => if (mN x).testBit 4 then { d := .dst, a := .mask } else { d := .maskD, a := .src },
    build := .kmov }

def eVscl : Entry :=
  { op := 0xDE, ty := tyFlt, modMask := 0x3F7, vec := true, uses := fun _ => { d := .dst, a := .vec },
    extra := vsclOk, build := .vscl }

def eVqdc : Entry :=
  { op := 0xDF, ty := tyFlt, modMask := 0x3FF, rnd := true, vec := true,
    uses := fun _ => { d := .vecD, a := .vec, b := .src }, extra := vqdcOk, build := .vqdc }

def entriesVector : List Entry := [
  eVldl, eVstl, eVldc, eVstc, eVldg, eVstg, eVgat, eVsca, eVadd, eVsub, eVmul, eVfma, eVdiv, eVsqrt, eVmin,
  eVmax, eVabs, eVneg, eVcmp, eVsel, eVand, eVor, eVxor, eVshl, eVshr, eVsra, eVcvt, eVred, eVprm, eVshf, eVbc,
  eVext, eVins, eVexp, eVlog, eVsin, eVcos, eVtanh, eVerf, eVrsq, eVrcp, eVrng, eVcls, eKand, eKor, eKxor,
  eKnot, eKpop, eKmov, eVscl, eVqdc]

/-- TLD and TST (R305, R306): .sc needs a block-scaled format; B is the stride under .st, C the scale string
under .sc. -/
def tmemEntry (op : Nat) (mk : Args → Instr) : Entry :=
  { op := op, lens := allLens, i21 := .offset, ty := fmtAll, modMask := 3, vec := true,
    uses := fun x => { d := .quad, a := .mem, b := if (mO x).testBit 1 then .src else .none,
                       c := if (mO x).testBit 0 then .vec else .none },
    extra := fun x => !(mO x).testBit 0 || scaledFmt (tyN x), build := mk }

/-- The step 6 conditions of TMMA (R303). -/
def tmmaOk (x : Args) : Bool :=
  let t := tyN x
  let rnd := (rndOf .modw x).toNat
  (t != 11 || x.b == 0 || x.b == 2)
    && ((t != 9 && t != 10) || rnd == 0)
    && (scaledFmt t || cOf .modw x == 0)
    && (scaledFmt t || mN x % 32 == 0)

/-- The step 6 conditions of TCVT (R311). -/
def tcvtOk (x : Args) : Bool :=
  let m := mN x
  let t := tyN x
  let p := m / 2 % 4
  let w := fmtWidth t
  (if w == 16 then p == 0 else if w == 8 then p ≤ 1 else true)
    && (!m.testBit 3 || t == 2 || t == 3)
    && m / 16 % 4 != 3
    && (m.testBit 0 == (t == 9 || t == 10))
    && (scaledFmt t || cOf .modw x == 0)
    && ((t != 9 && t != 10) || rndOf .modw x == 0)

/-- The step 6 conditions of XRD (R314). -/
def xrdOk (x : Args) : Bool :=
  let m := mN x
  let op := m % 4
  let w := m / 4 % 8
  match op with
  | 0 => tyN x ≤ 3 && w == 0
  | 1 => tyN x == 0 && w == 0 && rndOf .modw x == 0
  | 2 => tyN x == 0 && w ≤ 5 && rndOf .modw x == 0
  | _ => false

def eTcfg : Entry :=
  { op := 0xE0, ty := fmtAll, modMask := 3, vec := true, uses := fun _ => { d := .quad },
    extra := fun x => mN x < 3, build := .tcfg }

def eTld : Entry :=
  tmemEntry 0xE1 .tld

def eTst : Entry :=
  tmemEntry 0xE2 .tst

def eTmma : Entry :=
  { op := 0xE3, ty := fmtAll, modMask := 0x3F, rnd := true, vec := true,
    uses := fun x => { d := .quad, a := .quad, b := .quad, c := if scaledFmt (tyN x) then .vec else .none },
    extra := tmmaOk, build := .tmma }

def eTzr : Entry :=
  { op := 0xE4, modMask := 3, vec := true, uses := fun _ => { d := .quad }, extra := fun x => mN x < 3, build := .tzr }

def eTrd : Entry :=
  { op := 0xE5, modMask := 1, vec := true, uses := fun _ => { d := .vecD, a := .quad, b := .src }, build := .trd }

def eTwr : Entry :=
  { op := 0xE6, modMask := 1, vec := true, uses := fun _ => { d := .quad, a := .vec, b := .src }, build := .twr }

def eTxp : Entry :=
  { op := 0xE7, ty := fmtAll, vec := true, uses := fun _ => { d := .quad, a := .quad }, build := .txp }

def eTbs : Entry :=
  { op := 0xE8, ty := fmtAll, vec := true,
    uses := fun x => { d := .vecD, a := .quad, b := .src,
                       c := if tyN x = 3 ∨ tyN x = 9 ∨ tyN x = 10 then .none else .vec }, build := .tbs }

def eXacc : Entry :=
  { op := 0xE9, modMask := 0xF, vec := true,
    uses := fun x => if (mN x).testBit 3 then { d := .quad, a := .src, b := .src } else { d := .quad, a := .vec },
    extra := fun x => !(mN x).testBit 3 || mN x % 8 == 0,
    build := fun x => if (mN x).testBit 3 then .xaccW x else .xaccV x }

def eXrd : Entry :=
  { op := 0xEA, ty := 0x000F, modMask := 0x1F, rnd := true, vec := true, uses := fun _ => { d := .dst, a := .quad },
    extra := xrdOk,
    build := fun x => if mN x % 4 = 0 then .xrd x else if mN x % 4 = 1 then .xrdSt x else .xrdWd x }

/-- TCVT (R311): an e2m1 tile with BLK 16 has 256 blocks, so its scale string takes a second register (R298). -/
def eTcvt : Entry :=
  { op := 0xEB, ty := 0x07FC, modMask := 0x3F, rnd := true, vec := true,
    uses := fun x => { d := .quad, a := .quad, c := if scaledFmt (tyN x) then .vec else .none },
    extra := tcvtOk, extra7 := fun x => !(tyN x == 8 && mN x / 16 % 4 == 0 && cOf .modw x == 31), build := .tcvt }

def entriesTile : List Entry := [
  eTcfg, eTld, eTst, eTmma, eTzr, eTrd, eTwr, eTxp, eTbs, eXacc, eXrd, eTcvt]

/-- The complete map of R74. -/
def entries : List Entry :=
  entriesScalar ++ entriesControl ++ entriesMemory ++ entriesRemote ++ entriesProcess ++ entriesVector ++ entriesTile

/-- The entry of a major and function code. -/
def findEntry (op fn : Nat) : Option Entry := entries.find? fun e => e.op == op && e.fn == fn

/-- True when the major is assigned (step 4 of R76). -/
def majorAssigned (op : Nat) : Bool := entries.any fun e => e.op == op

/-- Major, function code and fields of an instruction (R74, R75); none for a hardware event, which has no
encoding. -/
def opcodeOf (i : Instr) : Option (Nat × Nat × Args) :=
  match i with
  | .add x => some (0x00, 0, x)
  | .sub x => some (0x01, 0, x)
  | .mul x => some (0x02, 0, x)
  | .mulh x => some (0x03, 0, x)
  | .div x => some (0x04, 0, x)
  | .rem x => some (0x05, 0, x)
  | .and x => some (0x06, 0, x)
  | .or x => some (0x07, 0, x)
  | .xor x => some (0x08, 0, x)
  | .andn x => some (0x09, 0, x)
  | .shl x => some (0x0A, 0, x)
  | .shr x => some (0x0B, 0, x)
  | .sra x => some (0x0C, 0, x)
  | .rol x => some (0x0D, 0, x)
  | .clz x => some (0x0E, 0, x)
  | .ctz x => some (0x0F, 0, x)
  | .popc x => some (0x10, 0, x)
  | .min x => some (0x11, 0, x)
  | .max x => some (0x12, 0, x)
  | .abs x => some (0x13, 0, x)
  | .neg x => some (0x14, 0, x)
  | .mov x => some (0x15, 0, x)
  | .movi x => some (0x16, 0, x)
  | .extb x => some (0x17, 0, x)
  | .insb x => some (0x18, 0, x)
  | .sext x => some (0x19, 0, x)
  | .zext x => some (0x1A, 0, x)
  | .cmp x => some (0x1B, 0, x)
  | .sel x => some (0x1C, 0, x)
  | .pset x => some (0x1D, 0, x)
  | .fadd x => some (0x20, 0, x)
  | .fsub x => some (0x21, 0, x)
  | .fmul x => some (0x22, 0, x)
  | .ffma x => some (0x23, 0, x)
  | .fdiv x => some (0x24, 0, x)
  | .fsqrt x => some (0x25, 0, x)
  | .fmin x => some (0x26, 0, x)
  | .fmax x => some (0x27, 0, x)
  | .fabs x => some (0x28, 0, x)
  | .fneg x => some (0x29, 0, x)
  | .fcmp x => some (0x2A, 0, x)
  | .fcvt x => some (0x2B, 0, x)
  | .fcvi x => some (0x2C, 0, x)
  | .icvf x => some (0x2D, 0, x)
  | .frnd x => some (0x2E, 0, x)
  | .fcls x => some (0x2F, 0, x)
  | .amk x => some (0x30, 0, x)
  | .anar x => some (0x31, 0, x)
  | .aadv x => some (0x32, 0, x)
  | .aget x => some (0x33, 0, x)
  | .asetp x => some (0x34, 0, x)
  | .achk x => some (0x35, 0, x)
  | .bra x => some (0x40, 0, x)
  | .jmp x => some (0x41, 0, x)
  | .call x => some (0x42, 0, x)
  | .callr x => some (0x43, 0, x)
  | .ret x => some (0x44, 0, x)
  | .nop x => some (0x45, 0, x)
  | .trap x => some (0x46, 0, x)
  | .brk x => some (0x48, 0, x)
  | .eret x => some (0x47, 0, x)
  | .crr x => some (0x49, 0, x)
  | .crw x => some (0x4A, 0, x)
  | .crQuantWrite x => some (0x4A, 0, x)
  | .crDecwinWrite x => some (0x4A, 0, x)
  | .crFpcWrite x => some (0x4A, 0, x)
  | .tick x => some (0x4B, 0, x)
  | .self x => some (0x4C, 0, x)
  | .ldl x => some (0x60, 0, x)
  | .stl x => some (0x61, 0, x)
  | .ldc x => some (0x62, 0, x)
  | .stc x => some (0x63, 0, x)
  | .ldg x => some (0x64, 0, x)
  | .stg x => some (0x65, 0, x)
  | .lds x => some (0x66, 0, x)
  | .stf x => some (0x67, 0, x)
  | .febRd x => some (0x68, 0, x)
  | .febSet x => some (0x68, 0, x)
  | .febClr x => some (0x68, 0, x)
  | .amo x => some (0x69, 0, x)
  | .prf x => some (0x6A, 0, x)
  | .cln x => some (0x6B, 0, x)
  | .inv x => some (0x6C, 0, x)
  | .cpy x => some (0x6D, 0, x)
  | .cpys x => some (0x6E, 0, x)
  | .cpyg x => some (0x6F, 0, x)
  | .zenc x => some (0x70, 0, x)
  | .zdec x => some (0x71, 0, x)
  | .msrq x => some (0x72, 0, x)
  | .get x => some (0x80, 0, x)
  | .getBlk x => some (0x80, 0, x)
  | .put x => some (0x81, 0, x)
  | .putBlk x => some (0x81, 0, x)
  | .ramo x => some (0x82, 0, x)
  | .fenceAcq x => some (0x83, 0, x)
  | .fenceRel x => some (0x83, 0, x)
  | .fenceFull x => some (0x83, 0, x)
  | .sbd x => some (0x84, 0, x)
  | .waitc x => some (0x85, 0, x)
  | .tlbiPg x => some (0x86, 0, x)
  | .tlbiAll x => some (0x86, 0, x)
  | .fbrd x => some (0x87, 0, x)
  | .rplyAll x => some (0x88, 0, x)
  | .rplyOne x => some (0x88, 0, x)
  | .rplyDecl x => some (0x88, 0, x)
  | .phot x => some (0x89, 0, x)
  | .pmig x => some (0x8A, 0, x)
  | .rmv x => some (0x8B, 0, x)
  | .rmack x => some (0x8C, 0, x)
  | .omark x => some (0x8D, 0, x)
  | .wdogKick x => some (0x8E, 0, x)
  | .wdogLim x => some (0x8E, 0, x)
  | .spawn x => some (0xA0, 0, x)
  | .forkr x => some (0xA1, 0, x)
  | .jinit x => some (0xA2, 0, x)
  | .join x => some (0xA3, 0, x)
  | .pushk x => some (0xA4, 0, x)
  | .stop x => some (0xA5, 0, x)
  | .yield x => some (0xA6, 0, x)
  | .spri x => some (0xA7, 0, x)
  | .sleep x => some (0xA8, 0, x)
  | .send x => some (0xA9, 0, x)
  | .recv x => some (0xAA, 0, x)
  | .sendv x => some (0xAB, 0, x)
  | .recvv x => some (0xAC, 0, x)
  | .sendt x => some (0xAD, 0, x)
  | .recvt x => some (0xAE, 0, x)
  | .chb x => some (0xAF, 0, x)
  | .chqBind x => some (0xB0, 0, x)
  | .chqStat x => some (0xB0, 0, x)
  | .chcl x => some (0xB1, 0, x)
  | .altb x => some (0xB2, 0, x)
  | .altg x => some (0xB3, 0, x)
  | .altw x => some (0xB4, 0, x)
  | .gsend x => some (0xB5, 0, x)
  | .gred x => some (0xB6, 0, x)
  | .gqry x => some (0xB7, 0, x)
  | .gsw x => some (0xB8, 0, x)
  | .bini x => some (0xB9, 0, x)
  | .barv x => some (0xBA, 0, x)
  | .bwt x => some (0xBB, 0, x)
  | .baw x => some (0xBC, 0, x)
  | .badd x => some (0xBD, 0, x)
  | .bgen x => some (0xBE, 0, x)
  | .qpost x => some (0xBF, 0, x)
  | .vldl x => some (0xC0, 0, x)
  | .vstl x => some (0xC1, 0, x)
  | .vldc x => some (0xC2, 0, x)
  | .vstc x => some (0xC3, 0, x)
  | .vldg x => some (0xC4, 0, x)
  | .vstg x => some (0xC5, 0, x)
  | .vgat x => some (0xC6, 0, x)
  | .vsca x => some (0xC7, 0, x)
  | .vadd x => some (0xC8, 0, x)
  | .vsub x => some (0xC9, 0, x)
  | .vmul x => some (0xCA, 0, x)
  | .vfma x => some (0xCB, 0, x)
  | .vdiv x => some (0xCC, 0, x)
  | .vsqrt x => some (0xCD, 0, x)
  | .vmin x => some (0xCE, 0, x)
  | .vmax x => some (0xCF, 0, x)
  | .vabs x => some (0xD0, 0, x)
  | .vneg x => some (0xD0, 1, x)
  | .vcmp x => some (0xD1, 0, x)
  | .vsel x => some (0xD2, 0, x)
  | .vand x => some (0xD3, 0, x)
  | .vor x => some (0xD3, 1, x)
  | .vxor x => some (0xD3, 2, x)
  | .vshl x => some (0xD4, 0, x)
  | .vshr x => some (0xD4, 1, x)
  | .vsra x => some (0xD4, 2, x)
  | .vcvt x => some (0xD5, 0, x)
  | .vred x => some (0xD6, 0, x)
  | .vprm x => some (0xD7, 0, x)
  | .vshf x => some (0xD7, 1, x)
  | .vbc x => some (0xD8, 0, x)
  | .vext x => some (0xD8, 1, x)
  | .vins x => some (0xD8, 2, x)
  | .vexp x => some (0xD9, 0, x)
  | .vlog x => some (0xD9, 1, x)
  | .vsin x => some (0xD9, 2, x)
  | .vcos x => some (0xD9, 3, x)
  | .vtanh x => some (0xD9, 4, x)
  | .verf x => some (0xD9, 5, x)
  | .vrsq x => some (0xDA, 0, x)
  | .vrcp x => some (0xDA, 1, x)
  | .vrng x => some (0xDB, 0, x)
  | .vcls x => some (0xDC, 0, x)
  | .kand x => some (0xDD, 0, x)
  | .kor x => some (0xDD, 1, x)
  | .kxor x => some (0xDD, 2, x)
  | .knot x => some (0xDD, 3, x)
  | .kpop x => some (0xDD, 4, x)
  | .kmov x => some (0xDD, 5, x)
  | .vscl x => some (0xDE, 0, x)
  | .vqdc x => some (0xDF, 0, x)
  | .tcfg x => some (0xE0, 0, x)
  | .tld x => some (0xE1, 0, x)
  | .tst x => some (0xE2, 0, x)
  | .tmma x => some (0xE3, 0, x)
  | .tzr x => some (0xE4, 0, x)
  | .trd x => some (0xE5, 0, x)
  | .twr x => some (0xE6, 0, x)
  | .txp x => some (0xE7, 0, x)
  | .tbs x => some (0xE8, 0, x)
  | .xaccV x => some (0xE9, 0, x)
  | .xaccW x => some (0xE9, 0, x)
  | .xrd x => some (0xEA, 0, x)
  | .xrdSt x => some (0xEA, 0, x)
  | .xrdWd x => some (0xEA, 0, x)
  | .tcvt x => some (0xEB, 0, x)
  | _ => none

/-- Legality of a field value in its place (R61, R62; step 7 of R76). A status operand is no address register (R147,
R205, R319; DEDUCED, log entry 18; unsafe.) -/
def Use.legal (u : Use) (v : Nat) : Bool :=
  match u with
  | .none => true
  | .src | .srcNoS => v < 58
  | .dst => v < 57
  | .status => v < 40 || v == 56
  | .areg | .aregD | .mem => 40 ≤ v && v < 56
  | .aregZ => 40 ≤ v && v < 57
  | .pred | .predNoS | .predD | .mask | .maskD => v < 8
  | .vec | .vecD => v < 32
  | .quad => v < 4

/-- Whether .s is legal on a field with this use and value (R64; step 8 of R76). (DEDUCED, log entry 13; unsafe.) -/
def Use.sLegal (u : Use) (v : Nat) : Bool :=
  match u with
  | .src | .areg | .aregZ => v < 56
  | .pred => true
  | _ => false

/-- Step 6 of R76, true when nothing is refused. -/
def step6 (e : Entry) (x : Args) : Bool :=
  let u := e.uses x
  let mw := modwIn e.i21 x
  let rnd := (rndOf e.i21 x).toNat
  let fltImm := x.i && x.len == .l64 && tyN x ≥ 8
  (!x.i || e.immOk)
    && (if x.i then !(e.needC && x.len == .l64) else e.lens.contains x.len)
    && (!x.e || e.eOk)
    && e.ty.getLsbD (tyN x)
    && (rnd == 0 || e.rnd)
    && rnd < 6 && (rnd != 5 || e.op == 0xD5)
    && (!mw || (modOf e.i21 x &&& ~~~e.modMask) == 0)
    && (u.d != .none || x.d == 0) && (u.a != .none || x.a == 0)
    && (if x.i then x.b == 0 else u.b != .none || x.b == 0)
    && (!mw || u.c != .none || cOf e.i21 x == 0)
    && (x.i || (x.ext &&& ~~~e.extMask) == 0)
    && (!fltImm || x.im21.toNat < 65536)
    && (!e.mark2.getLsbD 0 || !x.sa) && (!e.mark2.getLsbD 1 || !x.sb) && (!e.mark2.getLsbD 2 || !scOf e.i21 x)
    && e.extra x

/-- Step 7 of R76, true when every operand field is legal. -/
def step7 (e : Entry) (x : Args) : Bool :=
  let u := e.uses x
  u.d.legal x.d.toNat && u.a.legal x.a.toNat && (x.i || u.b.legal x.b.toNat)
    && u.c.legal (cOf e.i21 x).toNat
    && (u.f == .none || (u.f.legal (fOf x).toNat && fOf x != 57))
    && e.extra7 x

/-- Step 8 of R76, true when every set .s bit is legal. (DEDUCED, log entry 13; unsafe.) -/
def step8 (e : Entry) (x : Args) : Bool :=
  let u := e.uses x
  (!x.sa || u.a.sLegal x.a.toNat) && (!x.sb || (!x.i && u.b.sLegal x.b.toNat))
    && (!scOf e.i21 x || u.c.sLegal (cOf e.i21 x).toNat)
    && (u.f == .none || ((!sfOf x || u.f.sLegal (fOf x).toNat) && !shOf x))

/-- Steps 6 to 8 of R76: the cause of the first that fails. -/
def checkFields (e : Entry) (x : Args) : Option Nat :=
  if !step6 e x then some 2 else if !step7 e x then some 1 else if !step8 e x then some 7 else none

end Sys2Proof.Machine
end

