-- ==== Sys2Proof/WellFormed.lean ====
section
/-! DEFINITION. Which terms of `Instr` an encoding of the manual stands for: the fields of an instruction pass
steps 4 to 8 of R76, its extension is as long as its length says, and its constructor is the row that those fields
name. A hardware event has no encoding and carries no condition. -/

namespace Sys2Proof

/-- The extension holds no bit beyond the length of the instruction (R57). -/
def Args.extFits (x : Args) : Bool :=
  match x.len with
  | .l64 => x.ext == 0
  | .l96 => x.ext.toNat < 2 ^ 32
  | .l128 => true

/-- Well-formedness of an instruction: what R76 accepts, steps 2 and 4 to 8. -/
def Instr.wellFormed (i : Instr) : Bool :=
  match Machine.opcodeOf i with
  | none => true
  | some (op, fn, x) =>
    match Machine.findEntry op fn with
    | none => false
    | some e => x.extFits && Machine.checkFields e x == none && decide (e.build x = i)

end Sys2Proof
end

