-- ==== Sys2Proof/Decode.lean ====
section
/-! DEFINITION. The decoder: from the bytes at an instruction address to an instruction or the name of the first
check of R76 (steps 2 to 8) that refuses them; and the encoder, from the same layout of R57, R59 and R60. -/

namespace Sys2Proof

/-- Why the decoder refuses bytes: the steps of R76. -/
inductive Reject where
  /-- step 2: LEN = 11, cause 1 -/
  | lengthCode
  /-- step 3: the instruction crosses a 32-byte boundary, cause 3 -/
  | crosses
  /-- step 4: OP is not assigned, cause 2 -/
  | major
  /-- step 5: FN[2:0] is not assigned, cause 2 -/
  | function
  /-- step 6: a length, modifier, type or unused field is refused, cause 2 -/
  | field
  /-- step 7: an operand field is illegal, cause 1 -/
  | operand
  /-- step 8: .s where R64 forbids it, cause 7 -/
  | sync
  deriving DecidableEq, Repr

/-- The cause of R232 that a refusal raises (R76). -/
def Reject.cause : Reject → Nat
  | .lengthCode | .operand => 1
  | .major | .function | .field => 2
  | .crosses => 3
  | .sync => 7

/-- What the decoder answers. -/
inductive Decoded where
  | instr (i : Instr)
  | reject (r : Reject)
  deriving DecidableEq, Repr

/-- Bytes as a little-endian number (R6). -/
def leNat : List Byte → Nat
  | [] => 0
  | b :: bs => b.toNat + 256 * leNat bs

/-- The `n` low bytes of a number, little-endian (R6). -/
def leBytes : Nat → Nat → List Byte
  | 0, _ => []
  | n + 1, v => BitVec.ofNat 8 v :: leBytes n (v / 256)

/-- The length that LEN names (R57). -/
def lenOf (w : Word) : Option Len :=
  match (w.extractLsb' 0 2).toNat with
  | 0 => some .l64
  | 1 => some .l96
  | 2 => some .l128
  | _ => none

/-- OP, bits [9:2] of the base word (R59). -/
def opField (w : Word) : Nat := (w.extractLsb' 2 8).toNat

/-- FN[2:0], bits [12:10] of the base word (R59). -/
def fnField (w : Word) : Nat := (w.extractLsb' 10 3).toNat

/-- The fields of a base word and its extension (R59, R60). -/
def fieldsOf (len : Len) (w ext : Word) : Args :=
  { len := len, gpred := w.extractLsb' 14 3, gsense := w.getLsbD 17, i := w.getLsbD 13
    d := w.extractLsb' 18 6, a := w.extractLsb' 24 6, b := w.extractLsb' 30 6
    sa := w.getLsbD 36, sb := w.getLsbD 37, e := w.getLsbD 38
    ty := w.extractLsb' 39 4, im21 := w.extractLsb' 43 21, ext := ext }

/-- Steps 4 to 8 of R76 on a base word whose length is known. -/
def decodeFields (len : Len) (w ext : Word) : Decoded :=
  if !Machine.majorAssigned (opField w) then .reject .major else
  match Machine.findEntry (opField w) (fnField w) with
  | none => .reject .function
  | some e =>
    let x := fieldsOf len w ext
    match Machine.checkFields e x with
    | none => .instr (e.build x)
    | some 1 => .reject .operand
    | some 7 => .reject .sync
    | some _ => .reject .field

/-- Decodes the bytes from an instruction address to the end of its 32-byte block, or more of them. LEN lies in
the first byte, so step 2 of R76 precedes step 3. -/
def decode (bs : List Byte) : Decoded :=
  match lenOf (BitVec.ofNat 64 (leNat (bs.take 8))) with
  | none => .reject .lengthCode
  | some len =>
    if bs.length < len.bytes then .reject .crosses
    else decodeFields len (BitVec.ofNat 64 (leNat (bs.take 8)))
      (BitVec.ofNat 64 (leNat ((bs.take len.bytes).drop 8)))

/-- The code of LEN (R57). -/
def lenCode : Len → BitVec 2
  | .l64 => 0
  | .l96 => 1
  | .l128 => 2

/-- The base word of R59. -/
def baseWord (op fn : Nat) (x : Args) : Word :=
  x.im21 ++ (x.ty ++ (BitVec.ofBool x.e ++ (BitVec.ofBool x.sb ++ (BitVec.ofBool x.sa ++ (x.b ++ (x.a ++ (x.d ++
    (BitVec.ofBool x.gsense ++ (x.gpred ++ (BitVec.ofBool x.i ++ (BitVec.ofNat 3 fn ++ (BitVec.ofNat 8 op ++
      lenCode x.len))))))))))))

/-- The bytes of an instruction in address order (R6, R57); none for a hardware event. -/
def encode (i : Instr) : List Byte :=
  match Machine.opcodeOf i with
  | none => []
  | some (op, fn, x) => leBytes 8 (baseWord op fn x).toNat ++ leBytes (x.len.bytes - 8) x.ext.toNat

/-- The instruction that the decoder reads from an instruction whose bits are `w`, the bits above `nbits` zero. -/
def decodeTableWord (nbits w : Nat) : Option Instr :=
  match decode (leBytes 16 (w % 2 ^ nbits)) with
  | .instr i => some i
  | .reject _ => none

end Sys2Proof
end

