-- ==== Sys2Proof/Config.lean ====
section
/-! DEFINITION. What the manual leaves open and the model leaves free: constants with no body, so that no statement
can rest on a value of theirs. -/

namespace Sys2Proof

/-- A value that the manual does not state, by the number of the occasion (`State.fresh`).
(DESIGN CHOICE, log entry 9; safe.) -/
opaque Config.freeWord : Nat → Word

/-- The result of a function of R53, by function, mode and operand, where the precision that the model computes with does
not decide the rounding. (DEDUCED, log entry 11; safe.) -/
opaque Config.freeBits : Nat → Nat → Nat → Nat

end Sys2Proof
end

