-- ==== Sys2Proof/Machine/Tbl.lean ====
section
/-! DEFINITION. Finite tables in one canonical form, strictly rising keys, which hold every indexed piece of state;
and memory bytes, the same form with no entry equal to what an unlisted address reads as, zero. -/

namespace Sys2Proof.Machine

/-- A table from numbers to values: entries in strictly rising key order. -/
abbrev Tbl (α : Type) := List (Nat × α)

/-- The entry at a key. -/
def tblGet {α : Type} : Tbl α → Nat → Option α
  | [], _ => none
  | (k, v) :: t, n => if n = k then some v else if n < k then none else tblGet t n

/-- The entry at a key, or the value an unlisted key stands for. -/
def tblGetD {α : Type} (t : Tbl α) (n : Nat) (d : α) : α := (tblGet t n).getD d

/-- Sets the entry at a key, keeping the order. -/
def tblSet {α : Type} : Tbl α → Nat → α → Tbl α
  | [], n, v => [(n, v)]
  | (k, w) :: t, n, v =>
    if n = k then (n, v) :: t else if n < k then (n, v) :: (k, w) :: t else (k, w) :: tblSet t n v

/-- Removes the entry at a key. -/
def tblErase {α : Type} : Tbl α → Nat → Tbl α
  | [], _ => []
  | (k, w) :: t, n => if n = k then t else if n < k then (k, w) :: t else (k, w) :: tblErase t n

/-- Changes the entry at a key where there is one. -/
def tblMod {α : Type} (t : Tbl α) (n : Nat) (f : α → α) : Tbl α :=
  match tblGet t n with
  | some v => tblSet t n (f v)
  | none => t

/-- Keys strictly rise. -/
def tblSorted {α : Type} : Tbl α → Bool
  | [] => true
  | [_] => true
  | (a, _) :: (b, w) :: t => decide (a < b) && tblSorted ((b, w) :: t)

/-- The smallest number that is no key of the table at or above `n`, looking at `fuel` numbers. -/
def tblFree {α : Type} (t : Tbl α) : Nat → Nat → Nat
  | 0, n => n
  | fuel + 1, n => if (tblGet t n).isSome then tblFree t fuel (n + 1) else n

/-- A set of numbers in strictly rising order. -/
abbrev NSet := Tbl Unit

def nsHas (t : NSet) (n : Nat) : Bool := (tblGet t n).isSome
def nsAdd (t : NSet) (n : Nat) : NSet := tblSet t n ()
def nsDel (t : NSet) (n : Nat) : NSet := tblErase t n

/-- Memory: the bytes that are not zero, by rising address. An unlisted address reads as zero. -/
abbrev Memory := List Host.Cell

/-- The byte at an address. (DESIGN CHOICE, log entry 4; unsafe.) -/
def memByte (m : Memory) (a : Nat) : Byte := tblGetD m a 0

/-- Writes one byte; writing zero removes the entry. -/
def memPut (m : Memory) (a : Nat) (b : Byte) : Memory := if b = 0 then tblErase m a else tblSet m a b

/-- The bytes of a range. -/
def memRead (m : Memory) (a : Nat) : Nat → List Byte
  | 0 => []
  | n + 1 => memByte m a :: memRead m (a + 1) n

/-- Writes the bytes of a list from an address up. -/
def memWrite (m : Memory) (a : Nat) : List Byte → Memory
  | [] => m
  | b :: bs => memWrite (memPut m a b) (a + 1) bs

/-- The canonical form: strictly rising addresses and no zero byte. -/
def Memory.wf (m : Memory) : Bool := tblSorted m && m.all fun c => c.2 != 0

/-- Bytes as a little-endian number (R6). -/
def bytesNat : List Byte → Nat
  | [] => 0
  | b :: bs => b.toNat + 256 * bytesNat bs

/-- The `n` low bytes of a number, little-endian (R6). -/
def natBytes : Nat → Nat → List Byte
  | 0, _ => []
  | n + 1, v => BitVec.ofNat 8 v :: natBytes n (v / 256)

/-- The list with the element at an index replaced. -/
def listSet {α : Type} : List α → Nat → α → List α
  | [], _, _ => []
  | _ :: t, 0, v => v :: t
  | h :: t, n + 1, v => h :: listSet t n v

end Sys2Proof.Machine
end

