-- ==== Sys2Proof/Machine/State.lean ====
section
/-! DEFINITION. The state of one module: processes, cores, clusters, dies, I/O dies, contexts, queues and memory,
all as plain data, and the state right after reset. Field docstrings cite the rule that names the state. -/

namespace Sys2Proof.Machine

/-- An address register (R91): PS field, length, base and pointer. -/
structure AReg where
  ps : BitVec 8 := 0
  len : BitVec 40 := 0
  base : Word := 0
  ptr : Word := 0
  deriving DecidableEq, Repr

/-- A scalar register or predicate of a process; a window register by its place 24·level + i in the register
stack (R85). -/
inductive RName where
  | w (place : Nat) | g (i : Nat) | a (i : Nat) | p (i : Nat)
  deriving DecidableEq, Repr

/-- A fault as CR.CAUSE, CR.FADDR describe it (R93, R232). -/
structure FaultInfo where
  cause : Nat
  info : Nat := 0
  faddr : Word := 0
  deriving DecidableEq, Repr

/-- Park reasons (R219). -/
inductive Reason where
  | channel | fullBit | barrier | join | sleep | page | memoryServer | alt
  deriving DecidableEq, Repr

/-- What a parked process waits for. -/
inductive Wait where
  /-- full bits of registers (R63, R64) -/
  | full (rs : List RName)
  /-- pending results (R86, R90) -/
  | landed (rs : List RName)
  /-- service at a word (R137) -/
  | word (pa : Nat)
  /-- a tick count (R236) -/
  | tick (target : Nat)
  /-- counters at or below limits (R176) -/
  | counters (ld st cp ti : Option Nat)
  /-- the end of remote operations, and of store-buffer entries below a sequence number (R167) -/
  | ops (toks : List Nat) (sb : Nat)
  /-- store-buffer entries below a sequence number (R138) -/
  | stores (sb : Nat)
  /-- the data of a GLOBAL load that missed L1 (R134) -/
  | line (pa : Nat)
  /-- translations (R347): tickets of the die's miss table, each with the address that its decline reports -/
  | miss (die : Nat) (tickets : List (Nat × Word))
  /-- a place in a cluster's engine (R147) -/
  | engine (cluster : Nat)
  /-- acknowledgement of a resource-map version on every live die (R192) -/
  | rmack (version : Nat)
  /-- a barrier's generation to differ (R336) -/
  | generation (bar : Nat) (gen : Nat)
  /-- a guard of the open alt (R255) -/
  | alt
  /-- a channel operation (R246, R262), by its ticket -/
  | chan (ticket : Nat)
  /-- everything outstanding of the process (R233) -/
  | drained
  /-- a turn in a replayed order (R191) -/
  | replay (va : Nat) (seq : Nat)
  /-- a GSW drain (R318) -/
  | groupDrain (entry : Nat)
  /-- the result of an instance of a collective, by entry and index (R324) -/
  | collective (entry : Nat) (index : Nat)
  /-- an answer by ticket -/
  | answer (ticket : Nat)
  /-- the answer of another unit to what the instruction asks; it takes the answer as it issues again -/
  | ask
  /-- its children, which the model has made READY already (R211, R212) -/
  | children
  deriving DecidableEq, Repr

/-- Process states (R218). A FREE descriptor is no entry of the process table. -/
inductive PState where
  | ready | running | suspended | faulted | stopped
  | parked (reason : Reason) (wait : Wait) (since : Nat)
  deriving DecidableEq, Repr

/-- An open packet (R65, R66): its channel handle, its message's ticket, the instructions counted, and the parts. -/
structure Packet where
  handle : Word
  ticket : Nat
  count : Nat
  parts : List (List Byte)
  deriving DecidableEq, Repr

/-- A guard of an alt (R254, R267). -/
inductive Guard where
  | recv (handle : Word) | send (handle : Word) | barrier (b gen : Nat) | timeout (ticks : Nat)
  | pred (i : Nat)
  deriving DecidableEq, Repr

/-- An exact accumulator (R51): V as a 384-bit two's-complement value and its status bits. -/
structure XAcc where
  v : BitVec 384 := 0
  ovf : Bool := false
  loss : Bool := false
  pinf : Bool := false
  ninf : Bool := false
  nan : Bool := false
  deriving DecidableEq, Repr

/-- An operand buffer (R294, R295): 2,048 bytes and its tag. -/
structure YBuf where
  data : BitVec 16384 := 0
  fmt : Nat := 0
  blk : Nat := 0
  deriving DecidableEq, Repr

/-- Kind of a remote operation (R166). -/
inductive OpKind where
  | get | put | ramo | other
  deriving DecidableEq, Repr

/-- Where the owner of a remote access lies, seen from its issuer (R167). -/
inductive Owner where
  | die | device | system
  deriving DecidableEq, Repr

/-- An operation that a process has outstanding, by token: its kind and owner, the register or predicate that takes
its result, and what else its end writes (R166, R171 to R173). -/
structure Op where
  kind : OpKind
  owner : Owner
  dest : Option RName := none
  ty : Nat := 0
  block : Bool := false
  ea : Word := 0
  count : Nat := 0
  left : Nat := 0
  fails : List (Nat × Nat) := []
  /-- its process is parked on it, and its failure is precise (R214) -/
  precise : Bool := false
  deriving DecidableEq, Repr

/-- A fault record (R230). -/
structure FRec where
  rank : Nat
  core : Nat
  ctx : Nat
  context : Bool := false
  create : Bool := false
  lost : Bool := false
  slide : Bool := false
  nested : Bool := false
  code : Nat
  info : Nat := 0
  epc : Word := 0
  faddr : Word := 0
  deriving DecidableEq, Repr

/-- The wait of a FENCE.rel or SBD that has not ended (R167, R175): tokens and a store-buffer sequence number.
`all` holds every later instruction back, as SBD does. -/
structure Hold where
  toks : List Nat
  sb : Nat
  all : Bool
  deriving DecidableEq, Repr

/-- What an instruction that has begun and not completed keeps, while a delayed fault that came before it is handled: its
address, and the fields of its process of the same names (R166). -/
structure Progress where
  pc : Word
  wakeFault : Option FaultInfo := none
  wakeVal : Option Word := none
  sbMark : Option Nat := none
  granted : List Nat := []
  phase : Nat := 0
  token : Nat := 0
  seenGen : Nat := 0
  waitsOn : Option (Word × Nat) := none
  deriving DecidableEq, Repr

/-- One process descriptor (R83, R92, R178). -/
structure Proc where
  ctx : Nat
  rank : Nat
  core : Nat
  kernel : Nat := 0
  entry : Nat := 0
  /-- privileged (R179) -/
  priv : Bool := false
  /-- vector class (R268) -/
  vclass : Bool := false
  /-- declared depth d (R85) -/
  depth : Nat := 1
  prio : Nat := 0
  /-- priority floor (R235) -/
  floor : Nat := 0
  st : PState := .ready
  /-- the fault with which a parked process woke (R218) -/
  wakeFault : Option FaultInfo := none
  /-- the value with which a parked process woke, read by its instruction when it issues again -/
  wakeVal : Option Word := none
  /-- the management core that halts the process, and whether the halt has still to take effect (R231) -/
  halt : Option Nat := none
  haltDue : Bool := false
  /-- the instruction address (R58) -/
  pc : Word := 0
  win : Tbl Word := []
  glob : Tbl Word := []
  areg : Tbl AReg := []
  pred : Tbl Bool := []
  /-- registers whose full bit is clear (R64) -/
  empties : List RName := []
  /-- registers that await an asynchronous result (R90) -/
  pending : List RName := []
  cause : Word := 0
  epc : Word := 0
  faddr : Word := 0
  thdl : Word := 0
  spill : Word := 0
  /-- spill area allotted at creation: its first 192-byte unit below the pool's top, and its units (R209) -/
  area : Nat × Nat := (0, 0)
  /-- CR.WSTAT.LEVEL and RES (R89) -/
  level : Nat := 0
  res : Nat := 1
  fpc : Word := 0
  rngctl : Word := 0
  vqtab : Word := 0
  fmt : Tbl Word := []
  /-- frames held in the descriptor pool (R87) -/
  pool : NSet := []
  /-- resident on its core (R220) -/
  resident : Bool := false
  v : Tbl (BitVec 1024) := []
  k : Tbl (BitVec 128) := []
  y : Tbl YBuf := []
  z : Tbl (BitVec 32768) := []
  x : Tbl XAcc := []
  /-- load, store, copy and tile counters (R139) -/
  cLoad : Nat := 0
  cStore : Nat := 0
  cCopy : Nat := 0
  cTile : Nat := 0
  /-- outstanding remote, channel and group operations by token -/
  ops : Tbl Op := []
  /-- recorded delayed faults and the seventeenth (R166) -/
  delayed : List FaultInfo := []
  overflow : Option FaultInfo := none
  /-- a fault whose delivery waits for its slide (R94), with the EPC it gives -/
  held : Option (FaultInfo × Word) := none
  /-- firmware-defined causes that await delivery (R231) -/
  firm : List Nat := []
  packet : Option Packet := none
  /-- the open alt, its guards and FAIR (R254, R267) -/
  alt : Option (List Guard) := none
  altFair : Bool := false
  /-- T0 of the ALTW that has first issued (R255) -/
  altT0 : Option Nat := none
  rotor : Nat := 7
  /-- ordinal of order-sensitive events (R190) -/
  ordinal : Nat := 0
  /-- path rotor (R164) -/
  pathRotor : Nat := 15
  /-- PUT messages of the open interval by 16·device + path, and the interval number by device (R164) -/
  putCount : Tbl Nat := []
  fseq : Tbl Nat := []
  /-- devices to which a PUT of the open interval has ended by fault (R164) -/
  spoiled : NSet := []
  /-- PUT.f neither acknowledged nor ended, by device (R164) -/
  flagsOut : Tbl Nat := []
  /-- parts left of messages being received, by channel index (R244) -/
  rx : Tbl (List (List Byte)) := []
  /-- a FENCE.rel or SBD that has not ended -/
  hold : Option Hold := none
  /-- store-buffer mark and progress of an instruction that has begun but not completed -/
  sbMark : Option Nat := none
  /-- lines whose data has returned for the instruction that waits for them (R134) -/
  granted : List Nat := []
  phase : Nat := 0
  token : Nat := 0
  /-- the generation that a BAW or BWT which has begun waits to see left (R335, R336) -/
  seenGen : Nat := 0
  /-- an instruction that goes on where the handler of a delayed fault returns to it (R166) -/
  resume : Option Progress := none
  /-- the handle that a channel instruction waits on, and its code of R259 -/
  waitsOn : Option (Word × Nat) := none
  /-- core cycles its slot has been held (R223) and the order of its last issue (R87) -/
  quantum : Nat := 0
  lastIssue : Nat := 0
  /-- order in which the process entered its state (R87, R220) -/
  stateSeq : Nat := 0
  /-- YIELD acts, and a priority that SPRI set is weighed, at the next boundary (R234, R235) -/
  yielded : Bool := false
  lowered : Bool := false
  deriving DecidableEq, Repr

/-- What a store-buffer entry does when it performs (R132, R146). -/
inductive SbWhat where
  /-- bytes for a virtual address at a physical address -/
  | store (va : Nat) (pa : Nat) (bytes : List Byte)
  /-- several pieces of one vector store, each a virtual and a physical address and its bytes (R273) -/
  | pieces (ps : List (Nat × Nat × List Byte))
  | clean (lines : List Nat)
  | inval (lines : List Nat)
  deriving DecidableEq, Repr

structure SbEntry where
  seq : Nat
  pid : Nat
  ctx : Nat
  what : SbWhat
  deriving DecidableEq, Repr

/-- A task record with what the deque keeps beside it (R216). -/
structure TaskRec where
  ctx : Nat
  kernel : Nat
  entry : Nat
  start : Word
  rank : Nat
  arg0 : Word
  arg1 : Word
  prio : Nat
  floor : Nat
  fpc : Word
  deriving DecidableEq, Repr

/-- A hardware barrier (R327). `state` is 0 IDLE, 1 OPEN, 2 SENT, 3 DONE; `mode` 0 arrival, 1 byte, 2 group. -/
structure Barrier where
  gen : Nat := 0
  ovr : Bool := false
  state : Nat := 0
  mode : Nat := 0
  auto : Bool := false
  count : Nat := 0
  owner : Nat := 0
  gv : Bool := false
  group : Nat := 0
  target : Nat := 0
  deriving DecidableEq, Repr

/-- One position of a cluster's ring (R18): the state of the core that holds it. -/
structure Core where
  live : Bool := false
  /-- physical slot of the position (R19) -/
  slot : Nat := 0
  /-- tick count (R228) and core cycles -/
  tick : Nat := 0
  cycle : Nat := 0
  /-- the core cycle at which its budget period began (R185) -/
  period : Nat := 0
  /-- CR.QUANT (R221) -/
  quant : Nat := 1024
  /-- issue slots: the process that holds each (R222) -/
  slots : List (Option Nat) := [none, none, none, none, none, none, none, none]
  /-- ready queues of the four priorities, head first (R218) -/
  ready : Tbl (List Nat) := []
  /-- the slot that issued last at each priority (R222) -/
  lastSlot : Tbl Nat := []
  /-- store buffer, oldest first, and the next sequence number (R132) -/
  sb : List SbEntry := []
  sbSeq : Nat := 0
  /-- L1 lines held, by physical line address (R131) -/
  l1 : NSet := []
  /-- work deque, oldest first (R194) -/
  deque : List TaskRec := []
  /-- instructions issued, for the order of last issue -/
  issued : Nat := 0
  /-- issue-share counts and watchdog counts by context (R185, R186) -/
  share : Tbl Nat := []
  watch : Tbl Nat := []
  /-- fault records not yet sent, oldest first, each with the process it describes (R230) -/
  records : List (FRec × Option Nat) := []
  /-- the ticket of the message that carries the oldest of them to a receive end beyond the die, 0 where none does -/
  recFlight : Nat := 0
  bars : Tbl Barrier := []
  deriving DecidableEq, Repr

/-- An instruction of a cluster's copy engine (R147). -/
inductive EngWhat where
  | cpy (dst src : AReg) (n : Nat)
  | cpys (dst src : AReg) (nrow rowb : Nat) (sd ss : Int)
  | cpyg (dst src idx : AReg) (n e : Nat)
  | zenc (dst src : AReg) (n : Nat) (e : Int) (dbl : Bool)
  | zdec (dst src : AReg) (n : Nat) (dbl : Bool)
  deriving DecidableEq, Repr

/-- A run of bytes of an access: its address, physical address and length, whether the die cache may hold it, whether
L1 may, and the leaf where it is translated. -/
structure Piece where
  va : Nat
  pa : Nat
  len : Nat
  cached : Bool := false
  l1 : Bool := true
  leaf : Option Word := none
  deriving DecidableEq, Repr

structure EngEntry where
  pid : Nat
  core : Nat
  ctx : Nat
  dest : Option RName
  bar : Option Nat
  what : EngWhat
  /-- store-buffer mark of the core at issue: earlier stores perform before a source read -/
  sb : Nat
  toks : List Nat := []
  /-- the number of its issue: tile stores of its process with a lower one come before its source reads -/
  seq : Nat := 0
  /-- bytes of a chunk that has been read, and those of its destination words that have landed apart (R168) -/
  buf : Option (List Byte) := none
  early : List Nat := []
  /-- where the bytes of that chunk go, once a word of it has landed -/
  aim : Option (List Piece) := none
  /-- chunks, rows, elements or blocks done, bytes of source read (Distill), bytes written -/
  done : Nat := 0
  src : Nat := 0
  bytes : Nat := 0
  /-- the cause that stopped it -/
  cause : Nat := 0
  finished : Bool := false
  /-- it waits for translations: their tickets in the die's miss table -/
  stalled : Bool := false
  miss : List Nat := []
  deriving DecidableEq, Repr

structure Cluster where
  engine : List EngEntry := []
  deriving DecidableEq, Repr

/-- An operation that waits at a word (R137). -/
inductive WordOp where
  | lds (clear : Bool) | stfe (value : Word)
  deriving DecidableEq, Repr

structure Waiter where
  pid : Nat
  op : WordOp
  /-- destination of an LDS, and the address at which the process goes on -/
  dest : Option RName
  next : Word
  /-- the effective address of the access, the registers that its .s marks empty, and the home slice of the word where
  the die cache may hold it -/
  ea : Word
  marks : List RName := []
  home : Option Nat := none
  deriving DecidableEq, Repr

structure KEntry where
  codeOff : Nat
  depth : Nat
  vclass : Bool
  spillf : Nat
  deriving DecidableEq, Repr

/-- A loaded kernel (R206 to R208): die offsets and lengths of its sections, entries, the count n. -/
structure Kernel where
  codeOff : Nat
  codeLen : Nat
  constOff : Nat
  constLen : Nat
  dataOff : Nat
  dataLen : Nat
  entries : List KEntry
  n : Nat := 0
  /-- first frame of each section on every die, and the home slice of its pages (R207) -/
  codeFrame : Nat := 0
  constFrame : Nat := 0
  dataFrame : Nat := 0
  slice : Nat := 0
  deriving DecidableEq, Repr

/-- Context states (R180). -/
inductive CState where
  | empty | loading | bound | running | suspended | draining
  deriving DecidableEq, Repr

/-- An entry of the order log (R190). -/
structure LogEntry where
  rank : Nat
  ord : Nat
  kind : Nat
  guard : Nat
  value : Word
  seq : Nat
  deriving DecidableEq, Repr

/-- An entry of the channel table (R239). -/
structure Chan where
  assigned : Bool := false
  kind : Nat := 0
  type : Nat := 0
  closed : Bool := false
  depth : Nat := 0
  target : Nat := 0
  gen : Nat := 0
  deriving DecidableEq, Repr

/-- The region of a SENDT or RECVT: address register, effective address, length, and the token of the operation; for
a SENDT whose bytes have come over a link, the bytes (R250, R263, R412). -/
structure TileEnd where
  area : AReg
  ea : Word
  n : Nat
  tok : Nat
  bytes : Option (List Byte) := none
  deriving DecidableEq, Repr

/-- A request record of a memory server (R252): the process, its handle's channel, the destination of the status
word (none for a SEND packet), the four words, and its progress. -/
structure MsReq where
  pid : Nat
  ctx : Nat
  core : Nat
  rank : Nat
  /-- a place reserved by an open packet has no words yet -/
  ready : Bool := true
  viaSend : Bool := false
  dest : Option RName := none
  words : List Word := []
  taken : Bool := false
  cause : Nat := 0
  ticket : Nat := 0
  /-- the channel of the packet that holds the place -/
  chan : Nat := 0
  /-- lines or elements moved and their bytes; it waits for a translation -/
  done : Nat := 0
  bytes : Nat := 0
  stalled : Bool := false
  miss : List Nat := []
  /-- the process is privileged; what must perform before the request is taken -/
  priv : Bool := false
  sb : Nat := 0
  toks : List Nat := []
  deriving DecidableEq, Repr

/-- A message of a channel (R242): its parts, or the region of a SENDT. The place of an open packet has not closed.
`rsv` names the process that holds it by an ALTW reservation (R256). `link` is the die whose sender waits for a
channel notice (R412), with its device; `src` the device and rank of a sender on another device. A `drop` tells the end that
a packet has ended by fault (R242); `req` is the request of an MSRQ (R154). -/
structure Msg where
  ticket : Nat
  pid : Nat
  parts : List (List Byte) := []
  closed : Bool := true
  rsv : Option Nat := none
  tile : Option TileEnd := none
  link : Option (Nat × Nat) := none
  src : Option (Nat × Nat) := none
  drop : Bool := false
  req : Option MsReq := none
  deriving DecidableEq, Repr

/-- A receive that waits (R246): RECV and RECVV of a process that has parked, RECV.a that have completed with the
destinations and predicates that take the parts in order, or a RECVT. `rsv` is a .tx reservation (R256). -/
structure Rcv where
  ticket : Nat
  pid : Nat
  tile : Option TileEnd := none
  async : List (Option RName × Option RName) := []
  rsv : Option Nat := none
  deriving DecidableEq, Repr

/-- A tile in movement (R250): from a sender's region or a place's bytes, to a receiver's region or into the place
of a buffered message. -/
structure Tile where
  ticket : Nat
  ctx : Nat
  chan : Nat
  from_ : Option (Nat × TileEnd)
  link : Option (Nat × Nat) := none
  bytes : List Byte := []
  to_ : Option (Nat × TileEnd)
  deriving DecidableEq, Repr

/-- What a GSEND copy to another device's Diffuser says (R320): the offset, DSP, barrier, and FIRST, STRIDE and COUNT of its
member set. -/
structure GCopy where
  off : Nat
  dsp : Bool
  bar : Option Nat
  first : Nat
  stride : Nat
  members : Nat
  deriving DecidableEq, Repr

/-- A channel message, or the news of a message's fate, on its way: the context, the channel, the message, and for
a notice the cause and the bytes written (R412). -/
structure ChanWire where
  ctx : Nat
  chan : Nat
  msg : Msg
  notice : Bool := false
  cause : Nat := 0
  bytes : Nat := 0
  /-- of a message that has come over a link: its die and the decode slots that are acknowledged as it is delivered (R371) -/
  home : Option (Nat × List Nat) := none
  /-- the delivery of a GSEND copy and its member set; the token record of a message between Diffusers (R367) -/
  copy : Option GCopy := none
  token : List Nat := []
  deriving DecidableEq, Repr

/-- The receive end of a channel (R241): sends and receives that wait, messages held, and rendezvous messages
matched to a receive but not yet taken. -/
structure ChanEnd where
  sends : List Msg := []
  rcvs : List Rcv := []
  held : List Msg := []
  matched : List (Msg × Rcv) := []
  /-- CHBs that wait for transfers to end (R251) -/
  rebind : List Nat := []
  /-- of an end on another module: receives waiting or places free as far as known here, and the processes for which a
  .tx guard has reserved one (R254, R256, R411) -/
  far : Nat := 0
  farRsv : NSet := []
  /-- of an end on another module: the status word that its ordering point has last told (R265, R411) -/
  stat : Word := 0
  deriving DecidableEq, Repr

/-- An entry of the group table (R315). `state` is 0 FREE, 1 RESERVED, 2 ACTIVE, 3 REWRITING. -/
structure Group where
  first : Nat := 0
  stride : Nat := 0
  state : Nat := 0
  kslot : Nat := 0
  gen : Nat := 0
  count : Nat := 0
  /-- packets and collective instances accepted under a set that is being replaced (R318) -/
  draining : Nat := 0
  deriving DecidableEq, Repr

/-- A contribution to a collective instance (R324). -/
structure Contrib where
  pid : Nat
  rank : Nat
  value : Word
  deriving DecidableEq, Repr

/-- The key of a collective instance (R324): operation, type, rounding, PAYL. -/
structure RedKey where
  op : Nat
  ty : Nat
  rm : Nat
  payl : Bool
  deriving DecidableEq, Repr

structure Collective where
  entry : Nat
  index : Nat
  first : Nat
  stride : Nat
  count : Nat
  gen : Nat
  key : RedKey
  mismatch : Bool := false
  parts : List Contrib := []
  deriving DecidableEq, Repr

/-- The deadlock token of a context (R258): the die that it visits next, whether it is on its way there, whether another device
has it or a link has lost it, whether the round is clean so far, its totals, and the first die's cycle when it last left that die. -/
structure Token where
  die : Nat := 0
  moving : Bool := false
  away : Bool := false
  lost : Bool := false
  clean : Bool := true
  sent : Nat := 0
  delivered : Nat := 0
  left : Nat := 0
  /-- records of the processes that other modules hold parked (R259) -/
  recs : List FRec := []
  deriving DecidableEq, Repr

/-- A FORKR whose add to a REMOTE join cell is outstanding (R213): the children that it holds ranks and room for, and the
rest of the room that it holds on its cores. -/
structure Fork where
  pid : Nat
  kids : List Proc
  pads : List Proc := []
  deriving DecidableEq, Repr

/-- A context (R178). -/
structure Ctx where
  st : CState := .empty
  causes : List Nat := []
  /-- state to resume to is BOUND (R180) -/
  resumeBound : Bool := false
  kernels : Tbl Kernel := []
  tlen : Nat := 0
  dpool : Nat := 0
  spool : Nat := 0
  slen : Nat := 0
  tbase : Nat := 0
  sbase : Nat := 0
  waitlim : Nat := 0
  /-- budgets: issue share, memory-server and link bytes in 64-byte units, each soft or hard (R185) -/
  iss : Nat := 0
  msb : Nat := 0
  lkb : Nat := 0
  issHard : Bool := false
  msHard : Bool := false
  lkHard : Bool := false
  /-- die-scratch slices: bit 16·L + s (R128) -/
  scr : BitVec 128 := 0
  wdLimit : Nat := 0
  wdCeil : Nat := 0
  /-- determinism mode, log capacity in entries, and the log area (R190) -/
  dmode : Nat := 0
  logCap : Nat := 0
  log : List LogEntry := []
  /-- CR.OLOG.FULL, and ENT per die -/
  logFull : Bool := false
  logEnt : Tbl Nat := []
  /-- atomics performed per word of a LOG page, by die offset within the owner die -/
  logCount : Tbl Nat := []
  /-- CR.RMVER.ACK per die (R189) -/
  ack : Tbl Nat := []
  /-- context die table (R183) -/
  dieTable : List Nat := [0, 1, 2, 3, 4, 5, 6, 7]
  /-- handle tag (R237) -/
  tag : Nat := 0
  /-- channel table and receive ends by index (R239, R241) -/
  chans : Tbl Chan := []
  ends : Tbl ChanEnd := []
  /-- group table, GRED instance numbers by 2^32·entry + rank, and open instances (R315, R324) -/
  groups : Tbl Group := []
  redNext : Tbl Nat := []
  colls : List Collective := []
  /-- group barriers at the combining point by 256·barrier + entry: the cores of the generation, and those that have
  arrived (R332) -/
  gbars : Tbl (List Nat × List Nat) := []
  /-- page-table area per image die: HBM offset on the target die, and its length in bytes (R338) -/
  tables : Tbl Nat := []
  tabLen : Nat := 0
  /-- dirty bits per die, messages sent and delivered per die since the token's last visit, the token, and deadlock
  reports sent (R257 to R259); a report may be sent since some dirty bit has been set -/
  dirty : NSet := []
  sent : Tbl Nat := []
  delivered : Tbl Nat := []
  token : Token := {}
  armed : Bool := true
  reports : Nat := 0
  /-- ranks held on other modules, by `farCore`, and ranks that are moving (R411) -/
  farRanks : Tbl Nat := []
  moving : NSet := []
  /-- peers of the bind (R203) and the image a save writes (R182) -/
  peers : List Nat := []
  saveTo : Option (Nat × Nat) := none
  deriving DecidableEq, Repr

/-- A requester of the memory-side MMU (R344). -/
inductive Requester where
  | proc (pid : Nat)
  | engine (cluster : Nat)
  | tile (core : Nat)
  | server (die server : Nat)
  /-- a remote access of a process of this rank, with a number that tells it from others at its owner -/
  | remote (rank id : Nat)
  deriving DecidableEq, Repr

/-- State of a miss-table entry (R343, R345): its walk runs, it is recorded in a slot, dropped, dropped without an
entry of the table, the page migrates (R353), or it is released and its requesters are about to retransmit, or to end
where the page service has declined (R347). -/
inductive MissState where
  | walking | recorded (slot : Nat) | dropped | orphan | migrating | released (declined : Bool)
  deriving DecidableEq, Repr

/-- A miss-table entry: context, extent as a base within bits [42:0] of the address and a width in bits, and the
first requester's access. -/
structure Miss where
  ticket : Nat
  ctx : Nat
  base : Nat
  bits : Nat
  st : MissState
  va : Word
  write : Bool
  fetch : Bool
  reqs : List Requester
  deriving DecidableEq, Repr

/-- A TLB entry (R343, R350): base within bits [42:0] of the address, width in bits, the leaf, hotness counters. -/
structure TlbEnt where
  ctx : Nat
  base : Nat
  bits : Nat
  leaf : Word
  hot : List Nat := [0, 0, 0, 0]
  deriving DecidableEq, Repr

/-- A fault-buffer record (R345). -/
structure FBuf where
  ctx : Nat
  write : Bool
  fetch : Bool
  nonproc : Bool
  bad : Bool
  nreq : Nat
  va : Word
  rank : Nat
  core : Nat
  seq : Nat
  deriving DecidableEq, Repr

/-- An invalidation or migration that has not completed (R349, R353). -/
structure Inval where
  pid : Nat
  ctx : Nat
  all : Bool
  va : Word
  deriving DecidableEq, Repr

structure Migr where
  pid : Nat
  ctx : Nat
  base : Nat
  bits : Nat
  leafAt : Nat
  leaf : Word
  newLeaf : Word
  ticket : Nat
  deriving DecidableEq, Repr

/-- A host work queue (R195, R197, R200): configuration, records held oldest first, completion entries not yet
written, and those written to the ring. -/
structure HQueue where
  en : Bool := false
  priv : Bool := false
  ctx : Nat := 0
  quota : Nat := 0
  ien : Bool := false
  vec : Nat := 0
  accepted : Nat := 0
  refused : Nat := 0
  closed : Bool := false
  base : Nat := 0
  log2n : Nat := 0
  head : Nat := 0
  recs : List (List Word) := []
  waiting : List (Word × Word) := []
  written : Nat := 0
  deriving DecidableEq, Repr

/-- Where a message at its source stands (R373). -/
inductive OutState where
  | queued | sent0 | sent1
  deriving DecidableEq, Repr

/-- A message in the outbound write buffer or read tracker of a die (R161, R366, R373).
(DEDUCED, log entry 34; unsafe.) -/
structure OutMsg where
  /-- KIND of R367 -/
  kind : Nat
  pid : Nat
  ctx : Nat
  rank : Nat
  /-- the operation it belongs to, and its place within it: offset in bytes -/
  tok : Nat
  off : Nat := 0
  ddev : Nat
  ddie : Nat
  pmask : Nat := 0
  lead : Nat := 0
  fseq : Nat := 0
  counts : List Nat := []
  addr : Word
  /-- [3:0] TY, [7:4] mode or operation, [8] block form -/
  opw : Nat
  payload : List Byte
  /-- GET: bytes asked for; the local destination of a block form -/
  count : Nat := 0
  dst : Option AReg := none
  /-- the words of a GET.blk that have landed before the others (R171) -/
  early : List Nat := []
  /-- the bytes of a GET.blk whose owner is the issuing die, once they have been read there -/
  got : Option (List Byte) := none
  priv : Bool := false
  st : OutState := .queued
  msgid : Nat := 0
  epoch : Nat := 0
  k : Nat := 0
  m : Nat := 0
  slot : Nat := 0
  /-- first path of each fragment -/
  paths : List Nat := []
  qp : Option Nat := none
  /-- die cycle at which the acknowledgement window ends; the waits for a live path and for a key (R356, R372, R375) -/
  window : Nat := 0
  emptyTill : Option Nat := none
  keyTill : Option Nat := none
  /-- fragment bytes of the message counted in INFL -/
  infl : Nat := 0
  /-- miss-table tickets it waits on at its owner, the issuing die, and whether the page service has declined -/
  miss : List Nat := []
  declined : Bool := false
  /-- the owner-side cause that a response carries (R166) -/
  cause : Nat := 0
  /-- the unit that the message is part of, and how many messages it has (R368) -/
  unit : Nat := 0
  parts : Nat := 1
  /-- a channel message, tile or notice (R412) -/
  body : Option ChanWire := none
  /-- the entry at the destination that a response or notice answers -/
  ref : Nat := 0
  deriving DecidableEq, Repr

/-- A control message (R367): what it says, and the queue pair of the message that it concerns (R356). -/
structure Ctl where
  kind : Nat
  sdev : Nat
  sdie : Nat
  ddev : Nat
  ddie : Nat
  msgid : Nat := 0
  epoch : Nat := 0
  body : List Nat := []
  qp : Option Nat := none
  deriving DecidableEq, Repr

/-- A fragment on its way (R366): header fields, payload and the route left. The tag of R375 is held as whether it
verifies (DEDUCED, log entry 12; unsafe). (DEDUCED, log entry 34; unsafe.) -/
structure Frag where
  ddev : Nat
  ddie : Nat
  sdev : Nat
  sdie : Nat
  age : Nat := 0
  cls : Nat
  att : Nat := 0
  msgid : Nat
  epoch : Nat
  k : Nat
  m : Nat
  idx : Nat
  slot : Nat
  ctxtag : Nat
  kind : Nat
  lead : Nat
  fseq : Nat
  len : Nat
  addr : Word
  rank : Nat
  opw : Nat
  stamp : Nat := 0
  echo : Nat := 0
  reserved : Nat := 0
  data : List Byte
  tagOk : Bool := true
  path : Nat := 0
  /-- links left to cross, each with the physical die behind it, 255 outside the device; the first is the one that
  the fragment is on, `ownInput` for one that waits at its source -/
  route : List (Nat × Nat) := []
  /-- its queue pair where it leaves, and that on which it has come in (R360) -/
  qp : Option Nat := none
  via : Option Nat := none
  /-- die cycle from which its wait at a die counts (R378) -/
  waited : Nat := 0
  /-- the model's own, carried beside the header: the outbound entry that a response or notice answers, the bytes that
  a GET asks for, the owner-side cause of a response, the unit of R368, the requester's privilege, a channel
  message's content and a control message's; and the context of a fragment of this device -/
  ref : Nat := 0
  count : Nat := 0
  cause : Nat := 0
  unit : Nat := 0
  parts : Nat := 1
  priv : Bool := false
  body : Option ChanWire := none
  ctl : Option Ctl := none
  ctx : Option Nat := none
  deriving DecidableEq, Repr

/-- A decode slot (R374): 0 FREE, 1 GRANTED, 2 OPEN, 3 NAKSENT, 4 CLOSED. It keeps the identities (SDEV, SDIE, MSGID, EPOCH) of the
messages that it has held. -/
structure DSlot where
  st : Nat := 0
  sdev : Nat := 0
  sdie : Nat := 0
  first : Option Frag := none
  past : List (Nat × Nat × Nat × Nat) := []
  frags : Tbl (List Byte) := []
  /-- die cycle at which the decode window ends (R371) -/
  window : Nat := 0
  deriving DecidableEq, Repr

/-- A committed message that has not performed (R371): the rest of its unit is under way (R368), its access waits for
translation (R344), or an order holds it. -/
structure Commit where
  slot : Nat
  frag : Frag
  payload : List Byte
  whole : Bool := false
  miss : List Nat := []
  declined : Bool := false
  deriving DecidableEq, Repr

/-- Counts at the destination for one interval of a source process, and its flag once that has arrived: the die, the
decode slot or none for the outbound entry of a PUT.f to the issuing die, its key, and the 16 counts (R164). -/
structure FlagIv where
  sdev : Nat
  sdie : Nat
  ctx : Nat
  rank : Nat
  fseq : Nat
  counts : Tbl Nat := []
  flag : Option (Nat × Option Nat × Nat × List Nat) := none
  deriving DecidableEq, Repr

/-- A source process at the destination device: the next interval whose flag is to perform, and later intervals that
have been cancelled (R164). -/
structure FlagSrc where
  sdev : Nat
  ctx : Nat
  rank : Nat
  next : Nat := 0
  cancelled : List Nat := []
  deriving DecidableEq, Repr

/-- A GSEND packet at a Diffuser (R320). -/
structure GPacket where
  ctx : Nat
  pid : Nat
  tok : Nat
  entry : Nat
  die : Nat
  /-- the source, resolved when it is read, and what must perform before that -/
  core : Nat
  space : Nat
  src : Nat
  count : Nat
  sb : Nat
  toks : List Nat
  off : Nat
  dsp : Bool
  bar : Option Nat
  bytes : Option (List Byte) := none
  /-- the member set of its acceptance: FIRST, STRIDE, COUNT and GEN -/
  first : Nat := 0
  stride : Nat := 0
  members : Nat := 0
  gen : Nat := 0
  /-- dies that the copy has not reached, and cores, or clusters under DSP, where it has not landed -/
  dies : List Nat := []
  targets : List Nat := []
  fails : List (Nat × Nat) := []
  /-- messages to other devices' Diffusers that have not ended; for a copy that has come from one, its die and decode slots -/
  far : Nat := 0
  home : Option (Nat × List Nat) := none
  deriving DecidableEq, Repr

/-- An instruction in a tile pipe (R300): a load or a store of buffer `d`, with the registers of its scale string, or a
TMMA with its mode and the scale strings that it read at issue. -/
inductive TileWhat where
  | load (d : Nat) (sc : List Nat)
  | store (d : Nat) (sc : List Nat)
  | mul (d a b : Nat) (set : Bool) (mode : Nat) (sa sb : List Byte)
  deriving DecidableEq, Repr

/-- A place of a tile pipe. A load or store keeps its format and block code, its space, and the addresses of its rows and
of its scale bytes. -/
structure TileOp where
  pid : Nat
  ctx : Nat
  what : TileWhat
  fmt : Nat := 0
  blk : Nat := 0
  space : Nat := 0
  rows : List Nat := []
  scales : List Nat := []
  /-- what must perform before it moves its bytes -/
  sb : Nat := 0
  toks : List Nat := []
  started : Bool := false
  /-- it waits for translations: their tickets, each with the address that missed -/
  stalled : Bool := false
  miss : List (Nat × Nat) := []
  /-- the cause that ends it, and the address that met it -/
  cause : Nat := 0
  bad : Nat := 0
  /-- the number of its issue -/
  seq : Nat := 0
  deriving DecidableEq, Repr

/-- A line of the die cache (R134, R135): the slice that holds it, the HBM bytes behind it while it is dirty, and the
words that are uncorrectable in HBM behind it. -/
structure CLine where
  slice : Nat
  under : Option (List Byte) := none
  bad : List Nat := []
  deriving DecidableEq, Repr

/-- One compute die by logical number (R25). -/
structure Die where
  present : Bool := false
  /-- lost in service or failed: no longer live -/
  lost : Bool := false
  phys : Nat := 0
  /-- die cycles (R7) -/
  cycle : Nat := 0
  /-- installed resource-map record by word, and versions received but not installed (R384) -/
  map : Tbl Word := []
  newMaps : List (Tbl Word) := []
  /-- acknowledgements held for versions not yet installed: (context, version) (R384) -/
  heldAcks : List (Nat × Nat) := []
  /-- running acknowledgement windows: (context, version, die cycles left) (R188) -/
  windows : List (Nat × Nat × Nat) := []
  /-- transient cap (R390) -/
  trans : Nat := 1000
  /-- CR.DECWIN (R381) -/
  ackw : Nat := 64
  win : Nat := 1024
  /-- LK registers (R382) -/
  rate : Tbl Word := []
  late : Nat := 0
  lostCnt : Nat := 0
  tagf : Nat := 0
  nak : Nat := 0
  /-- outbound write buffer and read tracker, MSGID sequence, EPOCH, class rotors (R161, R356, R366) -/
  out : Tbl OutMsg := []
  outSeq : Nat := 0
  msgid : Nat := 0
  epoch : Nat := 0
  rotors : Tbl Nat := []
  /-- grants held by destination (device·8 + die), requests unanswered with their start (R370) -/
  grants : Tbl (List Nat) := []
  asked : Tbl Nat := []
  dslots : Tbl DSlot := []
  commits : List Commit := []
  /-- control messages that have acted, by SDEV, SDIE, MSGID and EPOCH (R367) -/
  ctlGot : List (Nat × Nat × Nat × Nat) := []
  /-- memory-side MMU (R343 to R353) -/
  tlb : List TlbEnt := []
  misses : List Miss := []
  missSeq : Nat := 0
  fbuf : Tbl FBuf := []
  fseq : Nat := 0
  /-- DROPN per context with DROP set (R345) -/
  drop : Tbl Nat := []
  invals : List Inval := []
  migrs : List Migr := []
  /-- memory-server request queues of the four servers (R252) -/
  servers : Tbl (List MsReq) := []
  /-- budget counts per context: memory-server and link bytes (R185) -/
  msUsed : Tbl Nat := []
  lkUsed : Tbl Nat := []
  /-- the die cycle at which its budget period began (R185) -/
  period : Nat := 0
  /-- frame-owner table: context + 1 of each 64 KiB frame (R341) -/
  frames : Tbl Nat := []
  /-- the lines that the die cache holds, by physical line (R134) -/
  cache : Tbl CLine := []
  deriving DecidableEq, Repr

/-- An in-package link, station or port (R380): 0 DOWN, 1 TRAINING, 2 UP, 3 LOST. -/
structure Link where
  st : Nat := 0
  fails : Nat := 0
  lanes : Nat := 0
  speed : Nat := 0
  deriving DecidableEq, Repr

/-- A queue-pair state (R361, R364). `st` is 0 RESET, 1 READY, 2 ERROR. -/
structure QPair where
  st : Nat := 0
  ctx : Nat := 0
  pdev : Nat := 0
  pqp : Nat := 0
  pchan : Nat := 0
  win : Nat := 2048
  infl : Nat := 0
  srtt : Nat := 0
  tgt : Nat := 0
  back : Nat := 0
  host : Bool := false
  lastCut : Int := 0
  resident : Bool := false
  used : Nat := 0
  deriving DecidableEq, Repr

/-- One I/O die (R26). -/
structure IoDie where
  present : Bool := false
  lost : Bool := false
  cycle : Nat := 0
  /-- transient cap (R390) -/
  trans : Nat := 1000
  /-- its own copy of the record, and versions received but not installed (R383, R384) -/
  map : Tbl Word := []
  newMaps : List (Tbl Word) := []
  qps : Tbl QPair := []
  /-- miss buffer: fragments held for a queue pair (R363) -/
  held : List Frag := []
  lostCnt : Nat := 0
  tagf : Nat := 0
  deriving DecidableEq, Repr

/-- Contents of a piece of memory in a context image (R182), by offset: kind 0 the LOCAL window of a core, 1 the CLUSTER
window of a cluster, 2 a frame of HBM by 2^21·die + frame, 3 the table area of an address die, 4 a die-scratch slice by
16·die + slice. -/
structure Region where
  kind : Nat
  unit : Nat
  cells : Memory
  empty : NSet
  ecc : NSet
  waits : Tbl (List Waiter) := []
  deriving DecidableEq, Repr

/-- What a save writes (R182, R204): the context's objects, its processes, the memory that it can address, its barriers
by core and index; the source's live dies, firmware and arithmetic revisions, and its device. -/
structure Image where
  ctx : Ctx
  /-- with the numbers of their descriptors, and a bound on every number that the image uses -/
  procs : List (Nat × Proc)
  seq : Nat
  regions : List Region
  bars : List (Nat × Nat × Barrier)
  dies : List Nat
  fwrev : Nat
  mrev : Nat
  dev : Nat := 0
  /-- FORKRs that hold children (R213), fault records not yet sent (R230) and task records (R216) by core, and the state of
  ordered flags at this device (R164) -/
  forks : List Fork := []
  records : List (Nat × FRec × Option Nat) := []
  tasks : List (Nat × TaskRec) := []
  flags : List FlagIv := []
  flagSrcs : List FlagSrc := []
  deriving DecidableEq, Repr

/-- What moves next: the core named, a hardware event of the opcode table, the passing of time, a capacity
replacement, or the world beyond the ports. -/
inductive Input where
  /-- the core issues -/
  | issue (core : Nat)
  /-- a hardware event -/
  | event (i : Instr)
  /-- ticks and core cycles of a core pass -/
  | coreTime (core ticks cycles : Nat)
  /-- die cycles of a compute die, or of I/O die 8 or 9, pass -/
  | dieTime (die cycles : Nat)
  | ioTime (io cycles : Nat)
  /-- an L1 line leaves (core, line), a die-cache line is written back, a TLB entry leaves -/
  | l1Evict (core line : Nat)
  | lineEvict (die line : Nat)
  | tlbEvict (die index : Nat)
  /-- a word of the chunk that a cluster's engine is writing lands before the others (R168) -/
  | engineWord (cluster i : Nat)
  /-- a word of a GET.blk's data lands before the others (R171), by the response -/
  | blockWord (response i : Nat)
  /-- the same for a GET.blk whose owner is the issuing die, by its entry of the read tracker -/
  | ownBlockWord (die entry i : Nat)
  /-- the unit that a parked process asks answers (R205, R265, R266, R352) -/
  | answer (pid : Nat)
  /-- a memory word becomes uncorrectable, a soft error on a die is corrected (R135), a fragment is lost or altered on
  its way, one arrives from another device -/
  | upset (pa : Nat)
  | softErr (die : Nat)
  | wireDrop (index : Nat)
  | wireTamper (index : Nat)
  | wireIn (f : Frag)
  /-- another module of the context holds a rank, or no longer does (R411): its device and core -/
  | rankAt (ctx rank : Nat) (place : Option (Nat × Nat))
  /-- such a rank begins to move; another module closes a receive end (context, channel, rank); it tells how many receives
  wait or places are free at an end that it holds (R411) -/
  | rankMoves (ctx rank : Nat)
  | peerClose (ctx chan rank : Nat)
  | endReady (ctx chan n : Nat)
  /-- the module that holds a receive end tells its status word (R265) -/
  | endStat (ctx chan : Nat) (word : Word)
  /-- the host writes a word of its own memory, or puts the sections of a context image there (R204); it reads or writes
  eight bytes of BAR 0 (R197); a post and a take of one queue, or a take and a steal of one deque, arrive in one cycle (R196) -/
  | hostWrite (addr : Nat) (value : Word)
  | hostImage (addr : Nat) (m : Image)
  | barRead (addr : Nat)
  | barWrite (addr : Nat) (value : Word)
  | postAndTake (queue : Nat) (words : List Word)
  | takeAndSteal (core thief : Nat)
  /-- a host port is lost in service (R27) -/
  | portLost (port : Nat)
  /-- a link between other devices loses the deadlock token -/
  | tokenDrop (ctx : Nat)
  /-- the host sends a configuration request (R388); the module exceeds its power limit (R390) -/
  | configRequest
  | modulePower
  deriving DecidableEq, Repr

/-- Why a step stops. No step of this model stops with a fault: a fault of the manual is delivered to the
process (R229) and is a next state. -/
inductive Fault where
  /-- raised by no meaning; safe -/
  | none_
  deriving DecidableEq, Repr

/-- Why a step is refused. -/
inductive Refusal where
  /-- an instruction that has no meaning yet; safe, since no statement about a next state follows from it -/
  | notModelled (mnemonic : String)
  deriving DecidableEq, Repr

/-- The state of the machine. -/
structure State where
  /-- the model's own fields: which agents move next, the core that issues when none is named, the process whose
  instruction is being executed, whether its instruction was not ready, and the counter of free values (DESIGN CHOICE, log
  entries 1 and 9; safe) -/
  agenda : List Input := []
  focus : Nat := 0
  cur : Nat := 0
  stalled : Bool := false
  fresh : Nat := 0
  /-- numbers for descriptors, tokens and tickets -/
  seq : Nat := 1
  procs : Tbl Proc := []
  cores : Tbl Core := []
  clusters : Tbl Cluster := []
  dies : Tbl Die := []
  ios : Tbl IoDie := []
  ctxs : Tbl Ctx := []
  queues : Tbl HQueue := []
  mem : Memory := []
  /-- words whose full-empty bit is clear, uncorrectable words, waiters of words (R135 to R137) -/
  empty : NSet := []
  ecc : NSet := []
  waiters : Tbl (List Waiter) := []
  /-- tile pipes by 2·core, and 2·core + 1 for the multiply pipe (R300) -/
  pipes : Tbl (List TileOp) := []
  tiles : List Tile := []
  /-- channel messages that have reached their receive end's die, and notices that have reached their sender's -/
  chanIn : List ChanWire := []
  notices : List ChanWire := []
  /-- closes told to the other modules of a context: (context, channel, rank) (R411) -/
  closesOut : List (Nat × Nat × Nat) := []
  gpackets : List GPacket := []
  /-- group-barrier arrivals and completions on their way: (context, entry, barrier, core), a core of another device by
  `farCore` -/
  gArrive : List (Nat × Nat × Nat × Nat) := []
  gDone : List (Nat × Nat × Nat × Nat) := []
  gContrib : List (Nat × Nat × Nat × RedKey × Contrib) := []
  /-- fragments and control messages under way -/
  wire : List Frag := []
  ctl : List Ctl := []
  /-- the input that last won each output of a die, by 64·(physical die) + link (R378) -/
  turns : Tbl Nat := []
  /-- committed GET and RAMO responses, each with its die (R171, R173) -/
  responses : List (Nat × Commit) := []
  /-- watchdog kicks (die, context) and acknowledgements (die, context, version) under way (R192, R193) -/
  kicks : List (Nat × Nat) := []
  rmacks : List (Nat × Nat × Nat) := []
  flags : List FlagIv := []
  flagSrcs : List FlagSrc := []
  forks : List Fork := []
  links : Tbl Link := []
  /-- peers with an open session; epochs used per 8·peer + die (R375, R377) -/
  sessions : NSet := []
  epochs : Tbl (List Nat) := []
  /-- device identifier, current resource-map record, host port, host function (R383, R388) -/
  devId : Nat := 0
  map : Tbl Word := []
  hostPort : Nat := 0
  funcUp : Bool := false
  /-- versions whose event records no die has sent: number, change mask and lowest changed word (R385) -/
  versions : List (Nat × Nat × Nat) := []
  /-- the EPOCH that each physical die had at its last reset or after (R366) -/
  lastEpoch : Tbl Nat := []
  /-- CR.MREV (R54) -/
  mrev : Word := 1
  /-- what the host and the management cores have received: memory writes, MSI-X vectors, the last CXL.mem completion
  (bytes with their poison mark, none for an Unsupported Request), the last word read of BAR 0, whether the last
  configuration request was told to retry (R388), records (DESIGN CHOICE, log
  entry 10; unsafe) -/
  hostMem : Tbl Word := []
  msix : List Nat := []
  cxlReply : Option (List Byte × Bool) := none
  barReply : Word := 0
  cfgRetry : Option Bool := none
  toMgmt : List (Nat × FRec) := []
  images : Tbl Image := []
  deriving DecidableEq, Repr

/-- The machine right after module reset, before the boot of R388 has taken its first step: no die is numbered,
nothing is live, memory lists nothing. (DESIGN CHOICE, log entry 5; unsafe.) -/
def State.reset : State := {}

end Sys2Proof.Machine
end

