-- ==== Sys2Proof/Machine/Ops.lean ====
section
/-! DEFINITION. The named operations over the state: tables of agents, memory and full bits, registers and full
bits, scheduling transitions, register-window slides, and taking a fault and returning from one. -/

namespace Sys2Proof.Machine

/-! ### Agents by number -/

/-- A core; position n of a ring holds physical slot n where nothing has put it elsewhere (R18). -/
def State.core (s : State) (n : Nat) : Core := tblGetD s.cores n { slot := n % 16 }
def State.modCore (s : State) (n : Nat) (f : Core → Core) : State := { s with cores := tblSet s.cores n (f (s.core n)) }
def State.cluster (s : State) (n : Nat) : Cluster := tblGetD s.clusters n {}
def State.modCluster (s : State) (n : Nat) (f : Cluster → Cluster) : State :=
  { s with clusters := tblSet s.clusters n (f (s.cluster n)) }
def State.die (s : State) (n : Nat) : Die := tblGetD s.dies n {}
def State.modDie (s : State) (n : Nat) (f : Die → Die) : State := { s with dies := tblSet s.dies n (f (s.die n)) }
def State.io (s : State) (n : Nat) : IoDie := tblGetD s.ios n {}
def State.modIo (s : State) (n : Nat) (f : IoDie → IoDie) : State := { s with ios := tblSet s.ios n (f (s.io n)) }
def State.ctx (s : State) (n : Nat) : Ctx := tblGetD s.ctxs n {}
def State.modCtx (s : State) (n : Nat) (f : Ctx → Ctx) : State := { s with ctxs := tblSet s.ctxs n (f (s.ctx n)) }
def State.queue (s : State) (n : Nat) : HQueue := tblGetD s.queues n {}
def State.modQueue (s : State) (n : Nat) (f : HQueue → HQueue) : State :=
  { s with queues := tblSet s.queues n (f (s.queue n)) }
def State.link (s : State) (n : Nat) : Link := tblGetD s.links n {}
def State.proc (s : State) (pid : Nat) : Option Proc := tblGet s.procs pid
def State.modProc (s : State) (pid : Nat) (f : Proc → Proc) : State := { s with procs := tblMod s.procs pid f }

/-- The number of a core (R18) in its parts: logical die, cluster of the die, position; and the cluster's number in
the module. -/
def coreDie (n : Nat) : Nat := n / 256
def coreClu (n : Nat) : Nat := n / 16 % 16
def corePos (n : Nat) : Nat := n % 16
def coreCluster (n : Nat) : Nat := n / 16

/-- Quadrant of a cluster (R16). -/
def quadrant (clu : Nat) : Nat := 2 * (clu / 8 % 2) + clu / 2 % 2

/-- A new number for a descriptor, token or ticket. -/
def State.ticket (s : State) : Nat × State := (s.seq, { s with seq := s.seq + 1 })

/-- A die is live: numbered, and not lost (R25). -/
def State.dieLive (s : State) (d : Nat) : Bool := d < 8 && (s.die d).present && !(s.die d).lost

/-- The target logical die that the context die table gives an address die number (R183). -/
def Ctx.mapDie (c : Ctx) (d : Nat) : Nat := c.dieTable.getD d 255

/-- The lowest address die number that the context reads as the logical die `d`: the one that code is fetched
through on `d` (R207, R183). -/
def Ctx.imageDie (c : Ctx) (d : Nat) : Nat :=
  ((List.range 8).find? fun i => c.mapDie i == d).getD d

/-! ### Memory -/

/-- Bytes of HBM, die memory, scratchpad and TCM in one physical numbering (R21). -/
def hbmPA (die off : Nat) : Nat := die * 2 ^ 37 + off
def dieMemPA (die off : Nat) : Nat := 2 ^ 40 + die * 2 ^ 26 + off
def padPA (cluster off : Nat) : Nat := 2 ^ 41 + cluster * 2 ^ 22 + off
def tcmPA (cluster slot off : Nat) : Nat := 2 ^ 42 + (cluster * 17 + slot) * 2 ^ 19 + off

/-- Offset `o` of a context's LOCAL window on a core (R127). -/
def State.localPA (s : State) (core : Nat) (ctx : Nat) (o : Nat) : Nat :=
  tcmPA (coreCluster core) (s.core core).slot ((s.ctx ctx).tbase + o)

/-- Offset `o` of a context's CLUSTER window on a core's cluster (R127). -/
def State.padAddr (s : State) (core : Nat) (ctx : Nat) (o : Nat) : Nat :=
  padPA (coreCluster core) ((s.ctx ctx).sbase + o)

/-- The numbers of the aligned units of `size` bytes that hold a byte of [a, a + n). -/
def unitsOf (size a n : Nat) : List Nat :=
  if n = 0 then [] else (List.range ((a + n - 1) / size - a / size + 1)).map (a / size + ·)

/-- The 8-byte words that hold a byte of [a, a + n). -/
def wordsOf (a n : Nat) : List Nat := unitsOf 8 a n

/-- An uncorrectable word lies in the range (R135): the address of the first. (DEDUCED, log entry 25; unsafe.) -/
def State.badWord (s : State) (a n : Nat) : Option Nat := ((wordsOf a n).find? (nsHas s.ecc)).map (8 * ·)

/-- Bytes of memory. -/
def State.read (s : State) (a n : Nat) : List Byte := memRead s.mem a n

/-- A little-endian number in memory (R6). -/
def State.readNat (s : State) (a n : Nat) : Nat := bytesNat (s.read a n)

/-- The slices of a die assigned to the die cache (R23, R383). -/
def State.sldc (s : State) (d : Nat) : BitVec 16 := (tblGetD (s.die d).map (32 + 32 * (s.die d).phys + 18) 0).extractLsb' 0 16

/-- The words of a 64-byte line by number, and those that are uncorrectable. -/
def lineWords (l : Nat) : List Nat := (List.range 8).map (8 * l + ·)
def State.badLine (s : State) (l : Nat) : List Nat := (lineWords l).filter (nsHas s.ecc)

/-- The die of a line of HBM, and whether its die cache holds it (R134). -/
def lineDie (l : Nat) : Nat := 64 * l / 2 ^ 37
def State.cacheLine (s : State) (l : Nat) : Option CLine := tblGet (s.die (lineDie l)).cache l

/-- A line leaves the die cache (R134): a dirty one is written back as it stands, and of a clean one HBM's own words
remain (R135). -/
def State.cacheDrop (s : State) (die l : Nat) : State :=
  match tblGet (s.die die).cache l with
  | none => s
  | some c =>
    let s := s.modDie die fun d => { d with cache := tblErase d.cache l }
    if c.under.isSome then s else { s with ecc := c.bad.foldl nsAdd ((lineWords l).foldl nsDel s.ecc) }

/-- A line enters its slice of the die cache (R134): sixteen ways, of which a free value picks the one that leaves a full
set; not where a word of the line is uncorrectable (R135). (DESIGN CHOICE, log entry 7; unsafe.) -/
def State.cacheFill (s : State) (die slice l : Nat) : State :=
  let t := (s.die die).cache
  if (tblGet t l).isSome || !(s.badLine l).isEmpty then s
  else
    let ways := (t.filter fun c => c.2.slice == slice && c.1 % 4096 == l % 4096).map (·.1)
    let s := if ways.length < 16 then s
      else { s with fresh := s.fresh + 1 }.cacheDrop die
        ((ways[(Config.freeWord s.fresh).toNat % ways.length]?).getD 0)
    s.modDie die fun d => { d with cache := tblSet d.cache l { slice := slice } }

/-- Before a store to a line of HBM: the line enters the die cache where its home slice is known, and the HBM bytes
behind a line that the cache holds are kept (R134). -/
def State.dirtyLine (s : State) (l : Nat) (home : Option Nat) : State :=
  let s := match home with
    | some k => s.cacheFill (lineDie l) k l
    | none => s
  match s.cacheLine l with
  | some { under := none, .. } =>
    s.modDie (lineDie l) fun d => { d with cache := tblMod d.cache l fun c => { c with under := some (s.read (64 * l) 64) } }
  | _ => s

/-- Stores bytes: words written whole become correctable again (R135). `home` is the slice of the die cache that takes
them, where one does. -/
def State.write (s : State) (a : Nat) (bs : List Byte) (home : Option Nat := none) : State :=
  let s := if a < 2 ^ 40 then (unitsOf 64 a bs.length).foldl (fun s l => s.dirtyLine l home) s else s
  let good := (wordsOf a bs.length).filter fun w => a ≤ 8 * w && 8 * w + 8 ≤ a + bs.length
  { s with mem := memWrite s.mem a bs, ecc := good.foldl nsDel s.ecc }

/-- A store at its ordering point drops the copies that L1s of the die hold, but for one core's (R131). -/
def State.dropCopies (s : State) (die : Nat) (except : Option Nat) (lines : List Nat) : State :=
  { s with cores := s.cores.map fun c =>
      if c.1 / 256 = die ∧ some c.1 ≠ except then (c.1, { c.2 with l1 := lines.foldl nsDel c.2.l1 }) else c }

/-- The full-empty bit of a word, by word number (R136). -/
def State.wordFull (s : State) (w : Nat) : Bool := !nsHas s.empty w
def State.setFull (s : State) (w : Nat) : State := { s with empty := nsDel s.empty w }
def State.setEmpty (s : State) (w : Nat) : State := { s with empty := nsAdd s.empty w }

/-! ### Registers -/

/-- The register that an operand name of R61 names in a process's window, where it carries a full bit. -/
def Proc.name (p : Proc) (f : Nat) : Option RName :=
  if f < 32 then some (.w (24 * p.level + f)) else if f < 40 then some (.g (f - 32))
  else if f < 56 then some (.a (f - 40)) else none

/-- An address register (R91). -/
def Proc.addr (p : Proc) (i : Nat) : AReg := tblGetD p.areg i {}

/-- A predicate; p0 reads as true. -/
def Proc.predV (p : Proc) (i : Nat) : Bool := if i = 0 then true else tblGetD p.pred i false

/-- The value of a register. -/
def Proc.reg (p : Proc) : RName → Word
  | .w n => tblGetD p.win n 0
  | .g i => tblGetD p.glob i 0
  | .a i => (p.addr i).ptr
  | .p i => if p.predV i then 1 else 0

/-- A full bit; that of p0 reads as set. -/
def Proc.full (p : Proc) (r : RName) : Bool := r == .p 0 || !p.empties.contains r

/-- The value of a scalar operand (R61). -/
def Proc.scalar (p : Proc) (f : Nat) : Word :=
  if f = 57 then p.pc else match p.name f with
    | some r => p.reg r
    | none => 0

/-- Sets the value of a register, leaving full bits. A write to p0 is discarded. -/
def Proc.put (p : Proc) (r : RName) (v : Word) : Proc :=
  match r with
  | .w n => { p with win := tblSet p.win n v }
  | .g i => { p with glob := tblSet p.glob i v }
  | .a i => { p with areg := tblSet p.areg i { p.addr i with ptr := v } }
  | .p i => if i = 0 then p else { p with pred := tblSet p.pred i (v != 0) }

def Proc.setFull (p : Proc) (r : RName) : Proc := { p with empties := p.empties.filter (· != r) }
def Proc.setEmpty (p : Proc) (r : RName) : Proc :=
  if r = .p 0 || p.empties.contains r then p else { p with empties := r :: p.empties }

/-- A register write by an instruction leaves the full bit set (R64). -/
def Proc.wr (p : Proc) (r : RName) (v : Word) : Proc := (p.put r v).setFull r

/-- A write to a scalar destination operand: zero discards it (R61). -/
def Proc.wrOp (p : Proc) (f : Nat) (v : Word) : Proc :=
  match p.name f with
  | some r => p.wr r v
  | none => p

/-- A write of a whole address register, operand name 40 to 55. -/
def Proc.wrAddr (p : Proc) (f : Nat) (v : AReg) : Proc :=
  ({ p with areg := tblSet p.areg (f - 40) v }).setFull (.a (f - 40))

/-- Start of an asynchronous result (R90): the full bit clears and the register is pending. -/
def Proc.pend (p : Proc) (r : RName) : Proc :=
  if r = .p 0 then p
  else { p.setEmpty r with pending := if p.pending.contains r then p.pending else r :: p.pending }

/-- The result of an asynchronous operation lands (R90). -/
def Proc.land (p : Proc) (r : RName) (v : Word) : Proc :=
  let p := p.wr r v
  { p with pending := p.pending.filter (· != r) }

/-- CR.FPC.PAYL and the other control registers by number (R92) are read in Control. Here, the fields of CR.THDL. -/
def Proc.thdlEn (p : Proc) : Bool := p.thdl.getLsbD 0
def Proc.thdlAct (p : Proc) : Bool := p.thdl.getLsbD 1
def Proc.setAct (p : Proc) (b : Bool) : Proc :=
  { p with thdl := if b then p.thdl ||| 2 else p.thdl &&& ~~~2 }

/-- CR.SPILL.BASE and LIMIT (R88). -/
def Proc.spillBase (p : Proc) : Nat := (p.spill.extractLsb' 0 20).toNat
def Proc.spillLimit (p : Proc) : Nat := (p.spill.extractLsb' 32 20).toNat

/-! ### Process states and queues (R218, R223) -/

def PState.isParked : PState → Bool
  | .parked _ _ _ => true
  | _ => false

/-- The process gives up its slot, where it holds one. -/
def State.leaveSlot (s : State) (pid : Nat) (core : Nat) : State :=
  s.modCore core fun c => { c with slots := c.slots.map fun x => if x = some pid then none else x }

/-- The process leaves its core's ready queues. -/
def State.unready (s : State) (pid : Nat) (core : Nat) : State :=
  s.modCore core fun c => { c with ready := c.ready.map fun q => (q.1, q.2.filter (· != pid)) }

/-- The process joins the tail, or the head, of the ready queue of its priority. -/
def State.enqueue (s : State) (pid : Nat) (p : Proc) (atHead : Bool) : State :=
  s.modCore p.core fun c =>
    let q := tblGetD c.ready p.prio []
    { c with ready := tblSet c.ready p.prio (if atHead then pid :: q else q ++ [pid]) }

/-- The context is suspended, or a debug halt holds on the process (R218). -/
def State.heldBack (s : State) (p : Proc) : Bool := (s.ctx p.ctx).st == .suspended || p.halt.isSome

/-- The process enters a state; the order of entering is kept (R87). -/
def State.enter (s : State) (pid : Nat) (st : PState) : State :=
  { s with seq := s.seq + 1 }.modProc pid fun p => { p with st := st, stateSeq := s.seq }

/-- The process becomes READY and joins the tail of its queue, its quantum count at the start (R223), or SUSPENDED where
a hold remains (R181, R218, R231); becoming READY sets the die's dirty bit for the context (R257). -/
def State.makeReady (s : State) (pid : Nat) : State :=
  match s.proc pid with
  | none => s
  | some p =>
    if s.heldBack p then if p.st == .suspended then s else s.enter pid .suspended
    else
      let s := ((s.enter pid .ready).modProc pid fun q => { q with quantum := 0 }).enqueue pid p false
      s.modCtx p.ctx fun c => { c with dirty := nsAdd c.dirty (coreDie p.core) }

/-- Wakes a parked process. -/
def State.wake (s : State) (pid : Nat) : State :=
  match s.proc pid with
  | some p => if p.st.isParked then s.makeReady pid else s
  | none => s

/-- Wakes a parked process with a fault that its instruction raises when it issues again (R218). -/
def State.wakeWith (s : State) (pid : Nat) (f : FaultInfo) : State :=
  (s.modProc pid fun p => { p with wakeFault := some f }).wake pid

/-- Every entry of a core's store buffer below a sequence number has performed (R132, R167). -/
def State.sbDone (s : State) (core mark : Nat) : Bool := (s.core core).sb.all fun e => mark ≤ e.seq

/-- Operations of a process have ended. -/
def Proc.opsDone (p : Proc) (toks : List Nat) : Bool := toks.all fun t => (tblGet p.ops t).isNone

/-- A PUT or RAMO entry of the process remains in the outbound write buffer (R233). -/
def State.hasOut (s : State) (pid : Nat) : Bool :=
  s.dies.any fun d => d.2.out.any fun m => m.2.pid == pid && (m.2.kind == 0 || m.2.kind == 1 || m.2.kind == 4)

/-- The condition of STOP's wait (R233). -/
def State.drained (s : State) (pid : Nat) (p : Proc) : Bool :=
  p.pending.isEmpty && p.cLoad == 0 && p.cStore == 0 && p.cCopy == 0 && p.cTile == 0 && !s.hasOut pid

/-- A counter is at or below its limit (R176). -/
def atMost (n : Nat) : Option Nat → Bool
  | none => true
  | some l => n ≤ l

/-- Every live compute die has recorded the acknowledgement of a version (R192). -/
def State.acked (s : State) (ctx version : Nat) : Bool :=
  (List.range 8).all fun d => !s.dieLive d || version ≤ tblGetD (s.ctx ctx).ack d 0

/-- The channel index of a handle (R237). -/
def hIndex (h : Word) : Nat := (h.extractLsb' 0 20).toNat

/-- The process that holds a rank of a context (R209, R218): a STOPPED process has released its own. -/
def State.rankHolder (s : State) (ctx rank : Nat) : Option Nat :=
  (s.procs.find? fun e => e.2.ctx == ctx && e.2.rank == rank && e.2.st != .stopped).map (·.1)

def State.chan (s : State) (ctx i : Nat) : Chan := tblGetD (s.ctx ctx).chans i {}
def State.chanEnd (s : State) (ctx i : Nat) : ChanEnd := tblGetD (s.ctx ctx).ends i {}
def State.modEnd (s : State) (ctx i : Nat) (f : ChanEnd → ChanEnd) : State :=
  s.modCtx ctx fun c => { c with ends := tblSet c.ends i (f (tblGetD c.ends i {})) }

/-- The live compute dies in increasing order. -/
def State.liveDies (s : State) : List Nat := (List.range 8).filter s.dieLive

/-- The die on which the receive end of kind 001 or 010 lies (R241). -/
def State.endDie (s : State) (ctx i : Nat) : Nat :=
  match (s.rankHolder ctx ((s.chan ctx i).target % 2 ^ 32)).bind s.proc with
  | some p => coreDie p.core
  | none => let ds := s.liveDies; ds.getD (i % ds.length) 0

/-- A core of another device as one number; those below 2,048 are the device's own. -/
def farCore (dev core : Nat) : Nat := 2048 * (dev + 1) + core

/-- Where the receive end of kind 001 or 010 lies: the device and die (R241, R411). -/
def State.endPlace (s : State) (ctx i : Nat) : Nat × Nat :=
  let r := (s.chan ctx i).target % 2 ^ 32
  match s.rankHolder ctx r, tblGet (s.ctx ctx).farRanks r with
  | none, some p => (p / 2048 - 1, p % 2048 / 256)
  | _, _ => (s.devId, s.endDie ctx i)

/-- A queue pair by the TARGET of kind 101: the I/O die and the number (R240). -/
def State.qpair (s : State) (t : Nat) : QPair := tblGetD (s.io (8 + t / 2 ^ 14 % 2)).qps (t % 2 ^ 14) {}

/-- Where the messages of a channel go (R240): the device and die, and the queue pair that kind 101 names. -/
def State.sendGoal (s : State) (ctx i : Nat) : (Nat × Nat) × Option Nat :=
  let e := s.chan ctx i
  if e.kind = 5 then (((s.qpair e.target).pdev, 0), some e.target)
  else if e.kind = 3 then ((s.devId, e.target / 256 % 8), none)
  else (s.endPlace ctx i, none)

/-- The receive end lies beyond the die. -/
def State.isFar (s : State) (ctx i die : Nat) : Bool :=
  let g := s.sendGoal ctx i
  g.2.isSome || g.1 != (s.devId, die)

/-- A CHB waits for the transfers of a channel to end (R251). -/
def State.rebinding (s : State) (ctx i : Nat) : Bool :=
  (tblGetD (s.ctx ctx).ends i {}).rebind.any fun pid => (s.proc pid).any fun p => p.waitsOn.any fun w => w.2 == 0 && hIndex w.1 == i

/-- No message remains at a receive end (R248). -/
def ChanEnd.spent (e : ChanEnd) : Bool := e.sends.isEmpty && e.held.isEmpty && e.matched.isEmpty

/-- A guard of an alt is ready (R254). -/
def State.guardReady (s : State) (p : Proc) (g : Guard) : Bool :=
  let c := s.ctx p.ctx
  match g with
  | .recv h =>
    let e := tblGetD c.ends (hIndex h) {}
    let ch := tblGetD c.chans (hIndex h) {}
    (if ch.depth = 0 then !e.sends.isEmpty else match e.held with
      | m :: _ => m.closed && m.rsv.isNone
      | [] => false) || (ch.closed && e.spent)
  | .send h =>
    let e := tblGetD c.ends (hIndex h) {}
    let ch := tblGetD c.chans (hIndex h) {}
    (if (s.endPlace p.ctx (hIndex h)).1 != s.devId then e.far != 0
      else if ch.depth = 0 then e.rcvs.any fun r => r.rsv.isNone else decide (e.held.length < ch.depth)) || ch.closed
  | .barrier b g => (tblGetD (s.core p.core).bars b {}).gen != g
  | .timeout t => (p.altT0.getD 0) + t ≤ (s.core p.core).tick
  | .pred i => p.predV i && p.full (.p i)

/-- The entry of the order log that replay takes for the process's next event (R191). -/
def State.replayEntry (s : State) (p : Proc) : Option LogEntry :=
  (s.ctx p.ctx).log.find? fun l => l.rank == p.rank && l.ord == p.ordinal

/-- A parked ALTW may go on: a guard is ready (R255), or in replay the recorded one is, or there is none (R191). -/
def State.altReady (s : State) (p : Proc) : Bool :=
  let gs := p.alt.getD []
  if (s.ctx p.ctx).dmode = 2 then
    match s.replayEntry p with
    | some l => l.kind == 1 || (match gs[l.guard]? with
      | some g => s.guardReady p g
      | none => true)
    | none => true
  else gs.any (s.guardReady p)

/-- The wait of a parked process has ended. Waits that an event of their own ends are never done here. -/
def State.waitDone (s : State) (pid : Nat) (p : Proc) : Wait → Bool
  | .full rs => rs.all p.full
  | .landed rs => rs.all fun r => !p.pending.contains r
  | .tick t => t ≤ (s.core p.core).tick
  | .counters ld st cp ti => atMost p.cLoad ld && atMost p.cStore st && atMost p.cCopy cp && atMost p.cTile ti
  | .ops toks sb => p.opsDone toks && s.sbDone p.core sb
  | .stores sb => s.sbDone p.core sb
  | .engine c => (s.cluster c).engine.length < 64
  | .rmack v => s.acked p.ctx v
  | .generation b g => (tblGetD (s.core p.core).bars b {}).gen != g
  | .drained => s.drained pid p
  | .replay va seq => tblGetD (s.ctx p.ctx).logCount (va / 8) 0 == seq
  | .groupDrain e => (tblGetD (s.ctx p.ctx).groups e {}).state == 2
  | .miss d ts => ts.all fun t => (s.die d).misses.all fun m => m.ticket != t.1
  | .alt => s.altReady p
  | .children => true
  | _ => false

/-- Wakes the process if its wait has ended. -/
def State.recheck (s : State) (pid : Nat) : State :=
  match s.proc pid with
  | some p =>
    match p.st with
    | .parked _ w _ => if s.waitDone pid p w then s.wake pid else s
    | _ => s
  | none => s

/-- Wakes every process whose wait has ended, in order of descriptor. -/
def State.recheckAll (s : State) : State := (s.procs.map (·.1)).foldl State.recheck s

/-- The process parks (R11, R219). -/
def State.park (s : State) (pid : Nat) (r : Reason) (w : Wait) : State :=
  match s.proc pid with
  | none => s
  | some p => (s.leaveSlot pid p.core).enter pid (.parked r w (s.core p.core).cycle)

/-- A result lands in a register of a process, which may wake it (R90). -/
def State.landReg (s : State) (pid : Nat) (r : Option RName) (v : Word) : State :=
  match r with
  | none => s
  | some r => (s.modProc pid fun p => p.land r v).recheck pid

/-- A delayed fault is recorded (R166): at most sixteen are held, and of later ones the first. One of a process whose position has
no core is discarded (R387). -/
def State.recordDelayed (s : State) (pid : Nat) (f : FaultInfo) : State :=
  s.modProc pid fun p =>
    if !(s.core p.core).live then p
    else if p.delayed.length < 16 then { p with delayed := p.delayed ++ [f] }
    else { p with overflow := p.overflow.or (some f) }

/-! ### Waits at words (R137) -/

/-- A process that waited at a word completes its instruction and becomes READY at the next. -/
def State.served (s : State) (w : Waiter) (v : Word) : State :=
  (s.modProc w.pid fun p =>
    let p := w.marks.foldl Proc.setEmpty p
    let p := match w.dest with
      | some r => p.wr r v
      | none => p
    { p with pc := w.next, sbMark := none, phase := 0 }).wake w.pid

/-- The first waiter with a property, and the others in order. -/
def pickFirst {α : Type} (f : α → Bool) : List α → Option (α × List α)
  | [] => none
  | a :: t =>
    if f a then some (a, t)
    else match pickFirst f t with
      | some (b, r) => some (b, a :: r)
      | none => none

def WordOp.isLoad : WordOp → Bool
  | .lds _ => true
  | .stfe _ => false

/-- Copies that L1s hold of the line of a word leave them before a waiting store performs there (R131). -/
def State.dropHeld (s : State) (x : Waiter) (w : Nat) : State :=
  if 8 * w < 2 ^ 41 then
    s.dropCopies (if 8 * w < 2 ^ 40 then 8 * w / 2 ^ 37 else (8 * w - 2 ^ 40) / 2 ^ 26) ((s.proc x.pid).map (·.core)) [w / 8]
  else s

/-- Serves the operations that wait at a word, after its full bit or its waiters have changed (R137). A load about
to be served at an uncorrectable word takes fault 24 instead. -/
def State.serve (s : State) (w : Nat) : Nat → State
  | 0 => s
  | fuel + 1 =>
    let ws := tblGetD s.waiters w []
    let put (s : State) (r : List Waiter) : State :=
      { s with waiters := if r.isEmpty then tblErase s.waiters w else tblSet s.waiters w r }
    if s.wordFull w then
      match pickFirst (fun x => x.op.isLoad) ws with
      | none => s
      | some (x, r) =>
        let s := put s r
        if nsHas s.ecc w then
          (s.wakeWith x.pid { cause := 24, faddr := x.ea }).serve w fuel
        else
          let s := s.served x (BitVec.ofNat 64 (s.readNat (8 * w) 8))
          match x.op with
          | .lds true => (s.setEmpty w).serve w fuel
          | _ => s.serve w fuel
    else
      match pickFirst (fun x => !x.op.isLoad) ws with
      | none => s
      | some (x, r) =>
        match x.op with
        | .stfe v => (((((put s r).dropHeld x w).write (8 * w) (natBytes 8 v.toNat) x.home).setFull w).served x 0).serve w fuel
        | .lds _ => s

/-- A full-empty bit takes a value, and waiting operations are served (R136, R137). -/
def State.setWord (s : State) (w : Nat) (full : Bool) : State :=
  let s := if full then s.setFull w else s.setEmpty w
  s.serve w (2 * (tblGetD s.waiters w []).length + 1)

/-! ### Slides (R86, R87) -/

/-- What a slide comes to. -/
inductive Slide where
  | done (s : State)
  | fault (f : FaultInfo)
  | wait (rs : List RName)
  | stall

/-- Register-stack entries that the resident processes of a core hold (R87). -/
def State.stackUsed (s : State) (core : Nat) : Nat :=
  (s.procs.map fun e => if e.2.core == core && e.2.resident then 24 * e.2.res + 8 else 0).sum

/-- The window places of frame `j`. -/
def framePlaces (j : Nat) : List Nat := (List.range 24).map (24 * j + ·)

/-- The oldest resident frame (R85). (DEDUCED, log entry 59; unsafe.) -/
def Proc.oldest (p : Proc) : Nat := p.level + 1 - p.res

/-- Frame `j` of a process is stored at its spill slot with its full bits (R86). The values leave the register
stack. -/
def State.spillFrame (s : State) (pid j : Nat) : State :=
  match s.proc pid with
  | none => s
  | some p =>
    let pa := s.localPA p.core p.ctx (p.spillBase + 192 * j)
    let s := (framePlaces j).foldl (fun s n =>
      let a := pa + 8 * (n - 24 * j)
      let s := s.write a (natBytes 8 (p.reg (.w n)).toNat)
      s.setWord (a / 8) (p.full (.w n))) s
    s.modProc pid fun p =>
      { p with res := p.res - 1, win := (framePlaces j).foldl tblErase p.win,
               empties := p.empties.filter fun r => !(framePlaces j).any fun n => r == .w n }

/-- The spill slot of frame `j` passes the limit (R86). -/
def Proc.spillPast (p : Proc) (j : Nat) : Bool := p.spillLimit < p.spillBase + 192 * (j + 1)

/-- A pending entry in the frame. -/
def Proc.framePending (p : Proc) (places : List Nat) : List RName :=
  p.pending.filter fun r => places.any fun n => r == .w n

/-- A resident process leaves residence (R220): its registers stay in its descriptor, its frames in the pool.
(DEDUCED, log entry 59; unsafe.) -/
def State.evict (s : State) (pid : Nat) : State :=
  s.modProc pid fun p =>
    { p with resident := false,
             pool := (List.range p.res).foldl (fun t i => nsAdd t (p.oldest + i)) p.pool }

/-- The process among several that entered its state first, or issued least recently. -/
def earliest (key : Proc → Nat) : List (Nat × Proc) → Option (Nat × Proc)
  | [] => none
  | e :: t =>
    match earliest key t with
    | none => some e
    | some f => if key e.2 ≤ key f.2 then some e else some f

/-- A process that R87 step 3 and R220 may evict: PARKED, SUSPENDED or FAULTED with no pending register and no tile
instruction outstanding (R302). -/
def Proc.evictable (p : Proc) : Bool :=
  p.resident && p.pending.isEmpty && p.cTile == 0 && (p.st.isParked || p.st == .suspended || p.st == .faulted)

/-- Steps 2 and 3 of R87, while fewer than `need` entries are free, at most `fuel` times: step 2 while a process meets
its conditions, then step 3. (DEDUCED, log entry 59; unsafe.) -/
def State.freeEntries (s : State) (pid core need : Nat) : Nat → State
  | 0 => s
  | fuel + 1 =>
    if s.stackUsed core + need ≤ 2048 then s
    else
      let others := s.procs.filter fun e => e.1 != pid && e.2.core == core && e.2.resident
      match earliest Proc.lastIssue (others.filter fun e => 2 ≤ e.2.res
          && (e.2.framePending (framePlaces e.2.oldest)).isEmpty
          && !e.2.spillPast e.2.oldest) with
      | some (q, pq) => (s.spillFrame q pq.oldest).freeEntries pid core need fuel
      | none =>
        match earliest Proc.stateSeq (others.filter fun e => e.2.evictable) with
        | some (q, _) => (s.evict q).freeEntries pid core need fuel
        | none => s

/-- The window moves up one frame: its new entries are zero and full (R86). -/
def Proc.raise (p : Proc) : Proc :=
  let fresh := (List.range 24).map (24 * (p.level + 1) + 8 + ·)
  { p with level := p.level + 1, res := p.res + 1, win := fresh.foldl tblErase p.win,
           empties := p.empties.filter fun r => !fresh.any fun n => r == .w n }

/-- slide_in of R86, freeing entries by R87 where too few are free. -/
def State.slideIn (s : State) (pid : Nat) : Slide :=
  match s.proc pid with
  | none => .stall
  | some p =>
    if p.level = 2 ^ 24 - 1 then .fault { cause := 25 }
    else
      let j := p.oldest
      let full := p.res == p.depth
      let tight := 2048 < s.stackUsed p.core + 24
      if full || (tight && 2 ≤ p.res) then
        if p.spillPast j then .fault { cause := 25, faddr := BitVec.ofNat 64 (p.spillBase + 192 * j) }
        else if !(p.framePending (framePlaces j)).isEmpty then .wait (p.framePending (framePlaces j))
        else .done ((s.spillFrame pid j).modProc pid Proc.raise)
      else
        let s := s.freeEntries pid p.core 24 64
        if s.stackUsed p.core + 24 ≤ 2048 then .done (s.modProc pid Proc.raise) else .stall

/-- Frame `j` is loaded from its spill slot, values and full bits (R86). -/
def State.fillFrame (s : State) (pid j : Nat) : State :=
  match s.proc pid with
  | none => s
  | some p =>
    let pa := s.localPA p.core p.ctx (p.spillBase + 192 * j)
    s.modProc pid fun p => (framePlaces j).foldl (fun p n =>
      let a := pa + 8 * (n - 24 * j)
      let p := p.put (.w n) (BitVec.ofNat 64 (s.readNat a 8))
      if s.wordFull (a / 8) then p.setFull (.w n) else p.setEmpty (.w n)) p

/-- slide_out of R86. A fill that meets an uncorrectable word raises fault 24 with that word's address (R135). -/
def State.slideOut (s : State) (pid : Nat) : Slide :=
  match s.proc pid with
  | none => .stall
  | some p =>
    let l := p.level
    if l = 0 then .fault { cause := 25, faddr := BitVec.ofNat 64 p.spillBase }
    else
      let out := (List.range 24).map (24 * l + 8 + ·)
      if !(p.framePending out).isEmpty then .wait (p.framePending out)
      else
        let below := 2 ≤ p.res
        let pa := s.localPA p.core p.ctx (p.spillBase + 192 * (l - 1))
        let fromPool := nsHas p.pool (l - 1)
        match if below || fromPool then none else s.badWord pa 192 with
        | some a => .fault { cause := 24, faddr := BitVec.ofNat 64 (p.spillBase + 192 * (l - 1) + (a - pa)) }
        | none =>
          let s := s.modProc pid fun p =>
            { p with level := l - 1, res := p.res - 1, win := out.foldl tblErase p.win,
                     empties := p.empties.filter fun r => !out.any fun n => r == .w n }
          if below then .done s
          else
            let s := if fromPool then s else s.fillFrame pid (l - 1)
            .done (s.modProc pid fun p => { p with res := p.res + 1, pool := nsDel p.pool (l - 1) })

/-- The process becomes resident (R220): a resident place, of the four vector places where it is of vector class,
and 32 register-stack entries; frames held at eviction come back as they fit, newest first (R87). None where it
must wait. -/
def State.fill (s : State) (pid : Nat) : Option State :=
  match s.proc pid with
  | none => none
  | some p =>
    if p.resident then some s
    else
      let here (s : State) := s.procs.filter fun e => e.2.core == p.core && e.2.resident
      let full (s : State) := 64 ≤ (here s).length || (p.vclass && 4 ≤ ((here s).filter (·.2.vclass)).length)
      let s1 := if full s then
          match earliest Proc.stateSeq ((here s).filter fun e => e.2.evictable
              && (!(p.vclass && 4 ≤ ((here s).filter (·.2.vclass)).length) || e.2.vclass)) with
          | some (q, _) => s.evict q
          | none => s
        else s
      if full s1 then none
      else
        let s2 := s1.freeEntries pid p.core 32 64
        if 2048 < s2.stackUsed p.core + 32 then none
        else
          let free := 2048 - s2.stackUsed p.core
          let want := p.res
          let fit := min want ((free - 8) / 24)
          some (s2.modProc pid fun p =>
            { p with resident := true, res := max 1 fit,
                     pool := (List.range (max 1 fit)).foldl (fun t i => nsDel t (p.level - i)) p.pool })

/-! ### Messages and channel ends (R241 to R250) -/

/-- A message takes a place in a die's outbound write buffer (R161): its key and the state. -/
def State.outbound (s : State) (die : Nat) (m : OutMsg) : Nat × State :=
  let k := (s.die die).outSeq
  (k, s.modDie die fun d => { d with out := tblSet d.out k m, outSeq := k + 1 })

/-- The status word of an engine (R147). -/
def statusWord (cause bytes : Nat) : Word := BitVec.ofNat 64 (cause % 64 * 2 ^ 40 + bytes % 2 ^ 40)

/-- The copy counter falls and the status register receives its word (R147, R139). -/
def State.endCopy (s : State) (pid : Nat) (dest : Option RName) (cause bytes : Nat) : State :=
  ((s.modProc pid fun p => { p with cCopy := p.cCopy - 1 }).landReg pid dest (statusWord cause bytes)).recheck pid

/-- A SENDT or RECVT ends with its status word (R263); 42 and 44 of a SENDT with D zero are delayed faults (R249). -/
def State.endTile (s : State) (pid tok cause bytes : Nat) : State :=
  match (s.proc pid).bind fun p => tblGet p.ops tok with
  | none => s
  | some o =>
    let s := (s.modProc pid fun p => { p with ops := tblErase p.ops tok }).endCopy pid o.dest cause bytes
    if o.dest.isNone && (cause = 42 || cause = 44) then
      s.recordDelayed pid { cause := cause, info := 0x300, faddr := o.ea }
    else s

/-- The die's dirty bit for the context is set (R257). (DEDUCED, log entry 50; safe.) -/
def State.dirtyDie (s : State) (ctx die : Nat) : State := s.modCtx ctx fun c => { c with dirty := nsAdd c.dirty die }

/-- A message from a die to another die of this device, or to another device. -/
def outTo (kind pid ctx rank dev die : Nat) (w : ChanWire) (bytes : List Byte) : OutMsg :=
  { kind := kind, pid := pid, ctx := ctx, rank := rank, tok := 0, ddev := dev, ddie := die, addr := 0, opw := 0,
    payload := bytes, body := some w }

/-- A process that waits on a ticket wakes. -/
def State.wakeChan (s : State) (pid ticket : Nat) : State :=
  match s.proc pid with
  | some p =>
    match p.st with
    | .parked _ (.chan t) _ => if t = ticket then s.wake pid else s
    | _ => s
  | none => s

/-- The fate of a fault record that a core has sent beyond its die (R230): accepted, it leaves its process's descriptor; else it
is sent again. -/
def State.recordFate (s : State) (ticket cause : Nat) : State :=
  match s.cores.find? fun c => ticket != 0 && c.2.recFlight == ticket with
  | none => s
  | some (k, _) => s.modCore k fun c => { c with recFlight := 0, records := if cause = 0 then c.records.tail else c.records }

/-- The fate of a message that names no process: a tile's, told by its token, or a fault record's. -/
def State.told (s : State) (ticket cause bytes : Nat) : State :=
  match s.procs.find? fun p => (tblGet p.2.ops ticket).isSome with
  | some p => s.endTile p.1 ticket cause bytes
  | none => s.recordFate ticket cause

/-- The fate of a message reaches its sender (R245, R248): accepted with cause 0, or refused. A sender on another die
is told by a channel notice (R412). -/
def State.fate (s : State) (ctx i : Nat) (m : Msg) (cause bytes : Nat) : State :=
  let at_ := if (s.chan ctx i).kind = 3 then (s.sendGoal ctx i).1.2 else s.endDie ctx i
  match m.link.filter (· != (s.devId, at_)) with
  | some (dev, die) =>
    let w : ChanWire := { ctx := ctx, chan := i, msg := m, notice := true, cause := cause, bytes := bytes }
    (s.outbound at_ (outTo 17 m.pid ctx 0 dev die w (natBytes 24 cause))).2
  | none =>
    if m.pid = 0 && (s.proc 0).isNone then s.told m.ticket cause bytes
    else match m.tile, m.req with
    | some t, _ => if cause = 0 && bytes = 0 then s else s.endTile m.pid t.tok cause bytes
    | none, some r => (if cause = 0 then s else s.endCopy r.pid r.dest cause 0).wakeChan r.pid m.ticket
    | none, none =>
      if cause != 0 then s.wakeWith m.pid { cause := cause }
      else match s.proc m.pid with
        | some p =>
          match p.st with
          | .parked _ (.chan t) _ =>
            if t = m.ticket then
              (s.modProc m.pid fun p => { p with wakeVal := some (BitVec.ofNat 64 (bytesNat (m.parts.headD []))) }).wake m.pid
            else s
          | _ => s
        | none => s

/-- Parts are handed to a process (R242): what it has not taken of them waits at the channel's index. -/
def State.handParts (s : State) (pid i : Nat) (parts : List (List Byte)) : State :=
  s.modProc pid fun p => { p with rx := if parts.isEmpty then tblErase p.rx i else tblSet p.rx i parts }

/-- The message is accepted: its sender learns it, but for a tile, whose status comes at its end (R245, R263). -/
def State.accept (s : State) (ctx i : Nat) (m : Msg) : State :=
  let s := s.dirtyDie ctx (s.endDie ctx i)
  if m.tile.isSome then s else s.fate ctx i m 0 0

/-- Parts land at the destinations of RECV.a in order, each with whether it is the last (R262). -/
def State.landParts (s : State) (pid : Nat) : List (Option RName × Option RName) → List (List Byte) → State
  | (d, l) :: ds, b :: bs =>
    ((s.landReg pid d (BitVec.ofNat 64 (bytesNat b))).landReg pid l (if bs.isEmpty then 1 else 0)).landParts pid ds bs
  | _, _ => s

/-- A closed message reaches the receive that is matched to it (R242, R262): a parked receive wakes to take part 0. RECV.a
take the first parts at their destinations, and those left over wait for the next message; a receive of the process that
waits behind them goes on with the parts that remain. -/
def State.deliverParts (s : State) (ctx i : Nat) (r : Rcv) (parts : List (List Byte)) : State :=
  let s := s.dirtyDie ctx (s.endDie ctx i)
  if r.async.isEmpty then (s.handParts r.pid i parts).wake r.pid
  else
    let rest := parts.drop r.async.length
    let late := r.async.drop parts.length
    let s := (s.landParts r.pid r.async parts).handParts r.pid i rest
    let s := s.modEnd ctx i fun e =>
      if !late.isEmpty then { e with rcvs := { r with async := late } :: e.rcvs }
      else if rest.isEmpty then e
      else match pickFirst (fun x => x.pid == r.pid && x.async.isEmpty) e.rcvs with
        | some (_, t) => { e with rcvs := t }
        | none => e
    match s.proc r.pid with
    | some p =>
      match p.st with
      | .parked .channel (.chan _) _ =>
        if (p.waitsOn.any fun w => hIndex w.1 == i) && (!rest.isEmpty || p.phase = 1) then s.wake r.pid else s
      | _ => s
    | none => s

/-- A tile begins to move from a sender's region, or from bytes, to a receiver's region or a place (R250). -/
def State.startTile (s : State) (ctx i : Nat) (m : Msg) (t : TileEnd) (to_ : Option (Nat × TileEnd)) : State :=
  { (s.dirtyDie ctx (s.endDie ctx i)) with tiles := s.tiles ++
      [{ ticket := m.ticket, ctx := ctx, chan := i, from_ := if t.bytes.isSome then none else some (m.pid, t),
         link := m.link, bytes := t.bytes.getD [], to_ := to_ }] }

/-- A message is matched to a receive on a rendezvous channel (R246). -/
def State.matchMsg (s : State) (ctx i : Nat) (m : Msg) (r : Rcv) : State :=
  match m.tile, r.tile with
  | some t, some u => s.startTile ctx i m t (some (r.pid, u))
  | _, _ =>
    if m.closed then s.deliverParts ctx i r m.parts
    else
      let s := s.modEnd ctx i fun e => { e with matched := e.matched ++ [(m, r)] }
      match s.proc r.pid with
      | some p => if p.phase = 2 && r.async.isEmpty then s.wake r.pid else s
      | none => s

/-- A tile and the receive that meets it have one length (R246). -/
def tileFits (m : Msg) (r : Rcv) : Bool :=
  match m.tile, r.tile with
  | some t, some u => t.n == u.n
  | _, _ => true

/-- A receive ends without a message: RECVT with its status word, a parked receive with a fault; RECV.a keep their
destinations pending (R246 to R249, R251). -/
def State.endRcv (s : State) (cause : Nat) (r : Rcv) : State :=
  match r.tile with
  | some t => s.endTile r.pid t.tok cause 0
  | none => if r.async.isEmpty then s.wakeWith r.pid { cause := cause } else s

/-- The oldest receive that no .tx guard has reserved, and the send that it meets: one reserved for its process, or the oldest
(R246, R256). -/
def ChanEnd.pair (e : ChanEnd) : Option ((Msg × List Msg) × Rcv × List Rcv) :=
  match pickFirst (fun r => r.rsv.isNone) e.rcvs with
  | none => none
  | some (r, rs) =>
    ((pickFirst (fun m => m.rsv == some r.pid) e.sends).or (pickFirst (fun m => m.rsv.isNone) e.sends)).map fun x => (x, r, rs)

/-- A message enters a place of the queue (R247): a tile's data is copied into it. -/
def State.enterPlace (s : State) (ctx i : Nat) (m : Msg) (put : Msg → ChanEnd → ChanEnd) : State :=
  let s := s.modEnd ctx i (put { m with closed := m.closed && m.tile.isNone })
  let s := match m.tile with
    | some u => s.startTile ctx i m u none
    | none => s
  s.accept ctx i m

/-- What waits at a receive end goes on, `fuel` times: on a rendezvous channel the oldest send and receive are matched
(R246); on a buffered one a send enters a free place and receives take what they may (R247). -/
def State.serveEnd (s : State) (ctx i : Nat) : Nat → State
  | 0 => s
  | fuel + 1 =>
    let ch := s.chan ctx i
    let e := s.chanEnd ctx i
    if s.rebinding ctx i then s
    else if ch.depth = 0 then
      match e.pair with
      | none => s
      | some ((m, ms), r, rs) =>
        if tileFits m r then
          (((s.modEnd ctx i fun e => { e with sends := ms, rcvs := rs }).matchMsg ctx i m r).accept ctx i m).serveEnd ctx i fuel
        else ((s.modEnd ctx i fun e => { e with rcvs := rs }).endRcv 29 r).serveEnd ctx i fuel
    else if e.held.length < ch.depth && !e.sends.isEmpty then
      match e.sends with
      | m :: t => (s.enterPlace ctx i m fun m e => { e with sends := t, held := e.held ++ [m] }).serveEnd ctx i fuel
      | [] => s
    else match e.held, e.rcvs with
      | m :: h, r :: q =>
        if !m.closed then s
        else if tileFits m r then
          ((s.modEnd ctx i fun e => { e with held := h, rcvs := q }).matchMsg ctx i m r).serveEnd ctx i fuel
        else ((s.modEnd ctx i fun e => { e with rcvs := q }).endRcv 29 r).serveEnd ctx i fuel
      | _, _ => s

/-- Everything that waits at a receive end and may go on does. -/
def State.serveChan (s : State) (ctx i : Nat) : State :=
  s.serveEnd ctx i ((s.chanEnd ctx i).sends.length + (s.chanEnd ctx i).rcvs.length + 1)

/-- What becomes of a message that arrives. -/
inductive Arrival where
  | accepted | refused | waits
  deriving DecidableEq, Repr

/-- A message joins the sends that wait, and is accepted where it may be. -/
def State.queueSend (s : State) (ctx i : Nat) (m : Msg) : State × Arrival :=
  let s := (s.modEnd ctx i fun e => { e with sends := e.sends ++ [m] }).serveChan ctx i
  (s, if (s.chanEnd ctx i).sends.any fun x => x.ticket == m.ticket then .waits else .accepted)

/-- A message arrives at the ordering point of a receive end of kind 001 or 010 (R244 to R248), and its sender learns that it
is accepted; the caller tells it that it is refused. A receive or place reserved for the sender accepts at once (R256).
(DEDUCED, log entry 30; unsafe.) -/
def State.arrive (s : State) (ctx i : Nat) (m : Msg) : State × Arrival :=
  let ch := s.chan ctx i
  let e := s.chanEnd ctx i
  let s := s.dirtyDie ctx (s.endDie ctx i)
  if ch.closed then (s, .refused)
  else if s.rebinding ctx i then (s.modEnd ctx i fun e => { e with sends := e.sends ++ [m] }, .waits)
  else if ch.depth = 0 then
    match pickFirst (fun r => r.rsv == some m.pid) e.rcvs with
    | some (r, q) =>
      let s := s.modEnd ctx i fun e => { e with rcvs := q }
      if tileFits m r then ((s.matchMsg ctx i m { r with rsv := none }).accept ctx i m, .accepted)
      else (s.endRcv 29 r).queueSend ctx i m
    | none => s.queueSend ctx i m
  else
    let mine (h : Msg) : Bool := h.rsv == some m.pid && !h.closed && h.ticket == 0
    if e.held.any mine then
      ((s.enterPlace ctx i m fun m e => { e with held := e.held.map fun h => if mine h then m else h }).serveChan ctx i, .accepted)
    else s.queueSend ctx i m

/-- What the end of a transfer lets go on: receives of a closed channel with no message left (R248), and a CHB that
waits (R251). -/
def State.rebindAgain (s : State) (ctx i : Nat) : State :=
  let e := s.chanEnd ctx i
  let s := if (s.chan ctx i).closed && e.held.isEmpty && e.sends.isEmpty then
      e.rcvs.foldl (State.endRcv · 30) (s.modEnd ctx i fun e => { e with rcvs := [] })
    else s
  e.rebind.foldl State.wake s

/-- The parts of a packet that has closed fill the place reserved for it, or reach the receive matched to it (R242). -/
def State.fillPlace (s : State) (ctx i ticket : Nat) (parts : List (List Byte)) : State :=
  let e := s.chanEnd ctx i
  match e.matched.find? fun x => x.1.ticket == ticket with
  | some x =>
    (((s.modEnd ctx i fun e => { e with matched := e.matched.filter fun y => y.1.ticket != ticket }).deliverParts ctx i x.2 parts).serveChan ctx i).rebindAgain ctx i
  | none =>
    let close (m : Msg) : Msg := if m.ticket = ticket then { m with parts := parts, closed := true } else m
    ((s.modEnd ctx i fun e => { e with held := e.held.map close, sends := e.sends.map close }).serveChan ctx i).rebindAgain ctx i

/-- Receives that wait for a packet matched to an earlier RECV.a of their process issue again: the packet has ended without
delivery (R242, R248). -/
def State.wakeAwaiting (s : State) (ticket : Nat) : State :=
  s.procs.foldl (fun s x => match x.2.st with
    | .parked .channel (.chan t) _ => if t = ticket && x.2.phase = 1 then s.wake x.1 else s
    | _ => s) s

/-- A place or match whose packet ends without delivery becomes free again (R242, R249): the receive waits again. -/
def State.dropPlace (s : State) (ctx i ticket : Nat) : State :=
  let e := s.chanEnd ctx i
  let back := (e.matched.filter fun x => x.1.ticket == ticket).map (·.2)
  let s := s.modEnd ctx i fun e =>
    { e with held := e.held.filter fun m => m.ticket != ticket, sends := e.sends.filter fun m => m.ticket != ticket,
             matched := e.matched.filter fun x => x.1.ticket != ticket, rcvs := back ++ e.rcvs }
  ((s.serveChan ctx i).rebindAgain ctx i).wakeAwaiting ticket

/-! ### Faults (R94, R229, R230) -/

/-- CR.CAUSE as a word (R93). -/
def causeWord (f : FaultInfo) : Word := BitVec.ofNat 64 (f.info % 2 ^ 32 * 2 ^ 32 + f.cause % 64)

/-- A record for the supervisor channel from a core's hardware (R230). -/
def State.hwRecord (s : State) (core : Nat) (r : FRec) : State :=
  s.modCore core fun c => { c with records := c.records ++ [(r, none)] }

/-- A packet to a memory server that has closed (R252): four parts fill its place; any other number is discarded with
a record of cause 29. (DEDUCED, log entry 29; safe.) -/
def State.serverPacket (s : State) (die srv ticket : Nat) (parts : List (List Byte)) : State :=
  let q := tblGetD (s.die die).servers srv []
  match q.find? fun r => r.ticket == ticket && !r.ready with
  | none => s
  | some x =>
    let four := parts.length == 4
    let fill := fun (r : MsReq) => if r.ticket = ticket then { r with ready := true, words := parts.map fun b => BitVec.ofNat 64 (bytesNat b) } else r
    let s := s.modDie die fun d =>
      { d with servers := tblSet d.servers srv (if four then q.map fill else q.filter fun r => r.ticket != ticket) }
    if four then s
    else s.hwRecord x.core { rank := x.rank, core := x.core, ctx := x.ctx, code := 29 }

/-- A message arrives at a memory server (R245, R252): it waits among the sends of its channel for a place, and one of a single
part is a packet that has closed. A request of MSRQ takes its place whole (R154). -/
def State.arriveServer (s : State) (ctx i : Nat) (m : Msg) : State × Arrival :=
  let c := s.chan ctx i
  let die := c.target / 256 % 8
  let srv := c.target % 4
  let q := tblGetD (s.die die).servers srv []
  if c.closed then (s, .refused)
  else if 64 ≤ q.length || s.rebinding ctx i then (s.modEnd ctx i fun e => { e with sends := e.sends ++ [m] }, .waits)
  else
    let put (r : MsReq) : State := s.modDie die fun d => { d with servers := tblSet d.servers srv (q ++ [r]) }
    match m.req with
    | some r => ((put r).fate ctx i m 0 0, .accepted)
    | none =>
      let p := s.proc m.pid
      let s := (put { pid := m.pid, ctx := ctx, core := p.elim 0 Proc.core, rank := p.elim 0 Proc.rank, ready := false, viaSend := true,
                      ticket := m.ticket, chan := i, priv := p.any Proc.priv }).fate ctx i m 0 0
      (if m.closed then s.serverPacket die srv m.ticket m.parts else s, .accepted)

/-- The send or request that has waited longest for a place at a memory server: its context, channel and message. -/
def State.serverNext (s : State) (die srv : Nat) : Option (Nat × Nat × Msg) :=
  let all := s.ctxs.flatMap fun c => c.2.ends.flatMap fun e =>
    let ch := tblGetD c.2.chans e.1 {}
    if ch.kind = 3 && ch.target / 256 % 8 = die && ch.target % 4 = srv && !s.rebinding c.1 e.1 then
      e.2.sends.map fun m => (c.1, e.1, m)
    else []
  all.foldl (fun b x => match b with
    | some y => if x.2.2.ticket < y.2.2.ticket then some x else b
    | none => some x) none

/-- Places that fall free at a memory server go to those who wait, `fuel` times (R252). -/
def State.serveServer (s : State) (die srv : Nat) : Nat → State
  | 0 => s
  | fuel + 1 =>
    match s.serverNext die srv with
    | none => s
    | some (ctx, i, m) =>
      if 64 ≤ (tblGetD (s.die die).servers srv []).length then s
      else
        let s := s.modEnd ctx i fun e => { e with sends := e.sends.filter fun x => x.ticket != m.ticket }
        (s.arriveServer ctx i m).1.serveServer die srv fuel

/-- A place in the request queue of a memory server whose packet ends by fault becomes free (R242, R252). -/
def State.dropServer (s : State) (die srv ticket : Nat) : State :=
  (s.modDie die fun d => { d with servers := tblSet d.servers srv ((tblGetD d.servers srv []).filter fun r => r.ready || r.ticket != ticket) }).serveServer
    die srv 64

/-- The send-end handle of a channel (R237), with an index that the other end reads. -/
def State.handleOf (s : State) (ctx i index : Nat) : Word :=
  let e := s.chan ctx i
  BitVec.ofNat 64 ((s.ctx ctx).tag * 2 ^ 58 + e.type * 2 ^ 55 + e.gen * 2 ^ 20 + index)

/-- A message of a channel has been sent (R258). -/
def State.countSent (s : State) (ctx die : Nat) : State :=
  (s.modCtx ctx fun c => { c with sent := tblSet c.sent die (tblGetD c.sent die 0 + 1) }).dirtyDie ctx die

/-- A packet whose place lies beyond the die has ended by fault: its end is told (R242). (DEDUCED, log entry 30; unsafe.) -/
def State.sendDrop (s : State) (ctx i die rank pid ticket : Nat) : State :=
  let g := s.sendGoal ctx i
  let w : ChanWire := { ctx := ctx, chan := i, msg := { ticket := ticket, pid := pid, parts := [], drop := true, link := some (s.devId, die) } }
  let h := s.handleOf ctx i (if g.2.isSome then (s.qpair (s.chan ctx i).target).pchan else i)
  ({ s with seq := s.seq + 1 }.outbound die { outTo 6 pid ctx rank g.1.1 g.1.2 w (natBytes 8 0) with
    qp := g.2, addr := h, unit := s.seq }).2.countSent ctx die

/-- A packet of the process ends without delivery (R242): its place at the receive end, or in the request queue of a
memory server, becomes free. (DEDUCED, log entry 45; unsafe.) -/
def State.abortPacket (s : State) (pid : Nat) : State :=
  match s.proc pid with
  | none => s
  | some p =>
    match p.packet with
    | none => s
    | some k =>
      let i := hIndex k.handle
      let c := s.chan p.ctx i
      let s := s.modProc pid fun p => { p with packet := none }
      if s.isFar p.ctx i (coreDie p.core) then s.sendDrop p.ctx i (coreDie p.core) p.rank pid k.ticket
      else if c.kind = 3 then s.dropServer (c.target / 256 % 8) (c.target % 4) k.ticket
      else s.dropPlace p.ctx i k.ticket

/-- The registers that describe a fault are written (steps 1 and 2 of R94). -/
def Proc.latch (p : Proc) (f : FaultInfo) (epc : Word) : Proc :=
  { p with cause := causeWord f, faddr := f.faddr, epc := epc }

/-- The process enters FAULTED and its record is held for the supervisor channel (R229, R230). -/
def State.fail (s : State) (pid : Nat) (f : FaultInfo) (epc : Word) (slide nested lost : Bool) : State :=
  match s.proc pid with
  | none => s
  | some p =>
    let rec_ : FRec := { rank := p.rank, core := p.core, ctx := p.ctx, lost := lost, slide := slide, nested := nested,
                         code := f.cause, info := f.info, epc := epc, faddr := f.faddr }
    let s := ((s.leaveSlot pid p.core).unready pid p.core).modProc pid fun p =>
      { p.latch f epc with held := none, sbMark := none, granted := [], phase := 0, wakeVal := none, waitsOn := none }
    let s := s.enter pid .faulted
    s.modCore p.core fun c => { c with records := c.records ++ [(rec_, some pid)] }

/-- Taking a fault of kind P or D (R94, R229): delivery to the handler as one step, or FAULTED. A slide that must
wait holds the fault: the process parks, or keeps its slot where register-stack entries are short. -/
def State.deliver (s0 : State) (pid : Nat) (f : FaultInfo) (epc : Word) : State :=
  let s := s0.abortPacket pid
  match s.proc pid with
  | none => s
  | some p =>
    if !p.thdlEn || p.thdlAct then s.fail pid f epc false p.thdlAct false
    else match s.slideIn pid with
      | .fault _ => s.fail pid f epc true false false
      | .wait rs => (s.modProc pid fun p => { p with held := some (f, epc) }).park pid .fullBit (.landed rs)
      | .stall => s.modProc pid fun p => { p with held := some (f, epc) }
      | .done s => s.modProc pid fun p =>
          let q := (p.latch f epc).setAct true
          { q with pc := p.thdl &&& ~~~3, held := none, sbMark := none, granted := [], phase := 0, wakeVal := none, waitsOn := none }

/-- What the process keeps of an instruction that has begun. -/
def Proc.progress (p : Proc) : Progress :=
  { pc := p.pc, wakeFault := p.wakeFault, wakeVal := p.wakeVal, sbMark := p.sbMark, granted := p.granted, phase := p.phase,
    token := p.token, seenGen := p.seenGen, waitsOn := p.waitsOn }

/-- The process takes up an instruction that has begun. -/
def Proc.takeUp (p : Proc) (g : Progress) : Proc :=
  { p with wakeFault := g.wakeFault, wakeVal := g.wakeVal, sbMark := g.sbMark, granted := g.granted, phase := g.phase,
           token := g.token, seenGen := g.seenGen, waitsOn := g.waitsOn }

/-- Delivery of a fault that comes before the process's next instruction (R166): what that instruction has begun is kept
for the handler's return to it. (DEDUCED, log entry 77; unsafe.) -/
def State.deliverLate (s : State) (pid : Nat) (f : FaultInfo) (epc : Word) : State :=
  match s.proc pid with
  | none => s
  | some p =>
    let g := p.progress
    (s.deliver pid f epc).modProc pid fun q =>
      if q.held.isSome then q.takeUp g
      else { q with wakeFault := none, resume := if g = { pc := p.pc, token := p.token, seenGen := p.seenGen } then p.resume else some g }

/-- An instruction that had begun before a delayed fault goes on, once the handler has returned to it; a handler that has
returned elsewhere leaves it (R166). (DEDUCED, log entry 77; unsafe.) -/
def State.takeUp (s : State) (pid : Nat) : State :=
  match s.proc pid with
  | none => s
  | some p =>
    match p.resume with
    | none => s
    | some g =>
      if p.st != .running || p.thdlAct then s
      else if g.pc = p.pc then s.modProc pid fun p => { p.takeUp g with resume := none }
      else { s with forks := s.forks.filter fun f => f.pid != pid }.modProc pid fun p => { p with resume := none }

/-- The next instruction address after one of `n` bytes at `p` (R58). -/
def nextAddr (p : Word) (n : Nat) : Word :=
  let q := p + BitVec.ofNat 64 n
  if q.toNat % 32 = 28 then q + 4 else q

/-- The return from a handler (R121): the window slides out, ACT clears, control passes to CR.EPC. -/
def Proc.handlerReturn (p : Proc) : Proc := { p.setAct false with pc := p.epc }

/-- A kernel's count falls, for a process that enters STOPPED (R208). -/
def State.countStop (s : State) (p : Proc) : State :=
  s.modCtx p.ctx fun c => { c with kernels := tblMod c.kernels p.kernel fun k => { k with n := k.n - 1 } }

/-- The process enters STOPPED (R218, R233); an open packet ends without delivery. (DEDUCED, log entry 45; unsafe.) -/
def State.stopProc (s : State) (pid : Nat) : State :=
  match s.proc pid with
  | none => s
  | some p => ((((s.abortPacket pid).leaveSlot pid p.core).unready pid p.core).enter pid .stopped).countStop p

end Sys2Proof.Machine
end

