-- ==== Sys2Proof/Machine/Operands.lean ====
section
/-! DEFINITION. How every instruction runs: the checks of R76 steps 9 and 10, its guard (R63), its .s waits (R64),
the wait of a pending destination (R90), its operands (R61, R70 to R73), and what its outcome does to the process. -/

namespace Sys2Proof.Machine

/-- Sign extension of the low `n` bits (R11). -/
def sextN (v n : Nat) : Word :=
  let m := v % 2 ^ n
  if n = 0 then 0 else if m < 2 ^ (n - 1) then BitVec.ofNat 64 m else BitVec.ofNat 64 (m + (2 ^ 64 - 2 ^ n))

/-- Zero extension of the low `n` bits (R11). -/
def zextN (v n : Nat) : Word := BitVec.ofNat 64 (v % 2 ^ n)

/-- True for the signed integer types of R67. -/
def tySigned (t : Nat) : Bool := t < 4

/-- The low `w` bits of `v` extended to 64 bits by the signedness of the integer type `t` (R95). -/
def extTy (t : Nat) (v : Nat) : Word :=
  if tySigned t then sextN v (tyWidth t) else zextN v (tyWidth t)

/-- The extension of an instruction as an immediate of its length (R71). -/
def immRaw (x : Args) (signed : Bool) : Word :=
  match x.len with
  | .l64 => if signed then sextN x.im21.toNat 21 else zextN x.im21.toNat 21
  | .l96 => if signed then sextN x.ext.toNat 32 else zextN x.ext.toNat 32
  | .l128 => x.ext

/-- An integer immediate of type TY before truncation to the operation width (R71). -/
def immInt (x : Args) : Word := immRaw x (tySigned (tyN x))

/-- The offset of a memory operand whose 64-bit form holds it in IMM21 (R73). -/
def offset (x : Args) : Word := immRaw x true

/-- The offset of an instruction whose IMM21 always holds the modifier word: 0 in the 64-bit form (R170). -/
def offsetExt (x : Args) : Word :=
  match x.len with
  | .l64 => 0
  | _ => immRaw x true

/-- What an instruction's own effect comes to. -/
inductive Act where
  /-- it completes; the process goes on at the next instruction address -/
  | next (s : State)
  /-- it completes and control passes to an address -/
  | jump (s : State) (target : Word)
  /-- it raises a precise fault (R229) -/
  | fault (s : State) (f : FaultInfo)
  /-- it parks and issues again when it wakes -/
  | park (s : State) (r : Reason) (w : Wait)
  /-- it completes and the process parks before its next instruction -/
  | parkNext (s : State) (r : Reason) (w : Wait)
  /-- it is not ready: the slot stays held and the process does not park -/
  | stall (s : State)
  /-- the process enters STOPPED -/
  | stop (s : State)
  /-- what the effect makes of the process is all in the state -/
  | raw (s : State)

/-- What an instruction's effect is given: the state before it, the state with the full bits of its marked operands
cleared (R64), its process, and its operand values. -/
structure Env where
  s0 : State
  s : State
  pid : Nat
  p : Proc
  x : Args
  a : Word
  b : Word
  c : Word
  f : Word

/-- The register with a full bit that an operand field names in its use. -/
def Use.reg (u : Use) (p : Proc) (f : Nat) : Option RName :=
  match u with
  | .src | .dst | .status | .areg | .aregD | .aregZ => p.name f
  | .pred | .predNoS | .predD => some (.p f)
  | _ => Option.none

/-- The value read for an operand field in its use. -/
def Use.value (u : Use) (p : Proc) (f : Nat) : Word :=
  match u with
  | .src | .srcNoS | .areg | .aregZ | .mem => p.scalar f
  | .pred | .predNoS => p.reg (.p f)
  | _ => 0

/-- The registers that .s marks (R64). (DEDUCED, log entry 20; unsafe.) -/
def marked (e : Entry) (x : Args) (p : Proc) : List RName :=
  let u := e.uses x
  (if x.sa then (u.a.reg p x.a.toNat).toList else [])
    ++ (if x.sb && !x.i then (u.b.reg p x.b.toNat).toList else [])
    ++ (if scOf e.i21 x then (u.c.reg p (cOf e.i21 x).toNat).toList else [])
    ++ (if u.f != .none && sfOf x then (u.f.reg p (fOf x).toNat).toList else [])

/-- The registers and predicates that an instruction writes by its fields D and C; CALL and CALLR write the register
that becomes w7 (R118). -/
def written (e : Entry) (x : Args) (p : Proc) : List RName :=
  let u := e.uses x
  (match u.d with
    | .dst | .status | .aregD | .predD => (u.d.reg p x.d.toNat).toList
    | _ => [])
    ++ (if u.c == .predD then (u.c.reg p (cOf e.i21 x).toNat).toList else [])
    ++ (if e.op == 0x42 || e.op == 0x43 then [.w (24 * p.level + 31)] else [])

/-- The operand values of an instruction (R61, R70). -/
def envOf (e : Entry) (x : Args) (s : State) (pid : Nat) (p : Proc) : Env :=
  let u := e.uses x
  { s0 := s, s := s.modProc pid fun q => (marked e x p).foldl Proc.setEmpty q, pid := pid, p := p, x := x,
    a := u.a.value p x.a.toNat, b := if x.i then immInt x else u.b.value p x.b.toNat,
    c := u.c.value p (cOf e.i21 x).toNat, f := u.f.value p (fOf x).toNat }

/-- The guard of an instruction, by its predicate and sense (R63). -/
def guardTrue (x : Args) (p : Proc) : Bool := p.predV x.gpred.toNat != x.gsense

/-- An instruction of the process has completed: control passes to `pc`, an open packet counts it (R66), and what
it kept for issuing again is dropped. -/
def Proc.retire (p : Proc) (pc : Word) : Proc :=
  { p with pc := pc, sbMark := none, granted := [], phase := 0, wakeVal := none, waitsOn := none,
           packet := p.packet.map fun k => { k with count := k.count + 1 } }

def State.retire (s : State) (pid : Nat) (pc : Word) : State := s.modProc pid fun p => p.retire pc

/-- The address after an instruction of the process (R58). -/
def Proc.nextPc (p : Proc) (x : Args) : Word := nextAddr p.pc x.len.bytes

/-- What an outcome makes of the state. A process that parks at its next instruction on a wait that has ended already is READY
again at once (R219). Inside an open packet an instruction that would park or is not ready raises
fault 33 with no effect (R66, R222). -/
def settle (s0 : State) (pid : Nat) (p : Proc) (x : Args) (act : Act) : State :=
  let inPacket := p.packet.isSome
  let tooLong := s0.deliver pid { cause := 33 } p.pc
  match act with
  | .next s => s.retire pid (p.nextPc x)
  | .jump s t => s.retire pid t
  | .fault s f => s.deliver pid f (if f.cause = 6 then p.nextPc x else p.pc)
  | .park s r w => if inPacket then tooLong else s.park pid r w
  | .parkNext s r w => if inPacket then tooLong else ((s.retire pid (p.nextPc x)).park pid r w).recheck pid
  | .stall s => if inPacket then tooLong else { s with stalled := true }
  | .stop s => (s.retire pid (p.nextPc x)).stopProc pid
  | .raw s => s

/-- Steps 9 and 10 of R76 and what R410 checks with step 9: the fault, where one arises. Whether a guarded-off SEND or SENDV
with E = 1 counts as the closing one at instruction 17 is left open: here it passes step 10 and the packet stays open (R66).
(DESIGN CHOICE, log entry 73; unsafe.) -/
def lateChecks (e : Entry) (x : Args) (s : State) (p : Proc) : Option FaultInfo :=
  if (e.priv || e.privX x) && !p.priv then some { cause := 4 }
  else if e.vec && !p.vclass then some { cause := 2 }
  else if e.notLogged x && (s.ctx p.ctx).dmode != 0 then some { cause := 2, info := 1 }
  else match p.packet with
    | some k => if 16 ≤ k.count && !(x.e && (e.op == 0xA9 || e.op == 0xAB)) then some { cause := 33 } else none
    | none => none

/-! ### Conflicts with outstanding tile instructions (R300) -/

/-- A register that the rule of R300 counts. -/
inductive TReg where
  | y (i : Nat) | z (i : Nat) | v (i : Nat)
  deriving DecidableEq, Repr

/-- What an outstanding tile instruction reads and writes: only a vq2 TMMA reads a second B buffer (R296). -/
def TileOp.regs (t : TileOp) : List TReg × List TReg :=
  match t.what with
  | .load d sc => ([], .y d :: sc.map .v)
  | .store d sc => (.y d :: sc.map .v, [])
  | .mul d a b _ _ _ _ => ([.y a, .y b, .z d] ++ (if t.fmt = 11 then [.y (b + 1)] else []), [.z d])

/-- An instruction that names `named` and writes `writes` conflicts with an outstanding tile instruction of its process. -/
def State.tileClash (s : State) (pid core : Nat) (named writes : List TReg) : Bool :=
  ((tblGetD s.pipes (2 * core) [] ++ tblGetD s.pipes (2 * core + 1) []).filter fun t => t.pid == pid).any fun t =>
    (t.regs.2.any named.contains) || t.regs.1.any writes.contains

/-- The y and z registers that the tile instructions name by D, A and B, and those they write. -/
def tileRegs (op : Nat) (x : Args) : List TReg × List TReg :=
  let d := x.d.toNat
  let a := x.a.toNat
  let b := x.b.toNat
  let low := mN x % 4
  match op with
  | 0xE0 | 0xE1 => ([.y d], [.y d])
  | 0xE2 => ([.y d], [])
  | 0xE3 => ([.y a, .y b, .z d] ++ (if tyN x = 11 then [.y (b + 1)] else []), [.z d])
  | 0xE4 => if low = 0 then ([.z d], [.z d]) else if low = 2 then ([.y d], [.y d]) else ([], [])
  | 0xE5 => ([if low % 2 = 0 then .z a else .y a], [])
  | 0xE6 => let r : TReg := if low % 2 = 0 then .z d else .y d; ([r], [r])
  | 0xE7 => ([.y d, .y a], [.y d])
  | 0xE8 => ([.y a], [])
  | 0xEB => ([.y d, .z a], [.y d])
  | _ => ([], [])

/-- The registers of R300 that an instruction names by its fields, and those it writes: VCVT.rs names a second random
register too (R284). -/
def countedRegs (e : Entry) (x : Args) : List TReg × List TReg :=
  let u := e.uses x
  let fields := [(u.d, x.d.toNat), (u.a, x.a.toNat), (u.b, x.b.toNat), (u.c, (cOf e.i21 x).toNat)]
  let vs := (fields.filter fun f => f.1 == .vec || f.1 == .vecD).map fun f => TReg.v f.2
  let ws := (fields.filter fun f => f.1 == .vecD).map fun f => TReg.v f.2
  let t := if 0xE0 ≤ e.op then tileRegs e.op x else ([], [])
  (vs ++ (if e.op = 0xD5 && u.b == .vec then [.v (x.b.toNat + 1)] else []) ++ t.1, ws ++ t.2)

/-- What an instruction that has passed its decode checks does for its process: late checks, guard, waits, then its
effect. -/
def runProc (e : Entry) (x : Args) (s : State) (pid : Nat) (p : Proc) (body : Env → Act) : Act :=
  match lateChecks e x s p with
  | some f => .fault s f
  | none =>
    let g : RName := .p x.gpred.toNat
    if !p.full g then .park s .fullBit (.full [g])
    else if !guardTrue x p then .next s
    else
      let ms := marked e x p
      if !ms.all p.full then .park s .fullBit (.full ms)
      else
        let ws := (written e x p).filter fun r => p.pending.contains r
        if !ws.isEmpty then .park s .fullBit (.landed ws)
        else if p.packet.isSome && multiCycle e.op e.fn x then .fault s { cause := 33 }
        else if p.cTile != 0 && s.tileClash pid p.core (countedRegs e x).1 (countedRegs e x).2 then .stall s
        else body (envOf e x s pid p)

/-- The effect of an instruction on the process that the issue stage names. -/
def perform (e : Entry) (x : Args) (s : State) (body : Env → Act) : Host.Outcome State Fault Refusal :=
  match s.proc s.cur with
  | none => .next s
  | some p => .next (settle s s.cur p x (runProc e x s s.cur p body))

/-- An effect on the process alone. -/
def Env.upd (e : Env) (f : Proc → Proc) : State := e.s.modProc e.pid f

/-- The instruction completes with a value for its scalar destination D. -/
def Env.ret (e : Env) (v : Word) : Act := .next (e.upd fun p => p.wrOp e.x.d.toNat v)

/-- The instruction completes with a value for its predicate destination D. -/
def Env.retP (e : Env) (v : Bool) : Act := .next (e.upd fun p => p.wr (.p e.x.d.toNat) (if v then 1 else 0))

/-- A fault of the instruction; nothing else changes. -/
def Env.trap (e : Env) (c : Nat) (info : Nat := 0) (faddr : Word := 0) : Act :=
  .fault e.s0 { cause := c, info := info, faddr := faddr }

/-- The address register that a field names. -/
def Env.areg (e : Env) (f : BitVec 6) : AReg := e.p.addr (f.toNat - 40)

end Sys2Proof.Machine
end

