-- ==== Sys2Proof/Machine/ScalarInt.lean ====
section
/-! DEFINITION. The scalar integer instructions, group 0x00 (R95 to R103). -/

namespace Sys2Proof.Machine

/-- The low `w` bits of a register as a number of the integer type `t` (R95). -/
def intVal (t : Nat) (v : Word) : Int := if tySigned t then (extTy t v.toNat).toInt else (extTy t v.toNat).toNat

/-- Least and greatest value of an integer type. -/
def intMin (t : Nat) : Int := if tySigned t then -(2 ^ (tyWidth t - 1) : Int) else 0
def intMax (t : Nat) : Int := if tySigned t then 2 ^ (tyWidth t - 1) - 1 else 2 ^ tyWidth t - 1

/-- .sat (R95). -/
def clampTy (t : Nat) (v : Int) : Int := max (intMin t) (min (intMax t) v)

/-- The write-back of R95: the exact result modulo 2^w, extended by the signedness of the type. -/
def intWord (t : Nat) (v : Int) : Word := extTy t (v % 2 ^ tyWidth t).toNat

/-- The write-back under the .sat modifier MOD[0] (R95). -/
def intSat (x : Args) (v : Int) : Word :=
  intWord (tyN x) (if (modOf .modw x).getLsbD 0 then clampTy (tyN x) v else v)

/-- The operands of R95 as exact numbers. -/
def Env.ix (e : Env) : Int := intVal (tyN e.x) e.a
def Env.iy (e : Env) : Int := intVal (tyN e.x) e.b

/-- The low w bits of the operands. -/
def Env.ua (e : Env) : Nat := e.a.toNat % 2 ^ tyWidth (tyN e.x)
def Env.ub (e : Env) : Nat := e.b.toNat % 2 ^ tyWidth (tyN e.x)

/-- n of R96: y mod w. -/
def Env.shiftN (e : Env) : Nat := (e.iy % (tyWidth (tyN e.x) : Int)).toNat

/-- The bits of a number, most significant first, below bit `n`. -/
def leadingZeros (v : Nat) : Nat → Nat
  | 0 => 0
  | n + 1 => if v.testBit n then 0 else leadingZeros v n + 1

/-- Zero bits from bit `i` up, at most `n`. -/
def trailingZeros (v i : Nat) : Nat → Nat
  | 0 => 0
  | n + 1 => if v.testBit i then 0 else trailingZeros v (i + 1) n + 1

/-- One bits below bit `n`. -/
def popCount (v : Nat) : Nat → Nat
  | 0 => 0
  | n + 1 => popCount v n + (if v.testBit n then 1 else 0)

/-- Rotation of a `w`-bit pattern left by `n` < `w`. -/
def rotL (v w n : Nat) : Nat := (v * 2 ^ n) % 2 ^ w + v / 2 ^ (w - n)

/-- A two-source or unary instruction of R96 with an exact result. -/
def intOp (e : Env) (v : Int) : Act := e.ret (intSat e.x v)

def execAdd (x : Args) (s : State) : Host.Outcome State Fault Refusal := perform eAdd x s fun e => intOp e (e.ix + e.iy)
def execSub (x : Args) (s : State) : Host.Outcome State Fault Refusal := perform eSub x s fun e => intOp e (e.ix - e.iy)
def execMul (x : Args) (s : State) : Host.Outcome State Fault Refusal := perform eMul x s fun e => intOp e (e.ix * e.iy)
def execMulh (x : Args) (s : State) : Host.Outcome State Fault Refusal :=
  perform eMulh x s fun e => intOp e ((e.ix * e.iy) / 2 ^ tyWidth (tyN e.x))
def execAnd (x : Args) (s : State) : Host.Outcome State Fault Refusal :=
  perform eAnd x s fun e => intOp e ((e.ua &&& e.ub : Nat) : Int)
def execOr (x : Args) (s : State) : Host.Outcome State Fault Refusal :=
  perform eOr x s fun e => intOp e ((e.ua ||| e.ub : Nat) : Int)
def execXor (x : Args) (s : State) : Host.Outcome State Fault Refusal :=
  perform eXor x s fun e => intOp e ((e.ua ^^^ e.ub : Nat) : Int)
def execAndn (x : Args) (s : State) : Host.Outcome State Fault Refusal :=
  perform eAndn x s fun e => intOp e ((e.ua ^^^ (e.ua &&& e.ub) : Nat) : Int)
def execShl (x : Args) (s : State) : Host.Outcome State Fault Refusal :=
  perform eShl x s fun e => intOp e (e.ix * 2 ^ e.shiftN)
def execShr (x : Args) (s : State) : Host.Outcome State Fault Refusal :=
  perform eShr x s fun e => intOp e ((e.ua / 2 ^ e.shiftN : Nat) : Int)
def execSra (x : Args) (s : State) : Host.Outcome State Fault Refusal :=
  perform eSra x s fun e => intOp e ((sextN e.a.toNat (tyWidth (tyN e.x))).toInt / 2 ^ e.shiftN)
def execRol (x : Args) (s : State) : Host.Outcome State Fault Refusal :=
  perform eRol x s fun e => intOp e (rotL e.ua (tyWidth (tyN e.x)) e.shiftN : Nat)
def execClz (x : Args) (s : State) : Host.Outcome State Fault Refusal :=
  perform eClz x s fun e => intOp e (leadingZeros e.ua (tyWidth (tyN e.x)) : Nat)
def execCtz (x : Args) (s : State) : Host.Outcome State Fault Refusal :=
  perform eCtz x s fun e => intOp e (trailingZeros e.ua 0 (tyWidth (tyN e.x)) : Nat)
def execPopc (x : Args) (s : State) : Host.Outcome State Fault Refusal :=
  perform ePopc x s fun e => intOp e (popCount e.ua (tyWidth (tyN e.x)) : Nat)
def execMin (x : Args) (s : State) : Host.Outcome State Fault Refusal :=
  perform eMin x s fun e => intOp e (min e.ix e.iy)
def execMax (x : Args) (s : State) : Host.Outcome State Fault Refusal :=
  perform eMax x s fun e => intOp e (max e.ix e.iy)
def execAbs (x : Args) (s : State) : Host.Outcome State Fault Refusal :=
  perform eAbs x s fun e => intOp e (if e.ix < 0 then -e.ix else e.ix)
def execNeg (x : Args) (s : State) : Host.Outcome State Fault Refusal := perform eNeg x s fun e => intOp e (-e.ix)
def execMov (x : Args) (s : State) : Host.Outcome State Fault Refusal := perform eMov x s fun e => intOp e e.ix

/-- DIV (R97): truncation toward zero; the wrap of R95 gives the most negative value for its quotient by −1. -/
def execDiv (x : Args) (s : State) : Host.Outcome State Fault Refusal :=
  perform eDiv x s fun e => if e.iy = 0 then e.trap 8 else intOp e (e.ix.tdiv e.iy)
/-- REM (R97): takes the sign of x. -/
def execRem (x : Args) (s : State) : Host.Outcome State Fault Refusal :=
  perform eRem x s fun e => if e.iy = 0 then e.trap 8 else intOp e (e.ix - e.iy * e.ix.tdiv e.iy)

/-- MOVI (R98). -/
def execMovi (x : Args) (s : State) : Host.Outcome State Fault Refusal :=
  perform eMovi x s fun e => e.ret (extTy (tyN e.x) (immInt e.x).toNat)

/-- The field of EXTB and INSB (R99): its lowest bit and its width. -/
def bitPos (x : Args) : Nat := (x.ext.extractLsb' 0 6).toNat
def bitLen (x : Args) : Nat := min ((x.ext.extractLsb' 8 6).toNat + 1) (64 - bitPos x)

/-- EXTB (R99). -/
def execExtb (x : Args) (s : State) : Host.Outcome State Fault Refusal :=
  perform eExtb x s fun e =>
    let f := e.a.toNat / 2 ^ bitPos e.x
    e.ret (if tyN e.x = 0 then sextN f (bitLen e.x) else zextN f (bitLen e.x))

/-- INSB (R99): A with the field replaced by the low bits of B. -/
def execInsb (x : Args) (s : State) : Host.Outcome State Fault Refusal :=
  perform eInsb x s fun e =>
    let m : Word := BitVec.ofNat 64 ((2 ^ bitLen e.x - 1) * 2 ^ bitPos e.x)
    e.ret ((e.a &&& ~~~m) ||| ((e.b <<< bitPos e.x) &&& m))

/-- SEXT and ZEXT (R100): n − 1 in MOD[5:0]. -/
def execSext (x : Args) (s : State) : Host.Outcome State Fault Refusal :=
  perform eSext x s fun e => e.ret (sextN e.a.toNat (mN e.x % 64 + 1))
def execZext (x : Args) (s : State) : Host.Outcome State Fault Refusal :=
  perform eZext x s fun e => e.ret (zextN e.a.toNat (mN e.x % 64 + 1))

/-- The relations of R101 on exact numbers. -/
def intRel (r : Nat) (x y : Int) : Bool :=
  match r with
  | 0 => x == y
  | 1 => x != y
  | 2 => x < y
  | 3 => x ≤ y
  | 4 => x > y
  | _ => x ≥ y

/-- CMP (R101). -/
def execCmp (x : Args) (s : State) : Host.Outcome State Fault Refusal :=
  perform eCmp x s fun e => e.retP (intRel (mN e.x % 8) e.ix e.iy)

/-- SEL (R102): all 64 bits of A or B. -/
def execSel (x : Args) (s : State) : Host.Outcome State Fault Refusal :=
  perform eSel x s fun e => e.ret (if e.c != 0 then e.a else e.b)

/-- PSET (R103): bit 2·pA + pB of the table T in MOD[3:0]. -/
def execPset (x : Args) (s : State) : Host.Outcome State Fault Refusal :=
  perform ePset x s fun e => e.retP ((mN e.x).testBit (2 * (if e.a != 0 then 1 else 0) + (if e.b != 0 then 1 else 0)))

end Sys2Proof.Machine
end

