-- ==== Sys2Proof/Machine/AddrRegs.lean ====
section
/-! DEFINITION. The address-register instructions (R111 to R116). -/

namespace Sys2Proof.Machine

/-- Fields of PS (R91). -/
def AReg.space (a : AReg) : Nat := (a.ps.extractLsb' 6 2).toNat
def AReg.valid (a : AReg) : Bool := a.ps.getLsbD 5

/-- Every permission bit set in a mask of PS positions is set in the register. -/
def AReg.grants (a : AReg) (mask : BitVec 8) : Bool := (mask &&& ~~~a.ps) == 0

/-- [lo, lo + n) lies in the range of the register; sums are exact. -/
def AReg.holds (a : AReg) (lo n : Nat) : Bool := a.base.toNat ≤ lo && lo + n ≤ a.base.toNat + a.len.toNat

/-- The instruction completes with a whole address register for D. -/
def Env.retA (e : Env) (r : AReg) : Act := .next (e.upd fun p => p.wrAddr e.x.d.toNat r)

/-- AMK (R112). PS[0] is reserved and stays zero (R10, R91). An empty range [B, B) is contained where
BASE ≤ B ≤ BASE + LEN. (DEDUCED, log entry 65; unsafe.) -/
def execAmk (x : Args) (s : State) : Host.Outcome State Fault Refusal :=
  perform eAmk x s fun e =>
    let ps : BitVec 8 := BitVec.ofNat 8 (mN e.x) &&& 0xFE
    let new : AReg := { ps := ps, len := BitVec.ofNat 40 e.c.toNat, base := e.b, ptr := e.b }
    if e.x.a = 56 then
      if 2 ^ 40 ≤ e.c.toNat || 2 ^ 64 < e.b.toNat + e.c.toNat then e.trap 14 else e.retA new
    else
      let src := e.areg e.x.a
      if !src.valid || new.space != src.space || !src.grants (ps &&& 0x3E) then e.trap 15
      else if 2 ^ 40 ≤ e.c.toNat || !src.holds e.b.toNat e.c.toNat then e.trap 14
      else e.retA new

/-- ANAR (R113). -/
def execAnar (x : Args) (s : State) : Host.Outcome State Fault Refusal :=
  perform eAnar x s fun e =>
    let src := e.areg e.x.a
    e.retA { src with ps := src.ps &&& (BitVec.ofNat 8 (mN e.x) ||| 0xC1) }

/-- The advance of AADV (R114): B as s64, plus the extension as an offset. -/
def aadvBy (e : Env) : Int := e.b.toInt + (if e.x.len = .l64 then 0 else (offset e.x).toInt)

/-- AADV (R114): either fault puts the low 64 bits of the advanced pointer in CR.FADDR. -/
def execAadv (x : Args) (s : State) : Host.Outcome State Fault Refusal :=
  perform eAadv x s fun e =>
    let src := e.areg e.x.a
    let p : Int := src.ptr.toNat + aadvBy e
    if !src.valid then e.trap 15 0 (BitVec.ofInt 64 p)
    else
      if p < src.base.toNat || src.base.toNat + src.len.toNat < p then e.trap 13 0 (BitVec.ofInt 64 p)
      else e.retA { src with ptr := BitVec.ofInt 64 p }

/-- AGET (R115). -/
def execAget (x : Args) (s : State) : Host.Outcome State Fault Refusal :=
  perform eAget x s fun e =>
    let src := e.areg e.x.a
    e.ret (match mN e.x % 4 with
      | 0 => src.ptr
      | 1 => src.base
      | 2 => src.len.setWidth 64
      | _ => src.ps.setWidth 64)

/-- ASETP (R115). -/
def execAsetp (x : Args) (s : State) : Host.Outcome State Fault Refusal :=
  perform eAsetp x s fun e => e.retA { e.areg e.x.a with ptr := e.b }

/-- ACHK (R116). -/
def execAchk (x : Args) (s : State) : Host.Outcome State Fault Refusal :=
  perform eAchk x s fun e =>
    let src := e.areg e.x.a
    e.retP (src.valid && src.grants (BitVec.ofNat 8 (mN e.x) &&& 0x3E) && src.holds src.ptr.toNat e.b.toNat)

end Sys2Proof.Machine
end

