-- ==== Sys2Proof/Machine/Flags.lean ====
section
/-! DEFINITION. The five floating conditions, CR.FPC (R38), and what an instruction does with the conditions that it
raises (R42). -/

namespace Sys2Proof.Machine

/-- Conditions raised: invalid, divide by zero, overflow, underflow, inexact (R42). -/
structure Cond where
  nv : Bool := false
  dz : Bool := false
  of : Bool := false
  uf : Bool := false
  nx : Bool := false
  deriving DecidableEq, Repr

def Cond.or (a b : Cond) : Cond :=
  { nv := a.nv || b.nv, dz := a.dz || b.dz, of := a.of || b.of, uf := a.uf || b.uf, nx := a.nx || b.nx }

/-- The sticky flags FNV to FNX that the conditions set, CR.FPC[4:0] (R38). -/
def Cond.bits (c : Cond) : Word :=
  (if c.nv then 1 else 0) ||| (if c.dz then 2 else 0) ||| (if c.of then 4 else 0)
    ||| (if c.uf then 8 else 0) ||| (if c.nx then 16 else 0)

/-- CR.FPC.PAYL and RM (R38). -/
def fpcPayl (fpc : Word) : Bool := fpc.getLsbD 15
def fpcRm (fpc : Word) : Nat := (fpc.extractLsb' 12 2).toNat

/-- The lowest of causes 9 to 12 among the enabled conditions that arose (R42). -/
def trapCause (fpc : Word) (c : Cond) : Option Nat :=
  if c.nv && fpc.getLsbD 8 then some 9
  else if c.dz && fpc.getLsbD 9 then some 10
  else if c.of && fpc.getLsbD 10 then some 11
  else if c.uf && fpc.getLsbD 11 then some 12
  else none

/-- Any of TUF to TNV is set (R302). -/
def trapsOn (fpc : Word) : Bool := fpc.extractLsb' 8 4 != 0

/-- The conditions are ORed into FNX to FNV (R42). -/
def Proc.raiseFlags (p : Proc) (c : Cond) : Proc := { p with fpc := p.fpc ||| c.bits }

/-- The end of a floating instruction (R42): the flags are set; where an enabled condition arose nothing is written
and the fault is raised, otherwise the result is written. -/
def Env.finishFp (e : Env) (c : Cond) (write : Proc → Proc) : Act :=
  match trapCause e.p.fpc c with
  | some k => .fault (e.s0.modProc e.pid fun p => p.raiseFlags c) { cause := k }
  | none => .next (e.upd fun p => write (p.raiseFlags c))

/-- The rounding mode of an instruction: RND, or CR.FPC.RM where RND is 000 (R69): 0 nearest-even, 1 toward zero,
2 up, 3 down. -/
def modeOf (rnd : Nat) (fpc : Word) : Nat := if rnd = 0 then fpcRm fpc else rnd - 1

def Env.mode (e : Env) : Nat := modeOf (rndOf .modw e.x).toNat e.p.fpc

end Sys2Proof.Machine
end

