-- ==== Sys2Proof/Machine/Float.lean ====
section
/-! DEFINITION. The floating formats and their operations (R30 to R46): decoding to exact values, one rounding back,
NaN results, conversions and comparisons. -/

namespace Sys2Proof.Machine

/-- A floating format (R30): exponent and fraction bits, bias, Emax, and which special values it has. -/
structure Fmt where
  ew : Nat
  fw : Nat
  bias : Int
  emax : Int
  inf : Bool
  nan : Bool
  deriving DecidableEq, Repr

/-- The formats by their code of R68, 0 to 8. -/
def fmtOf (c : Nat) : Fmt :=
  match c with
  | 0 => ⟨11, 52, 1023, 1023, true, true⟩
  | 1 => ⟨8, 23, 127, 127, true, true⟩
  | 2 => ⟨8, 7, 127, 127, true, true⟩
  | 3 => ⟨5, 10, 15, 15, true, true⟩
  | 4 => ⟨4, 3, 7, 8, false, true⟩
  | 5 => ⟨5, 2, 15, 15, true, true⟩
  | 6 => ⟨3, 2, 3, 4, false, false⟩
  | 7 => ⟨2, 3, 1, 2, false, false⟩
  | _ => ⟨2, 1, 1, 2, false, false⟩

/-- The format of a floating type code of R67, 8 to 13. -/
def fmtTy (t : Nat) : Fmt :=
  match t with
  | 8 => fmtOf 0
  | 9 => fmtOf 1
  | 10 => fmtOf 2
  | 11 => fmtOf 3
  | 12 => fmtOf 4
  | _ => fmtOf 5

def Fmt.width (f : Fmt) : Nat := 1 + f.ew + f.fw

/-- Exponent of the smallest normal. -/
def Fmt.emin (f : Fmt) : Int := 1 - f.bias

/-- A decoded value: a NaN with its sign, whether it signals, its fraction and the fraction's width; an infinity;
or the exact finite value ±m · 2^e. -/
inductive FVal where
  | nan (neg sig : Bool) (frac fw : Nat)
  | inf (neg : Bool)
  | fin (neg : Bool) (m : Nat) (e : Int)
  deriving DecidableEq, Repr

/-- The value of an encoding (R30, R31). -/
def Fmt.decode (f : Fmt) (bits : Nat) : FVal :=
  let frac := bits % 2 ^ f.fw
  let ex := bits / 2 ^ f.fw % 2 ^ f.ew
  let neg := bits.testBit (f.ew + f.fw)
  let ones := ex = 2 ^ f.ew - 1
  if ones ∧ f.nan ∧ !f.inf ∧ frac = 2 ^ f.fw - 1 then .nan neg false frac f.fw
  else if ones ∧ f.inf then
    if frac = 0 then .inf neg else .nan neg (!frac.testBit (f.fw - 1)) frac f.fw
  else if ex = 0 then .fin neg frac (f.emin - f.fw)
  else .fin neg (2 ^ f.fw + frac) ((ex : Int) - f.bias - f.fw)

/-- The canonical quiet NaN (R31); +0 in a format without NaN. -/
def Fmt.qnan (f : Fmt) : Nat :=
  if !f.nan then 0
  else if !f.inf then (2 ^ f.ew - 1) * 2 ^ f.fw + (2 ^ f.fw - 1)
  else (2 ^ f.ew - 1) * 2 ^ f.fw + 2 ^ (f.fw - 1)

def Fmt.signBit (f : Fmt) (neg : Bool) : Nat := if neg then 2 ^ (f.ew + f.fw) else 0
def Fmt.infBits (f : Fmt) (neg : Bool) : Nat := f.signBit neg + (2 ^ f.ew - 1) * 2 ^ f.fw

/-- Significand of the largest finite value, in units of 2^(Emax − fw): a format with NaN and no infinity gives up
the all-ones fraction. -/
def Fmt.maxSig (f : Fmt) : Nat := 2 ^ (f.fw + 1) - (if f.nan && !f.inf then 2 else 1)

/-- The encoding of sig · 2^q with sig at most 2^(fw + 1) and q the spacing that rounding took. -/
def Fmt.pack (f : Fmt) (neg : Bool) (sig : Nat) (q : Int) : Nat :=
  let (sig, q) := if sig = 2 ^ (f.fw + 1) then (2 ^ f.fw, q + 1) else (sig, q)
  if sig < 2 ^ f.fw then f.signBit neg + sig
  else f.signBit neg + (q + f.fw + f.bias).toNat * 2 ^ f.fw + (sig - 2 ^ f.fw)

def Fmt.maxBits (f : Fmt) (neg : Bool) : Nat := f.pack neg f.maxSig (f.emax - f.fw)

/-- A result with the conditions it raises. -/
structure FRes where
  bits : Nat
  c : Cond := {}
  deriving DecidableEq, Repr

/-- Step 2 of R39: the overflow result of a mode; `sat` takes the column of a format without infinity for e5m2, f16 and
bf16 too, and changes nothing for f64 and f32. -/
def Fmt.overflowBits (f : Fmt) (mode : Nat) (neg sat : Bool) : Nat :=
  if !f.inf || (sat && f.width ≤ 16) then f.maxBits neg
  else if mode = 0 || (mode = 2 && !neg) || (mode = 3 && neg) then f.infBits neg
  else f.maxBits neg

/-- Whether a magnitude sig + (rest) rounds away from zero: `rem` of `den` left, with `sticky` for anything below. -/
def roundsAway (mode : Nat) (neg : Bool) (sig rem den : Nat) (sticky : Bool) : Bool :=
  match mode with
  | 0 => rem * 2 > den || (rem * 2 == den && (sticky || sig % 2 == 1))
  | 1 => false
  | 2 => !neg && (rem != 0 || sticky)
  | _ => neg && (rem != 0 || sticky)

/-- Rounding of m · 2^e to a multiple of 2^q: the significand and whether anything was lost. -/
def quantize (mode : Nat) (neg : Bool) (m : Nat) (e q : Int) (sticky : Bool) : Nat × Bool :=
  if q ≤ e then (m * 2 ^ (e - q).toNat, sticky)
  else
    let den := 2 ^ (q - e).toNat
    let sig := m / den
    let rem := m % den
    (sig + (if roundsAway mode neg sig rem den sticky then 1 else 0), rem != 0 || sticky)

/-- round() of R39 of the value ±(m + t) · 2^e, with t in (0, 1) where `sticky` is set and 0 otherwise; a zero takes
the sign given. `sticky` is set only where m has more bits than the format keeps. -/
def Fmt.round (f : Fmt) (mode : Nat) (neg : Bool) (m : Nat) (e : Int) (sticky : Bool := false)
    (sat : Bool := false) : FRes :=
  if m = 0 then { bits := f.signBit neg }
  else
    let ex := (Nat.log2 m : Int) + e
    let q := max (ex - f.fw) (f.emin - f.fw)
    let r := quantize mode neg m e q sticky
    let tooBig := if q ≤ f.emax - f.fw then f.maxSig * 2 ^ (f.emax - f.fw - q).toNat < r.1 else true
    if tooBig then { bits := f.overflowBits mode neg sat, c := { of := true, nx := true } }
    else
      let tiny := ex < f.emin && (quantize mode neg m e (ex - f.fw) sticky).1 * 2 ^ (ex - f.emin + 1).toNat < 2 ^ (f.fw + 1)
      let tiny := tiny || ex < f.emin - 1
      { bits := f.pack neg r.1 q, c := { nx := r.2, uf := r.2 && tiny } }

/-- A NaN converted to the format with its quiet bit set (R43). -/
def Fmt.nanBits (f : Fmt) (neg : Bool) (frac fw : Nat) : Nat :=
  if !f.nan then 0
  else if !f.inf then f.signBit neg + f.qnan
  else
    let q := frac ||| 2 ^ (fw - 1)
    f.infBits neg + (if fw ≤ f.fw then q * 2 ^ (f.fw - fw) else q / 2 ^ (fw - f.fw))

def FVal.isNan : FVal → Bool
  | .nan _ _ _ _ => true
  | _ => false
def FVal.isSig : FVal → Bool
  | .nan _ s _ _ => s
  | _ => false
def FVal.isInf : FVal → Bool
  | .inf _ => true
  | _ => false
def FVal.isZero : FVal → Bool
  | .fin _ 0 _ => true
  | _ => false
def FVal.neg : FVal → Bool
  | .nan n _ _ _ => n
  | .inf n => n
  | .fin n _ _ => n

/-- A NaN result from operands in order (R43): the canonical quiet NaN, or under PAYL the first NaN operand quieted;
a signalling operand raises invalid. -/
def Fmt.nanOf (f : Fmt) (payl : Bool) (vs : List FVal) (inv : Bool := false) : FRes :=
  let c : Cond := { nv := inv || vs.any FVal.isSig }
  match payl, vs.find? FVal.isNan with
  | true, some (.nan n _ fr fw) => { bits := f.nanBits n fr fw, c := c }
  | _, _ => { bits := f.qnan, c := c }

/-- An invalid operation without a NaN operand (R43). -/
def Fmt.invalid (f : Fmt) : FRes := { bits := f.qnan, c := { nv := true } }

/-- Exact signed sum of two finite values: as ±m · 2^e with the sign a zero would take (R39). -/
def addExact (mode : Nat) (n1 : Bool) (m1 : Nat) (e1 : Int) (n2 : Bool) (m2 : Nat) (e2 : Int) : Bool × Nat × Int :=
  let e := min e1 e2
  let a : Int := (m1 * 2 ^ (e1 - e).toNat : Nat)
  let b : Int := (m2 * 2 ^ (e2 - e).toNat : Nat)
  let t := (if n1 then -a else a) + (if n2 then -b else b)
  if t = 0 then (if n1 == n2 then n1 else mode == 3, 0, e)
  else (t < 0, t.natAbs, e)

/-- x + y (R105). -/
def Fmt.add (f : Fmt) (mode : Nat) (payl : Bool) (x y : FVal) : FRes :=
  if x.isNan || y.isNan then f.nanOf payl [x, y]
  else match x, y with
    | .inf a, .inf b => if a == b then { bits := f.infBits a } else f.invalid
    | .inf a, _ => { bits := f.infBits a }
    | _, .inf b => { bits := f.infBits b }
    | .fin n1 m1 e1, .fin n2 m2 e2 =>
      let r := addExact mode n1 m1 e1 n2 m2 e2
      f.round mode r.1 r.2.1 r.2.2
    | _, _ => f.invalid

/-- Sign inversion of a value. -/
def FVal.negate : FVal → FVal
  | .nan n s fr fw => .nan n s fr fw
  | .inf n => .inf !n
  | .fin n m e => .fin (!n) m e

/-- x − y (R105): a NaN operand keeps its sign. -/
def Fmt.sub (f : Fmt) (mode : Nat) (payl : Bool) (x y : FVal) : FRes := f.add mode payl x y.negate

/-- x · y (R105). -/
def Fmt.mul (f : Fmt) (mode : Nat) (payl : Bool) (x y : FVal) : FRes :=
  if x.isNan || y.isNan then f.nanOf payl [x, y]
  else match x, y with
    | .fin n1 m1 e1, .fin n2 m2 e2 => f.round mode (n1 != n2) (m1 * m2) (e1 + e2)
    | _, _ => if x.isZero || y.isZero then f.invalid else { bits := f.infBits (x.neg != y.neg) }

/-- x · y + c rounded once (R105): 0 · ∞ raises invalid even where c is a NaN. -/
def Fmt.fma (f : Fmt) (mode : Nat) (payl : Bool) (x y c : FVal) : FRes :=
  let bad := (x.isZero && y.isInf) || (x.isInf && y.isZero)
  if x.isNan || y.isNan || c.isNan then f.nanOf payl [x, y, c] bad
  else if bad then f.invalid
  else match x, y, c with
    | .fin n1 m1 e1, .fin n2 m2 e2, .fin n3 m3 e3 =>
      let r := addExact mode (n1 != n2) (m1 * m2) (e1 + e2) n3 m3 e3
      f.round mode r.1 r.2.1 r.2.2
    | .fin _ _ _, .fin _ _ _, .inf n => { bits := f.infBits n }
    | _, _, .inf n => if n == (x.neg != y.neg) then { bits := f.infBits n } else f.invalid
    | _, _, _ => { bits := f.infBits (x.neg != y.neg) }

/-- x / y (R105). -/
def Fmt.div (f : Fmt) (mode : Nat) (payl : Bool) (x y : FVal) : FRes :=
  let n := x.neg != y.neg
  if x.isNan || y.isNan then f.nanOf payl [x, y]
  else match x, y with
    | .inf _, .inf _ => f.invalid
    | .inf _, _ => { bits := f.infBits n }
    | _, .inf _ => { bits := f.signBit n }
    | .fin _ m1 e1, .fin _ m2 e2 =>
      if m2 = 0 then
        if m1 = 0 then f.invalid else { bits := f.infBits n, c := { dz := true } }
      else
        let k := f.fw + 4 + Nat.log2 m2
        f.round mode n (m1 * 2 ^ k / m2) (e1 - e2 - k) (m1 * 2 ^ k % m2 != 0)
    | _, _ => f.invalid

/-- Integer square root, from bit `n` down. -/
def isqrtFrom (v : Nat) : Nat → Nat → Nat
  | 0, r => r
  | n + 1, r =>
    let t := r + 2 ^ n
    isqrtFrom v n (if t * t ≤ v then t else r)

def isqrt (v : Nat) : Nat := isqrtFrom v (Nat.log2 v / 2 + 1) 0

/-- √x (R105): √−0 is −0. -/
def Fmt.sqrt (f : Fmt) (mode : Nat) (payl : Bool) (x : FVal) : FRes :=
  match x with
  | .nan _ _ _ _ => f.nanOf payl [x]
  | .inf n => if n then f.invalid else { bits := f.infBits false }
  | .fin n m e =>
    if m = 0 then { bits := f.signBit n }
    else if n then f.invalid
    else
      let (m, e) := if e % 2 = 0 then (m, e) else (2 * m, e - 1)
      let k := f.fw + 3
      let r := isqrt (m * 4 ^ k)
      f.round mode false r (e / 2 - k) (r * r != m * 4 ^ k)

/-- Order of two values that are no NaN, −0 below +0: true when x is less. -/
def FVal.less (x y : FVal) : Bool :=
  match x, y with
  | .inf a, .inf b => a && !b
  | .inf a, _ => a
  | _, .inf b => !b
  | .fin n1 m1 e1, .fin n2 m2 e2 =>
    let e := min e1 e2
    let a := m1 * 2 ^ (e1 - e).toNat
    let b := m2 * 2 ^ (e2 - e).toNat
    if n1 != n2 then n1 else if n1 then b < a else a < b
  | _, _ => false

/-- Equality of two values that are no NaN, −0 equal to +0. -/
def FVal.same (x y : FVal) : Bool := (x.isZero && y.isZero) || (!x.less y && !y.less x)

/-- Minimum or maximum (R46). -/
def Fmt.minMax (f : Fmt) (payl mx : Bool) (xb yb : Nat) : FRes :=
  let x := f.decode xb
  let y := f.decode yb
  if x.isNan || y.isNan then f.nanOf payl [x, y]
  else if mx then { bits := if x.less y then yb else xb } else { bits := if y.less x then yb else xb }

/-- The relations of R101 and R106 on floating values, with invalid (R46). -/
def fltRel (r : Nat) (x y : FVal) : Bool × Cond :=
  let un := x.isNan || y.isNan
  let inv := x.isSig || y.isSig || (un && 2 ≤ r && r ≤ 5)
  let eq := x.same y
  let lt := x.less y && !eq
  let v := match r with
    | 0 => !un && eq
    | 1 => un || !eq
    | 2 => !un && lt
    | 3 => !un && (lt || eq)
    | 4 => !un && !lt && !eq
    | 5 => !un && !lt
    | _ => un
  (v, { nv := inv })

/-- A zero that a conversion rounds by round() is neither a sum nor a product, hence +0 (R39). -/
def FVal.plain (x : FVal) : FVal :=
  match x with
  | .fin _ 0 e => .fin false 0 e
  | x => x

/-- Conversion of a value to a format (R39, R43, R44): `sat` takes saturation on overflow. The sign of a zero stays; the
conversions make it + before. (DEDUCED, log entry 64; unsafe.) -/
def Fmt.convert (f : Fmt) (mode : Nat) (payl sat : Bool) (x : FVal) : FRes :=
  match x with
  | .nan _ _ _ _ =>
    if f.nan then f.nanOf payl [x] else { bits := 0, c := { nv := true } }
  | .inf n => if f.inf then { bits := f.infBits n } else { bits := f.maxBits n, c := { nv := true } }
  | .fin n m e => f.round mode n m e false sat

/-- Rounding of a finite value to an integer: the signed integer and whether it is inexact. -/
def roundInt (mode : Nat) (n : Bool) (m : Nat) (e : Int) : Int × Bool :=
  let r := quantize mode n m e 0 false
  (if n then -(r.1 : Int) else (r.1 : Int), r.2)

/-- Floating to integer with bounds (R45). -/
def toInteger (mode : Nat) (lo hi : Int) (x : FVal) : Int × Cond :=
  match x with
  | .nan _ _ _ _ => (0, { nv := true })
  | .inf n => (if n then lo else hi, { nv := true })
  | .fin n m e =>
    let r := roundInt mode n m e
    if r.1 < lo then (lo, { nv := true }) else if hi < r.1 then (hi, { nv := true })
    else (r.1, { nx := r.2 })

/-- An exact integer rounded once: inexact and overflow only (R42). -/
def Fmt.ofInt (f : Fmt) (mode : Nat) (v : Int) : FRes :=
  let r := f.round mode (v < 0) v.natAbs 0
  { r with c := { of := r.c.of, nx := r.c.nx } }

/-- Rounding to an integral value in the value's own format (R109); a zero that a nonzero value comes to keeps that
value's sign. (DEDUCED, log entry 64; unsafe.) -/
def Fmt.integral (f : Fmt) (mode : Nat) (payl : Bool) (bits : Nat) : FRes :=
  match f.decode bits with
  | .nan n s fr fw => f.nanOf payl [.nan n s fr fw]
  | .inf _ => { bits := bits }
  | .fin n m e =>
    let r := quantize mode n m e 0 false
    if !r.2 then { bits := bits } else { bits := (f.round 1 n r.1 0).bits, c := { nx := true } }

/-- The class mask of R110. -/
def Fmt.classify (f : Fmt) (bits : Nat) : Nat :=
  match f.decode bits with
  | .nan _ s _ _ => if s then 256 else 512
  | .inf n => if n then 1 else 128
  | .fin n m _ =>
    if m = 0 then (if n then 8 else 16)
    else if m < 2 ^ f.fw then (if n then 4 else 32)
    else (if n then 2 else 64)

/-- Conversion of a floating immediate to the operation's format (R72): nearest-even, no condition; a NaN becomes
the canonical quiet NaN. -/
def immFloat (x : Args) (f : Fmt) : Nat :=
  let v := match x.len with
    | .l64 => (fmtOf 3).decode (x.im21.toNat % 65536)
    | .l96 => (fmtOf 1).decode (x.ext.toNat % 2 ^ 32)
    | .l128 => (fmtOf 0).decode x.ext.toNat
  (f.convert 0 false false v).bits

end Sys2Proof.Machine
end

