-- ==== Sys2Proof/Machine/Distill.lean ====
section
/-! DEFINITION. Distill blocks (R151, R152): the integers of a block of 256 values, and the encoded bytes. -/

namespace Sys2Proof.Machine

/-- True where m1 · 2^e1 > m2 · 2^e2. -/
def exceeds (m1 : Nat) (e1 : Int) (m2 : Nat) (e2 : Int) : Bool :=
  let e := min e1 e2
  m2 * 2 ^ (e2 - e).toNat < m1 * 2 ^ (e1 - e).toNat

/-- Format and bytes of a value: f64 where `dbl`, otherwise f32. -/
def dFmt (dbl : Bool) : Fmt := if dbl then fmtOf 0 else fmtOf 1
def dSize (dbl : Bool) : Nat := if dbl then 8 else 4

/-- q of one value, or none where the value escapes (R151). -/
def distillQ (f : Fmt) (e : Int) (bits : Nat) : Option Int :=
  match f.decode bits with
  | .fin n m x =>
    let q := (quantize 0 n m x (e + 1) false).1
    if 2 ^ 62 ≤ q || exceeds q (e + 1) f.maxSig (f.emax - f.fw) then none
    else some (if n then -(q : Int) else q)
  | _ => none

/-- The integers z of a block after `prev`, none at an escape (R151). -/
def distillZ (f : Fmt) (e : Int) : List Nat → Int → List (Option Nat)
  | [], _ => []
  | v :: t, prev =>
    match distillQ f e v with
    | none => none :: distillZ f e t prev
    | some q =>
      let d := q - prev
      some (if 0 ≤ d then (2 * d).toNat else (-2 * d - 1).toNat) :: distillZ f e t q

/-- Smallest width that holds every value, 0 to 64. -/
def bitWidth (zs : List Nat) : Nat := zs.foldl (fun w z => max w (if z = 0 then 0 else Nat.log2 z + 1)) 0

/-- The list in groups of `n`, `k` of them. -/
def groupsOf {α : Type} (n : Nat) : Nat → List α → List (List α)
  | 0, _ => []
  | k + 1, l => l.take n :: groupsOf n k (l.drop n)

/-- Values of one width packed low bit first: the number and the bits used. -/
def packBits (w : Nat) : List Nat → Nat
  | [] => 0
  | z :: t => z + 2 ^ w * packBits w t

/-- The payload of eight groups with their widths. -/
def packGroups : List (Nat × List Nat) → Nat
  | [] => 0
  | (w, zs) :: t => packBits w zs + 2 ^ (w * zs.length) * packGroups t

/-- The widths W_0 to W_7 as header word 1. -/
def widthWord : List Nat → Nat
  | [] => 0
  | w :: t => w + 128 * widthWord t

/-- Bytes of the payload: a multiple of 8. -/
def payloadBytes (ws : List Nat) : Nat := ((ws.map (32 * ·)).sum + 63) / 64 * 8

/-- SIZE that the widths and the number of escapes give (R152). -/
def blockSize (ws : List Nat) (nesc : Nat) (dbl : Bool) : Nat :=
  16 + payloadBytes ws + (if nesc = 0 then 0 else 32 + (nesc * dSize dbl + 7) / 8 * 8)

/-- One encoded block (R152). -/
def encodeBlock (dbl : Bool) (e : Int) (vals : List Nat) : List Byte :=
  let zs := distillZ (dFmt dbl) e vals 0
  let esc := (vals.zip zs).filterMap fun v => if v.2.isNone then some v.1 else none
  let groups := groupsOf 32 8 (zs.map (·.getD 0))
  let ws := groups.map bitWidth
  let nesc := esc.length
  let size := blockSize ws nesc dbl
  let w0 := size * 2 ^ 32 + (e % 65536).toNat * 2 ^ 16 + (if dbl then 2 ^ 14 else 0) + nesc
  let bitmap := packBits 1 (zs.map fun z => if z.isNone then 1 else 0)
  natBytes 8 w0 ++ natBytes 8 (widthWord ws) ++ natBytes (payloadBytes ws) (packGroups (ws.zip groups)) ++
    (if nesc = 0 then []
     else natBytes 32 bitmap ++ natBytes ((nesc * dSize dbl + 7) / 8 * 8) (packBits (8 * dSize dbl) esc))

/-- What the header of a block says: widths, E, NESC and SIZE, where it is well formed for the type (R153). -/
structure BlockHead where
  ws : List Nat
  e : Int
  nesc : Nat
  size : Nat
  deriving DecidableEq, Repr

def blockHead (dbl : Bool) (bs : List Byte) : Option BlockHead :=
  let w0 := bytesNat (bs.take 8)
  let w1 := bytesNat ((bs.drop 8).take 8)
  let ws := (List.range 8).map fun g => w1 / 2 ^ (7 * g) % 128
  let nesc := w0 % 512
  let eRaw : Nat := w0 / 2 ^ 16 % 2 ^ 16
  let h : BlockHead := { ws := ws, e := if eRaw < 2 ^ 15 then (eRaw : Int) else (eRaw : Int) - 2 ^ 16, nesc := nesc, size := w0 / 2 ^ 32 }
  if w0 / 2 ^ 14 % 4 != (if dbl then 1 else 0) || w0 / 2 ^ 9 % 32 != 0 || w1 / 2 ^ 56 != 0 || ws.any (64 < ·)
      || h.size != blockSize ws nesc dbl then none
  else some h

/-- The values z of a payload, by group widths. -/
def unpackGroups (v : Nat) : List Nat → List Nat
  | [] => []
  | w :: t => ((List.range 32).map fun j => v / 2 ^ (j * w) % 2 ^ w) ++ unpackGroups (v / 2 ^ (32 * w)) t

/-- The outputs of a block (R151): `esc` tells the escapes, `vals` holds their values. -/
def undistill (f : Fmt) (e : Int) : List (Bool × Nat) → List Nat → Int → List Nat
  | [], _, _ => []
  | (true, _) :: t, vals, prev => vals.headD 0 :: undistill f e t vals.tail prev
  | (false, z) :: t, vals, prev =>
    let d : Int := if z % 2 = 0 then ((z / 2 : Nat) : Int) else -(((z + 1) / 2 : Nat) : Int)
    let p := (prev + d).bmod (2 ^ 64)
    (f.round 0 (p < 0) p.natAbs (e + 1)).bits :: undistill f e t vals p

/-- The 256 values of a whole block; none where NESC differs from the bitmap (R153). -/
def decodeBlock (dbl : Bool) (h : BlockHead) (bs : List Byte) : Option (List Nat) :=
  let pay := bytesNat ((bs.drop 16).take (payloadBytes h.ws))
  let rest := bs.drop (16 + payloadBytes h.ws)
  let bitmap := if h.nesc = 0 then 0 else bytesNat (rest.take 32)
  let esc := (List.range 256).map bitmap.testBit
  let vals := groupsOf (dSize dbl) h.nesc (rest.drop 32)
  if (esc.filter id).length != h.nesc then none
  else some (undistill (dFmt dbl) h.e (esc.zip (unpackGroups pay h.ws)) (vals.map bytesNat) 0)

end Sys2Proof.Machine
end

