-- ==== Sys2Proof/Machine/Erasure.lean ====
section
/-! DEFINITION. The erasure code of R369: fragments and parity of a message, and its rebuilding from any k′ fragments. -/

namespace Sys2Proof.Machine

/-- Doubling in GF(2^8) under 0x11D (R369). -/
def gfDouble (a : Nat) : Nat := if a < 128 then 2 * a else (2 * a) ^^^ 0x11D

/-- The product in GF(2^8): the low `n` bits of `b` weigh `a` and its doubles. -/
def gfMulFrom (a b : Nat) : Nat → Nat
  | 0 => 0
  | n + 1 => (if b % 2 = 1 then a else 0) ^^^ gfMulFrom (gfDouble a) (b / 2) n

def gfMul (a b : Nat) : Nat := gfMulFrom a b 8

/-- The inverse: the power 254 of a nonzero element. -/
def gfPow (a : Nat) : Nat → Nat
  | 0 => 1
  | n + 1 => gfMul a (gfPow a n)

def gfInv (a : Nat) : Nat := gfPow a 254

/-- The coefficient of data fragment `i` in parity fragment `j` (R369). -/
def parityCoef (j i : Nat) : Nat := gfMul (0x80 + j) (gfInv ((0x80 + j) ^^^ i))

/-- k′ of a message of `len` bytes under the rate's k, at least what holds the message (R369). -/
def fragCount (k len : Nat) : Nat :=
  let n := (len + 255) / 256
  max 1 (if 256 * k < len then n else min k n)

/-- The fragment size F (R369). -/
def fragSize (kp len : Nat) : Nat := if 1 < kp then 256 else 64 * ((len + 63) / 64)

/-- `n` bytes of a list from an offset, padded with zero bytes. -/
def padded (bs : List Byte) (off n : Nat) : List Byte :=
  let t := (bs.drop off).take n
  t ++ List.replicate (n - t.length) 0

/-- Data fragments of a message. -/
def dataFrags (kp : Nat) (bs : List Byte) : List (List Byte) :=
  let f := fragSize kp bs.length
  (List.range kp).map fun i => padded bs (f * i) f

/-- A row scaled by an element, and two rows added. -/
def gfScale (c : Nat) (r : List Byte) : List Byte := r.map fun b => BitVec.ofNat 8 (gfMul c b.toNat)
def gfAdd (r t : List Byte) : List Byte := List.zipWith (· ^^^ ·) r t

/-- Parity fragment `j` over the data fragments. -/
def parityFrag (j : Nat) (ds : List (List Byte)) : List Byte :=
  if ds.length = 1 then ds.headD []
  else (ds.zipIdx.map fun (d : List Byte × Nat) => gfScale (parityCoef j d.2) d.1).foldl gfAdd
    (List.replicate (ds.headD []).length 0)

/-- All fragments of a message in order of IDX (R369). -/
def encodeFrags (kp m : Nat) (bs : List Byte) : List (List Byte) :=
  let ds := dataFrags kp bs
  ds ++ (List.range m).map fun j => parityFrag j ds

/-- The row of coefficients that a fragment stands for. -/
def fragRow (kp idx : Nat) : List Byte :=
  (List.range kp).map fun i =>
    if idx < kp then (if i = idx then 1 else 0) else BitVec.ofNat 8 (parityCoef (idx - kp) i)

/-- Gauss–Jordan elimination over rows of coefficients followed by data, column by column. -/
def gfSolve (rows : List (List Byte)) : Nat → Nat → List (List Byte)
  | 0, _ => rows
  | n + 1, c =>
    match rows.zipIdx.find? fun (r : List Byte × Nat) => c ≤ r.2 && r.1.getD c 0 != 0 with
    | none => rows
    | some (r, k) =>
      let p := gfScale (gfInv (r.getD c 0).toNat) r
      let swapped := listSet (listSet rows k (rows.getD c [])) c p
      gfSolve (swapped.zipIdx.map fun (q : List Byte × Nat) =>
        if q.2 = c then q.1 else gfAdd q.1 (gfScale (q.1.getD c 0).toNat p)) n (c + 1)

/-- The message of `len` bytes that k′ fragments determine (R369); with k′ = 1 every fragment is the message. -/
def rebuild (kp len : Nat) (frags : Tbl (List Byte)) : List Byte :=
  let fs := frags.take kp
  let whole := if kp = 1 then (fs.map (·.2)).flatten
    else if fs.all fun f => f.1 < kp then (fs.map (·.2)).flatten
    else ((gfSolve (fs.map fun (f : Nat × List Byte) => fragRow kp f.1 ++ f.2) kp 0).map (List.drop kp ·)).flatten
  whole.take len

end Sys2Proof.Machine
end

