-- ==== Sys2Proof/Machine/Control.lean ====
section
/-! DEFINITION. The control and system instructions, group 0x40 (R117 to R124), and the control registers by number
(R92). -/

namespace Sys2Proof.Machine

/-- The target of BRA and CALL (R117): p + 4 · off. -/
def branchTarget (x : Args) (p : Word) : Word := p + 4 * immRaw x true

/-- The target of JMP and CALLR (R118). -/
def jumpTarget (e : Env) : Word := e.a + sextN e.x.im21.toNat 21

def execBra (x : Args) (s : State) : Host.Outcome State Fault Refusal :=
  perform eBra x s fun e => .jump e.s (branchTarget e.x e.p.pc)

def execJmp (x : Args) (s : State) : Host.Outcome State Fault Refusal :=
  perform eJmp x s fun e => .jump e.s (jumpTarget e)

/-- What a slide comes to within an instruction; a slide that spills or fills takes 6 core cycles more, so fault 33
inside a packet (R86, R222). -/
def Env.slid (e : Env) (sl : Slide) (go : State → Act) : Act :=
  match sl with
  | .done s =>
    let spilt := match s.proc e.pid with
      | some q => q.res == e.p.res
      | none => false
    if e.p.packet.isSome && spilt then e.trap 33 else go s
  | .fault f => .fault e.s0 f
  | .wait rs => .park e.s0 .fullBit (.landed rs)
  | .stall => .stall e.s0

/-- CALL and CALLR (R118): the window slides in and the link goes to the new w7. -/
def callTo (e : Env) (target : Word) : Act :=
  e.slid (e.s.slideIn e.pid) fun s =>
    .jump (s.modProc e.pid fun p => p.wrOp 7 (e.p.nextPc e.x)) target

def execCall (x : Args) (s : State) : Host.Outcome State Fault Refusal :=
  perform eCall x s fun e => callTo e (branchTarget e.x e.p.pc)

def execCallr (x : Args) (s : State) : Host.Outcome State Fault Refusal :=
  perform eCallr x s fun e => callTo e (jumpTarget e)

/-- RET (R119): a pending w7 parks. -/
def execRet (x : Args) (s : State) : Host.Outcome State Fault Refusal :=
  perform eRet x s fun e =>
    let w7 : RName := .w (24 * e.p.level + 7)
    if e.p.pending.contains w7 then .park e.s0 .fullBit (.landed [w7])
    else e.slid (e.s.slideOut e.pid) fun s => .jump s (e.p.scalar 7)

def execNop (x : Args) (s : State) : Host.Outcome State Fault Refusal := perform eNop x s fun e => .next e.s

/-- TRAP and BRK (R120): the code goes to CR.CAUSE.INFO. -/
def execTrap (x : Args) (s : State) : Host.Outcome State Fault Refusal :=
  perform eTrap x s fun e => e.trap 6 (e.x.im21.toNat % 65536)
def execBrk (x : Args) (s : State) : Host.Outcome State Fault Refusal :=
  perform eBrk x s fun e => e.trap 5 (e.x.im21.toNat % 65536)

/-- ERET (R121). -/
def execEret (x : Args) (s : State) : Host.Outcome State Fault Refusal :=
  perform eEret x s fun e =>
    if !e.p.thdlAct then e.trap 4
    else e.slid (e.s.slideOut e.pid) fun s => .jump (s.modProc e.pid Proc.handlerReturn) e.p.epc

/-! ### Control registers -/

/-- The logical die of a process. -/
def Proc.die (p : Proc) : Nat := coreDie p.core

/-- CR.WSTAT (R89). -/
def Proc.wstat (p : Proc) : Word := BitVec.ofNat 64 (p.level * 2 ^ 16 + p.depth * 2 ^ 7 + p.res)

/-- The persistent cap of a die, from its installed record (R383, R390); 1,000, which is none, before it has one. -/
def State.pcap (s : State) (d : Nat) : Nat :=
  if (s.die d).map.isEmpty then 1000 else ((tblGetD (s.die d).map (32 + 32 * (s.die d).phys) 0).extractLsb' 32 16).toNat

/-- CR.CLKCAP (R390). -/
def State.clkcap (s : State) (d : Nat) : Word :=
  BitVec.ofNat 64 (s.pcap d * 2 ^ 32 + (s.die d).trans * 2 ^ 16 + min 1000 (min (s.pcap d) (s.die d).trans))

/-- CR.RMVER (R189). -/
def State.rmver (s : State) (d ctx : Nat) : Word :=
  BitVec.ofNat 64 ((tblGetD (s.die d).map 0 0).toNat % 2 ^ 32 * 2 ^ 32 + tblGetD (s.ctx ctx).ack d 0 % 2 ^ 32)

/-- CR.OLOG (R191). -/
def State.olog (s : State) (d ctx : Nat) : Word :=
  let c := s.ctx ctx
  BitVec.ofNat 64 (c.dmode * 2 ^ 62 + (if c.logFull then 2 ^ 61 else 0) + tblGetD c.logEnt d 0 % 2 ^ 32)

/-- CR.WDOG (R187). -/
def State.wdogWord (s : State) (ctx : Nat) : Word := BitVec.ofNat 64 ((s.ctx ctx).wdLimit * 2 ^ 32 + (s.ctx ctx).wdCeil)

/-- CR.DECWIN (R381). -/
def State.decwin (s : State) (d : Nat) : Word := BitVec.ofNat 64 ((s.die d).ackw * 2 ^ 32 + (s.die d).win)

/-- The value of a control register by its number (R92). -/
def State.crRead (s : State) (p : Proc) (n : Nat) : Word :=
  match n with
  | 0x000 => p.cause
  | 0x001 => p.epc
  | 0x002 => p.faddr
  | 0x003 => p.thdl
  | 0x004 => p.spill
  | 0x005 => p.wstat
  | 0x006 => p.fpc
  | 0x007 => p.rngctl
  | 0x008 => p.vqtab
  | 0x020 => s.mrev
  | 0x021 => s.rmver p.die p.ctx
  | 0x022 => s.olog p.die p.ctx
  | 0x023 => s.wdogWord p.ctx
  | 0x024 => s.clkcap p.die
  | 0x030 => BitVec.ofNat 64 (s.core p.core).quant
  | 0x031 => s.decwin p.die
  | _ => if 0x10 ≤ n && n < 0x18 then tblGetD p.fmt (n - 0x10) 0 else 0

/-- CR.FPC written (R38): PAYL, RM and the enables are RW, the flags W1C, the rest reserved. -/
def fpcWrite (old v : Word) : Word := (v &&& 0xBF00) ||| ((old &&& 0x1F) &&& ~~~v)

/-- CR.SPILL written (R88): the low three bits of each field read as zero. -/
def spillWrite (v : Word) : Word := v &&& 0x000FFFF8000FFFF8

/-- CR.DECWIN written (R381): ACKW 0 is written as 1 and WIN below 1,024 as 1,024. -/
def decwinAckw (v : Word) : Nat := max 1 (v.extractLsb' 32 16).toNat
def decwinWin (v : Word) : Nat := max 1024 (v.extractLsb' 0 32).toNat

/-- CR.QUANT written (R221): a value below 64 is written as 64. -/
def quantWrite (v : Word) : Nat := max 64 (v.extractLsb' 0 16).toNat

/-- A control register of the process written field by field under its access codes (R9, R122). A write to a
register that is read-only changes nothing. -/
def Proc.crWrite (p : Proc) (n : Nat) (v : Word) : Proc :=
  match n with
  | 0x001 => { p with epc := v }
  | 0x003 => { p with thdl := (v &&& ~~~2) ||| (p.thdl &&& 2) }
  | 0x004 => { p with spill := spillWrite v }
  | 0x006 => { p with fpc := fpcWrite p.fpc v }
  | 0x007 => { p with rngctl := v &&& 1 }
  | 0x008 => { p with vqtab := v &&& 0x7F800 }
  | _ => if 0x10 ≤ n && n < 0x18 then { p with fmt := tblSet p.fmt (n - 0x10) v } else p

/-- A TMMA of the process has not completed (R302). -/
def State.tmmaBusy (s : State) (pid core : Nat) : Bool :=
  (tblGetD s.pipes (2 * core + 1) []).any fun t => t.pid == pid

/-- CRR (R122); a read of CR.FPC is not ready until every earlier TMMA has completed (R302). -/
def execCrr (x : Args) (s : State) : Host.Outcome State Fault Refusal :=
  perform eCrr x s fun e =>
    if crNum e.x = 6 && e.s0.tmmaBusy e.pid e.p.core then .stall e.s0
    else e.ret (e.s.crRead e.p (crNum e.x))

/-- CRW of a register that has no row of its own (R122). -/
def execCrw (x : Args) (s : State) : Host.Outcome State Fault Refusal :=
  perform eCrw x s fun e => .next (e.upd fun p => p.crWrite (crNum e.x) e.a)

/-- CRW of CR.QUANT (R221). -/
def execCrQuantWrite (x : Args) (s : State) : Host.Outcome State Fault Refusal :=
  perform eCrw x s fun e => .next (e.s.modCore e.p.core fun c => { c with quant := quantWrite e.a })

/-- CRW of CR.DECWIN (R381). -/
def execCrDecwinWrite (x : Args) (s : State) : Host.Outcome State Fault Refusal :=
  perform eCrw x s fun e =>
    .next (e.s.modDie e.p.die fun d => { d with ackw := decwinAckw e.a, win := decwinWin e.a })

/-- CRW of CR.FPC (R38, R302). -/
def execCrFpcWrite (x : Args) (s : State) : Host.Outcome State Fault Refusal :=
  perform eCrw x s fun e =>
    if e.s0.tmmaBusy e.pid e.p.core then .stall e.s0
    else .next (e.upd fun p => p.crWrite 6 e.a)

def execTick (x : Args) (s : State) : Host.Outcome State Fault Refusal :=
  perform eTick x s fun e => e.ret (BitVec.ofNat 64 (e.s.core e.p.core).tick)

/-- SELF (R124). -/
def execSelf (x : Args) (s : State) : Host.Outcome State Fault Refusal :=
  perform eSelf x s fun e =>
    e.ret (BitVec.ofNat 64 (match mN e.x % 8 with
      | 0 => e.p.rank
      | 1 => e.p.core
      | 2 => e.p.ctx
      | 3 => e.s.devId
      | 4 => e.p.prio
      | _ => if e.p.priv then 1 else 0))

end Sys2Proof.Machine
end

