-- ==== Sys2Proof/Machine/Translate.lean ====
section
/-! DEFINITION. Checks on memory accesses (R126), resolution of GLOBAL offsets (R128, R337 to R343), the miss table
and the waits on it (R343 to R345). -/

namespace Sys2Proof.Machine

/-- Permission bits in PS positions (R91, R113). -/
def pRD : BitVec 8 := 0x10
def pWR : BitVec 8 := 0x08
def pAT : BitVec 8 := 0x04
def pEN : BitVec 8 := 0x02

/-- SPACE codes (R125). -/
def spLocal : Nat := 0
def spCluster : Nat := 1
def spGlobal : Nat := 2
def spRemote : Nat := 3

/-- What an access needs of a leaf (R340). -/
structure Need where
  rd : Bool := false
  wr : Bool := false
  at_ : Bool := false
  xf : Bool := false
  deriving DecidableEq, Repr

/-- The leaf grants what is needed. -/
def Need.met (n : Need) (leaf : Word) : Bool :=
  (!n.rd || leaf.getLsbD 61) && (!n.wr || leaf.getLsbD 60) && (!n.at_ || leaf.getLsbD 59) && (!n.xf || leaf.getLsbD 58)

/-- Home slice of a leaf (R340). -/
def leafSlice (leaf : Word) : Nat := (leaf.extractLsb' 45 4).toNat

/-- The slice of the die cache that takes the bytes of a piece. -/
def Piece.home (p : Piece) : Option Nat := if p.cached then p.leaf.map leafSlice else none

/-- What an access comes to before it touches memory. -/
inductive Acc where
  | ok (ps : List Piece)
  | fault (cause : Nat) (va : Nat)
  | miss (vas : List Nat)
  deriving DecidableEq, Repr

/-- Offsets of the table window and of die scratch (R128, R337). -/
def windowOff : Nat := 0xFFF8000000
def scratchOff : Nat := 0xFFFC000000

/-- The TLB entry of a die that translates an address of a context (R343). -/
def State.tlbFind (s : State) (die ctx va : Nat) : Option TlbEnt :=
  (s.die die).tlb.find? fun t => t.ctx == ctx && t.base / 2 ^ t.bits == va % 2 ^ 43 / 2 ^ t.bits

/-- The page of the address migrates (R353). -/
def State.migrating (s : State) (die ctx va : Nat) : Bool :=
  (s.die die).migrs.any fun g => g.ctx == ctx && g.base / 2 ^ g.bits == va % 2 ^ 43 / 2 ^ g.bits

/-- The physical address that a leaf gives (R340). -/
def leafPA (die : Nat) (t : TlbEnt) (va : Nat) : Nat :=
  hbmPA die ((t.leaf.extractLsb' 16 21).toNat * 2 ^ 16 + va % 2 ^ t.bits)

/-- Resolves bytes that lie in one 64 KiB unit of the owner die (R128, R337, R338, R342); a page that migrates holds its requests
(R353). -/
def State.resolveUnit (s : State) (die ctx : Nat) (priv : Bool) (need : Need) (va n : Nat) : Acc :=
  let off := va % 2 ^ 40
  if scratchOff ≤ off then
    let sl := (off - scratchOff) / 2 ^ 22
    if (s.sldc die).getLsbD sl then .fault 21 va
    else if !(s.ctx ctx).scr.getLsbD (16 * die + sl) then .fault 22 va
    else .ok [{ va := va, pa := dieMemPA die (off - scratchOff), len := n }]
  else if windowOff ≤ off then
    let c := s.ctx ctx
    match tblGet c.tables (va / 2 ^ 40 % 8) with
    | none => .fault 22 va
    | some at_ =>
      if !priv || c.tabLen < off - windowOff + n then .fault 22 va
      else .ok [{ va := va, pa := hbmPA die (at_ + (off - windowOff)), len := n, l1 := false }]
  else if s.migrating die ctx va then .miss [va]
  else match s.tlbFind die ctx va with
    | none => .miss [va]
    | some t =>
      if t.leaf.getLsbD 57 && !priv then .fault 22 va
      else if !need.met t.leaf then .fault 22 va
      else .ok [{ va := va, pa := leafPA die t va, len := n, cached := (s.sldc die).getLsbD (leafSlice t.leaf), leaf := some t.leaf }]

/-- The first failure, else every miss, else every piece. -/
def joinAcc : List Acc → Acc
  | [] => .ok []
  | .fault c v :: _ => .fault c v
  | .ok a :: t =>
    match joinAcc t with
    | .ok b => .ok (a ++ b)
    | r => r
  | .miss a :: t =>
    match joinAcc t with
    | .ok _ => .miss a
    | .miss b => .miss (a ++ b)
    | r => r

/-- The parts of [va, va + n) in 64 KiB units. -/
def splitUnits (va n : Nat) : List (Nat × Nat) :=
  (unitsOf 65536 va n).map fun u =>
    let lo := max va (65536 * u)
    (lo, min (va + n) (65536 * u + 65536) - lo)

/-- Resolution of a range that one die owns. -/
def State.resolve (s : State) (die ctx : Nat) (priv : Bool) (need : Need) (va n : Nat) : Acc :=
  joinAcc ((splitUnits va n).map fun u => s.resolveUnit die ctx priv need u.1 u.2)

/-- R126 up to resolution: the first failing check on an address register, effective address, size, space,
permissions and alignment, for a process of the context on the core. -/
def State.checkRange (s : State) (ctx core : Nat) (a : AReg) (ea n space : Nat) (perms : BitVec 8) (align : Nat) :
    Option Nat :=
  let c := s.ctx ctx
  if !a.valid || a.space != space then some 15
  else if !a.grants perms then some 15
  else if !a.holds ea n then some 14
  else if align != 0 && ea % align != 0 then some 16
  else if space = spLocal then (if c.tlen < ea + n then some 17 else none)
  else if space = spCluster then (if c.slen < ea + n then some 17 else none)
  else if space = spGlobal then
    if ea / 2 ^ 43 != s.devId || c.mapDie (ea / 2 ^ 40 % 8) != coreDie core then some 18
    else if n != 0 && (ea + n - 1) / 2 ^ 40 != ea / 2 ^ 40 then some 19
    else none
  else some 15

/-- The bytes of a checked access: LOCAL and CLUSTER lie in their windows, GLOBAL resolves at the owner. -/
def State.locate (s : State) (ctx core : Nat) (priv : Bool) (ea n space : Nat) (need : Need) : Acc :=
  if space = spLocal then .ok [{ va := ea, pa := s.localPA core ctx ea, len := n }]
  else if space = spCluster then .ok [{ va := ea, pa := s.padAddr core ctx ea, len := n }]
  else s.resolve (coreDie core) ctx priv need ea n

/-- R126 whole. -/
def State.check (s : State) (ctx core : Nat) (priv : Bool) (a : AReg) (ea n space : Nat) (perms : BitVec 8)
    (align : Nat) (need : Need) : Acc :=
  match s.checkRange ctx core a ea n space perms align with
  | some c => .fault c ea
  | none => s.locate ctx core priv ea n space need

/-- Bytes of the pieces of an access. -/
def State.readPieces (s : State) (ps : List Piece) : List Byte := ps.flatMap fun p => s.read p.pa p.len

/-- Stores bytes over the pieces of an access. -/
def State.writePieces (s : State) (ps : List Piece) (bs : List Byte) : State :=
  (ps.foldl (fun (r : State × List Byte) p => (r.1.write p.pa (r.2.take p.len) p.home, r.2.drop p.len)) (s, bs)).1

/-- The first uncorrectable word of a line that the die cache must fill for a piece (R135). -/
def State.badFill (s : State) (p : Piece) : Option Nat :=
  if p.cached then
    (unitsOf 64 p.pa p.len).findSome? fun l => if (s.cacheLine l).isSome then none else (s.badLine l).head?.map (8 * ·)
  else none

/-- The address of the first uncorrectable word that an access meets (R135): among its own, then among those of the lines
that it makes the die cache fill. -/
def State.badPiece (s : State) (ps : List Piece) : Option Nat :=
  ps.findSome? fun p =>
    ((s.badWord p.pa p.len).or (s.badFill p)).map fun w => p.va - p.va % 64 + (w - (p.pa - p.pa % 64))

/-- An access counts in the hotness counters of the TLB entries that translate it, once in each, in the quadrant of a core's
cluster (R350). (DEDUCED, log entry 55; unsafe.) -/
def State.touch (s : State) (die ctx : Nat) (ps : List Piece) (core : Nat) : State :=
  let quad := quadrant (coreClu core)
  if ps.all (·.leaf.isNone) then s
  else s.modDie die fun d => { d with tlb := d.tlb.map fun t =>
    let k := (ps.filter fun p => t.ctx == ctx && p.leaf.isSome && t.base / 2 ^ t.bits == p.va % 2 ^ 43 / 2 ^ t.bits).length
    if k = 0 then t
    else { t with hot := listSet t.hot quad (min 65535 (t.hot.getD quad 0 + 1)) } }

/-! ### The miss table (R343, R345) -/

/-- Rank and core behind a requester, and whether it is no process (R345). -/
def State.behind (s : State) (r : Requester) : Nat × Nat × Bool :=
  match r with
  | .proc pid =>
    match s.proc pid with
    | some p => (p.rank, p.core, false)
    | none => (0, 0, false)
  | .engine c =>
    match (s.cluster c).engine with
    | e :: _ => (((s.proc e.pid).map (·.rank)).getD 0, e.core, true)
    | [] => (0, 0, true)
  | .tile c =>
    match tblGetD s.pipes (2 * c) [] with
    | t :: _ => (((s.proc t.pid).map (·.rank)).getD 0, c, true)
    | [] => (0, c, true)
  | .server d n =>
    match tblGetD (s.die d).servers n [] with
    | q :: _ => (q.rank, q.core, true)
    | [] => (0, 0, true)
  | .remote r _ => (r, 0, true)

/-- A notice of the die's MMU on the supervisor channel (R346), held in order at the die's first core. -/
def State.notice (s : State) (die ctx rank core info : Nat) (va : Word) : State :=
  let r : FRec := { rank := rank, core := core, ctx := ctx, code := 21, info := info, faddr := va }
  s.modCore (256 * die) fun c => { c with records := c.records ++ [(r, none)] }

/-- A requester is dropped (R345): DROPN rises, and the first sends a drop notice. -/
def State.dropReq (s : State) (die ctx : Nat) (va : Word) (r : Requester) : State :=
  let was := tblGet (s.die die).drop ctx
  let s := s.modDie die fun d => { d with drop := tblSet d.drop ctx (min (2 ^ 32 - 1) (was.getD 0 + 1)) }
  match was with
  | some _ => s
  | none =>
    let b := s.behind r
    s.notice die ctx b.1 b.2.1 (2 ^ 63 + die * 2 ^ 8) va

/-- The entry holds a place of the miss table. -/
def Miss.inTable (m : Miss) : Bool :=
  match m.st with
  | .orphan | .released _ => false
  | _ => true

/-- A requester misses at an address: it joins the entry whose extent holds it, once, or takes an entry (R343, R345). The
ticket that it waits on. -/
def State.missAt (s : State) (die ctx : Nat) (va : Word) (write fetch : Bool) (r : Requester) : Nat × State :=
  let inside (m : Miss) := m.ctx == ctx && m.base / 2 ^ m.bits == va.toNat % 2 ^ 43 / 2 ^ m.bits && m.inTable
  match (s.die die).misses.find? inside with
  | some m =>
    if m.reqs.contains r then (m.ticket, s)
    else
    let s := s.modDie die fun d => { d with misses := d.misses.map fun n =>
      if n.ticket = m.ticket then { n with reqs := n.reqs ++ [r] } else n }
    match m.st with
    | .recorded k => (m.ticket, s.modDie die fun d =>
        { d with fbuf := tblMod d.fbuf k fun f => { f with nreq := min 65535 (f.nreq + 1) } })
    | .dropped => (m.ticket, s.dropReq die ctx va r)
    | _ => (m.ticket, s)
  | none =>
    let full := 256 ≤ ((s.die die).misses.filter Miss.inTable).length
    let t := s.seq
    let new : Miss := { ticket := t, ctx := ctx, base := va.toNat % 2 ^ 43 / 65536 * 65536, bits := 16,
                        st := if full then .orphan else .walking, va := va, write := write, fetch := fetch, reqs := [r] }
    let s := { s with seq := s.seq + 1 }.modDie die fun d => { d with misses := d.misses ++ [new] }
    (t, if full then s.dropReq die ctx va r else s)

/-- A requester misses at several addresses. -/
def State.missAll (s : State) (die ctx : Nat) (vas : List Nat) (write fetch : Bool) (r : Requester) : List Nat × State :=
  vas.foldl (fun (a : List Nat × State) va =>
    let q := a.2.missAt die ctx (BitVec.ofNat 64 va) write fetch r
    (a.1 ++ [q.1], q.2)) ([], s)

/-! ### Accesses of a process -/

/-- A process's access: the pieces, a precise fault with CR.FADDR, or a park with reason page. -/
def Env.access (e : Env) (a : AReg) (ea : Word) (n space : Nat) (perms : BitVec 8) (align : Nat) (need : Need)
    (go : List Piece → Act) : Act :=
  match e.s0.check e.p.ctx e.p.core e.p.priv a ea.toNat n space perms align need with
  | .fault c _ => e.trap c 0 ea
  | .ok ps => go ps
  | .miss vas =>
    let d := coreDie e.p.core
    let r := e.s0.missAll d e.p.ctx vas (need.wr || need.at_) false (.proc e.pid)
    .park r.2 .page (.miss d (r.1.map fun t => (t, ea)))

/-- An access of the process counts (R350). (DEDUCED, log entry 55; unsafe.) -/
def Env.count (e : Env) (ps : List Piece) (s : State) : State := s.touch (coreDie e.p.core) e.p.ctx ps e.p.core

/-- The effective address [aA + off] with the offset of R73. -/
def Env.ea (e : Env) : Word := (e.areg e.x.a).ptr + offset e.x

end Sys2Proof.Machine
end

