-- ==== Sys2Proof/Machine/Walk.lean ====
section
/-! DEFINITION. The page-table walk and the TLB (R339 to R343), and the lines of L1 (R131). -/

namespace Sys2Proof.Machine

/-! ### The walk (R339 to R341) -/

/-- What a walk comes to: a leaf that maps an extent of 2^bits bytes, at its window offset; or it stops at an entry that
covers 2^bits bytes, not present or BAD. -/
inductive Walk where
  | leaf (bits at_ : Nat) (leaf : Word)
  | stop (bits : Nat) (bad : Bool)
  deriving DecidableEq, Repr

/-- Bits of the region that an entry of a level covers (R339). -/
def levelBits (level : Nat) : Nat := [30, 30, 21, 16].getD level 16

/-- Index within the node of a level (R339). -/
def levelIndex (level off : Nat) : Nat :=
  if level = 1 then off / 2 ^ 30 % 1024 else if level = 2 then off / 2 ^ 21 % 512 else off / 2 ^ 16 % 32

/-- Fields of a leaf (R340). -/
def leafFmt (l : Word) : Nat := (l.extractLsb' 52 4).toNat
def leafBlk (l : Word) : Nat := (l.extractLsb' 50 2).toNat
def leafFrame (l : Word) : Nat := (l.extractLsb' 16 21).toNat

/-- The 64 KiB frames of a range are all owned by the context (R341). -/
def State.ownsFrames (s : State) (die ctx frame bits : Nat) : Bool :=
  (List.range (2 ^ (bits - 16))).all fun i => tblGetD (s.die die).frames (frame + i) 0 == ctx + 1

/-- A present leaf of a level is BAD (R341). -/
def State.leafBad (s : State) (die ctx level : Nat) (l : Word) : Bool :=
  l.extractLsb' 37 8 != 0 || (12 ≤ leafFmt l && leafFmt l ≤ 14) || leafBlk l == 3
    || leafFrame l % 2 ^ (levelBits level - 16) != 0 || !s.ownsFrames die ctx (leafFrame l) (levelBits level)

/-- A present pointer entry of a level is BAD (R341). -/
def pointerBad (tabLen level : Nat) (l : Word) : Bool :=
  let node := (l.extractLsb' 8 18).toNat
  let size := if level = 1 then 4096 else 256
  level == 3 || l.extractLsb' 26 36 != 0 || l.extractLsb' 0 8 != 0 || tabLen < 256 * node + size
    || (level == 1 && node % 16 != 0)

/-- The walk from a node of a level. -/
def State.walkFrom (s : State) (die ctx tab off : Nat) (node : Nat) : Nat → Walk
  | 0 => .stop 16 true
  | fuel + 1 =>
    let level := 3 - fuel
    let at_ := node + 8 * levelIndex level off
    let pa := hbmPA die (tab + at_)
    let l : Word := BitVec.ofNat 64 (s.readNat pa 8)
    let bits := levelBits level
    if (s.ctx ctx).tabLen < at_ + 8 then .stop bits true
    else if (s.badWord pa 8).isSome then .stop bits true
    else if !l.getLsbD 63 then .stop bits false
    else if l.getLsbD 62 then (if s.leafBad die ctx level l then .stop bits true else .leaf bits at_ l)
    else if pointerBad (s.ctx ctx).tabLen level l then .stop bits true
    else s.walkFrom die ctx tab off (256 * (l.extractLsb' 8 18).toNat) fuel

/-- The walk for an address of a context at its owner die. -/
def State.walk (s : State) (die ctx va : Nat) : Walk :=
  match tblGet (s.ctx ctx).tables (va / 2 ^ 40 % 8) with
  | none => .stop 30 false
  | some tab => s.walkFrom die ctx tab (va % 2 ^ 40) 0 3

/-- The extent and the leaf of a page that is present, by the TLB or the walk (R343, R353). -/
def State.leafFor (s : State) (die ctx va : Nat) : Option (Nat × Word) :=
  match s.tlbFind die ctx va with
  | some t => some (t.bits, t.leaf)
  | none =>
    match s.walk die ctx (va % 2 ^ 43) with
    | .leaf bits _ l => some (bits, l)
    | .stop _ _ => none

/-- The piece of `n` bytes at an address of a present page. -/
def leafPiece (sldc : BitVec 16) (die va n : Nat) (l : Nat × Word) : Piece :=
  { va := va, pa := hbmPA die ((l.2.extractLsb' 16 21).toNat * 2 ^ 16 + va % 2 ^ l.1), len := n,
    cached := sldc.getLsbD (leafSlice l.2), leaf := some l.2 }

/-- The slice of the die cache that takes a physical address, by the translations that the die holds. -/
def State.homeOf (s : State) (die pa : Nat) : Option Nat :=
  if 2 ^ 40 ≤ pa then none
  else ((s.die die).tlb.find? fun t => leafPA die t t.base / 2 ^ t.bits == pa / 2 ^ t.bits).bind fun t =>
    if (s.sldc die).getLsbD (leafSlice t.leaf) then some (leafSlice t.leaf) else none

/-- Physical lines of a page leave every L1 of the die (R349). -/
def State.dropL1 (s : State) (die pa size : Nat) : State :=
  { s with cores := s.cores.map fun c =>
      if coreDie c.1 = die then (c.1, { c.2 with l1 := c.2.l1.filter fun l => !(pa ≤ 64 * l.1 && 64 * l.1 < pa + size) }) else c }

/-- A translation enters the TLB (R343): where its entries of that size are all used, the oldest leaves, and its lines
leave the L1s. (DESIGN CHOICE, log entry 7; unsafe.) -/
def State.tlbFill (s : State) (die ctx va bits : Nat) (leaf : Word) : State :=
  let base := va % 2 ^ 43 / 2 ^ bits * 2 ^ bits
  let t : TlbEnt := { ctx := ctx, base := base, bits := bits, leaf := leaf }
  let tlb := (s.die die).tlb
  let same := tlb.filter fun x => (x.bits == 30) == (t.bits == 30)
  if tlb.any fun x => x.ctx == ctx && x.base == base && x.bits == bits then s
  else if same.length < (if t.bits = 30 then 512 else 8192) then s.modDie die fun d => { d with tlb := t :: d.tlb }
  else match same.getLast? with
    | some old => (s.dropL1 die (leafPA die old old.base) (2 ^ old.bits)).modDie die fun d => { d with tlb := t :: d.tlb.erase old }
    | none => s

/-- A line enters the L1 of a core (R131): 128 sets of 4 ways; the line that leaves a full set is free.
(DESIGN CHOICE, log entry 7; unsafe.) -/
def State.l1Fill (s : State) (core line : Nat) : State :=
  let l1 := (s.core core).l1
  let ways := l1.filter fun l => l.1 % 128 == line % 128
  if nsHas l1 line then s
  else if ways.length < 4 then s.modCore core fun c => { c with l1 := nsAdd c.l1 line }
  else
    let out := ((ways.map (·.1))[(Config.freeWord s.fresh).toNat % ways.length]?).getD 0
    { s with fresh := s.fresh + 1 }.modCore core fun c => { c with l1 := nsAdd (nsDel c.l1 out) line }

/-- A translation that the TLB does not hold is fetched, where the walk finds a leaf (R343, R353).
(DEDUCED, log entry 56; safe.) -/
def State.prefetchWalk (s : State) (die ctx va : Nat) : State :=
  if s.migrating die ctx va then s
  else match s.walk die ctx (va % 2 ^ 43) with
    | .leaf bits _ l => s.tlbFill die ctx va bits l
    | .stop _ _ => s

end Sys2Proof.Machine
end

