-- ==== Sys2Proof/Machine/Memory.lean ====
section
/-! DEFINITION. Scalar loads and stores, synchronising words, atomics, prefetch, clean and invalidate (R125 to R146),
and the events of the store buffer and of load misses. -/

namespace Sys2Proof.Machine

/-- Size in bytes of the type code (R140). -/
def tyBytes (t : Nat) : Nat := tyWidth t / 8

/-- What a load of the type writes to D (R140): sign-extended for s types, zero-extended otherwise. -/
def loadExt (t : Nat) (v : Nat) : Word := if t < 4 then sextN v (tyWidth t) else zextN v (tyWidth t)

/-- The 8·n low bits of a register as bytes (R6). -/
def lowBytes (n : Nat) (v : Word) : List Byte := natBytes n v.toNat

/-! ### GLOBAL loads: forwarding, L1 and misses -/

/-- Bytes [va, va + n) taken from a store at `v`. -/
def covers (v : Nat) (bs : List Byte) (va n : Nat) : Bool := v ≤ va && va + n ≤ v + bs.length
def overlaps (v : Nat) (bs : List Byte) (va n : Nat) : Bool := v < va + n && va < v + bs.length

/-- The stores of one entry by virtual address (R132, R273). -/
def SbWhat.stores : SbWhat → List (Nat × List Byte)
  | .store va _ bs => [(va, bs)]
  | .pieces ps => ps.map fun p => (p.1, p.2.2)
  | _ => []

/-- What forwarding gives a GLOBAL load (R133): nothing overlaps, the youngest entry covers it, or it waits. -/
inductive Fwd where
  | none_ | data (bs : List Byte) | wait
  deriving DecidableEq, Repr

/-- What the core's store buffer gives a load of [va, va + n) (R133). -/
def State.forward (s : State) (core ctx va n : Nat) : Fwd :=
  let es := (s.core core).sb.filter fun e => e.ctx == ctx && e.what.stores.any fun x => overlaps x.1 x.2 va n
  match es.getLast? with
  | none => .none_
  | some e =>
    match e.what.stores.find? fun x => covers x.1 x.2 va n with
    | some x => .data ((x.2.drop (va - x.1)).take n)
    | none => .wait

/-- The first line of the pieces that the load must fetch: no line of L1, not granted to the instruction (R131,
R134). A line that L1 may not hold is fetched each time. -/
def Env.missLine (e : Env) (ps : List Piece) : Option Nat :=
  ps.findSome? fun p => (unitsOf 64 p.pa p.len).find? fun l =>
    !(p.l1 && nsHas (e.s0.core e.p.core).l1 l) && !e.p.granted.contains l

/-- A load that may read its pieces now: fault 24 at an uncorrectable word (R135). -/
def Env.loadBytes (e : Env) (ps : List Piece) (go : List Byte → Act) : Act :=
  match e.s0.badPiece ps with
  | some a => e.trap 24 0 (BitVec.ofNat 64 a)
  | none => go (e.s0.readPieces ps)

/-- The pieces of a load, of which those whose lines L1 holds fill nothing (R131, R134). -/
def Env.fills (e : Env) (ps : List Piece) : List Piece :=
  ps.map fun p => { p with cached := p.cached &&
    !(p.l1 && (unitsOf 64 p.pa p.len).all fun l => nsHas (e.s0.core e.p.core).l1 l) }

/-- The pieces of a load with a line that L1 does not hold: those are what the hotness counters count (R350). -/
def Env.missed (e : Env) (ps : List Piece) : List Piece :=
  ps.filter fun p => (unitsOf 64 p.pa p.len).any fun l => !(p.l1 && nsHas (e.s0.core e.p.core).l1 l)

/-- A load parks until the memory server has a line for it; it counts where it first misses L1 (R134, R350). -/
def Env.fetchLine (e : Env) (ps : List Piece) (l : Nat) : Act :=
  .park (if e.p.granted.isEmpty then e.count (e.missed ps) e.s0 else e.s0) .memoryServer (.line l)

/-- A GLOBAL load of pieces: forwarded, waiting, parked on a miss, or read (R133, R134). -/
def Env.globalLoad (e : Env) (va n : Nat) (ps : List Piece) (go : State → List Byte → Act) : Act :=
  match e.s0.forward e.p.core e.p.ctx va n with
  | .wait => .stall e.s0
  | .data bs => go e.s bs
  | .none_ =>
    match e.missLine ps with
    | some l => e.fetchLine ps l
    | none => e.loadBytes (e.fills ps) fun bs => go e.s bs

/-- LDL, LDC, LDG (R140). -/
def scalarLoad (e : Env) (space : Nat) : Act :=
  let n := tyBytes (tyN e.x)
  e.access (e.areg e.x.a) e.ea n space pRD n { rd := true } fun ps =>
    let fin := fun (s : State) (bs : List Byte) =>
      Act.next (s.modProc e.pid fun p => p.wrOp e.x.d.toNat (loadExt (tyN e.x) (bytesNat bs)))
    if space = spGlobal then e.globalLoad e.ea.toNat n ps fin
    else e.loadBytes ps (fin e.s)

/-- An instruction that needs a store-buffer entry and finds none is not ready (R132); a counter that would pass
65,535 holds it too (R139). -/
def Env.withEntry (e : Env) (s : State) (what : SbWhat) : Act :=
  let c := e.s0.core e.p.core
  if 16 ≤ c.sb.length || 65535 ≤ e.p.cStore then .stall e.s0
  else
    let s := s.modCore e.p.core fun c =>
      { c with sb := c.sb ++ [{ seq := c.sbSeq, pid := e.pid, ctx := e.p.ctx, what := what }], sbSeq := c.sbSeq + 1 }
    .next (s.modProc e.pid fun p => { p with cStore := p.cStore + 1 })

/-- STL, STC, STG (R140). -/
def scalarStore (e : Env) (space : Nat) : Act :=
  let n := tyBytes (tyN e.x)
  e.access (e.areg e.x.a) e.ea n space pWR n { wr := true } fun ps =>
    if space = spGlobal then
      match ps with
      | p :: _ => e.withEntry (e.count ps e.s) (.store e.ea.toNat p.pa (lowBytes n e.b))
      | [] => .next e.s
    else .next (e.s.writePieces ps (lowBytes n e.b))

def execLdl (x : Args) (s : State) : Host.Outcome State Fault Refusal := perform eLdl x s fun e => scalarLoad e spLocal
def execStl (x : Args) (s : State) : Host.Outcome State Fault Refusal := perform eStl x s fun e => scalarStore e spLocal
def execLdc (x : Args) (s : State) : Host.Outcome State Fault Refusal := perform eLdc x s fun e => scalarLoad e spCluster
def execStc (x : Args) (s : State) : Host.Outcome State Fault Refusal := perform eStc x s fun e => scalarStore e spCluster
def execLdg (x : Args) (s : State) : Host.Outcome State Fault Refusal := perform eLdg x s fun e => scalarLoad e spGlobal
def execStg (x : Args) (s : State) : Host.Outcome State Fault Refusal := perform eStg x s fun e => scalarStore e spGlobal

/-! ### Synchronising words and atomics -/

/-- The wait for every earlier store of the issuing core (R138, R141, R142): a mark is taken when the instruction
first issues, and it is not ready while an entry below the mark remains. (DEDUCED, log entry 27; safe.) -/
def Env.afterStores (e : Env) (space : Nat) (go : Act) : Act :=
  if space != spGlobal then go
  else
    let mark := e.p.sbMark.getD (e.s0.core e.p.core).sbSeq
    if e.s0.sbDone e.p.core mark then go
    else .stall (e.s0.modProc e.pid fun p => { p with sbMark := some mark })

/-- A synchronising access of the space of its address register; REMOTE raises fault 15 (R141).
(DEDUCED, log entry 27; safe.) -/
def Env.syncAccess (e : Env) (n : Nat) (perms : BitVec 8) (align : Nat) (need : Need) (go : Nat → List Piece → Act) :
    Act :=
  let a := e.areg e.x.a
  if a.valid && a.space == spRemote then e.trap 15 0 e.ea
  else e.access a e.ea n a.space perms align need (go a.space)

/-- A process joins the operations that wait at a word (R137). -/
def State.waitWord (s : State) (w : Nat) (wt : Waiter) : State :=
  { s with waiters := tblSet s.waiters w (tblGetD s.waiters w [] ++ [wt]) }

/-- Physical lines that the pieces touch. -/
def pieceLines (ps : List Piece) : List Nat := ps.flatMap fun p => unitsOf 64 p.pa p.len

/-- A write at a GLOBAL ordering point of the core's die. -/
def State.globalWrite (s : State) (core : Nat) (ps : List Piece) (bs : List Byte) : State :=
  (s.dropCopies (coreDie core) (some core) (pieceLines ps)).writePieces ps bs

/-- A write at a GLOBAL ordering point of a die for an accessor that is no core of it. -/
def State.dieWrite (s : State) (die : Nat) (ps : List Piece) (bs : List Byte) : State :=
  (s.dropCopies die none (pieceLines ps)).writePieces ps bs

def State.spaceWrite (s : State) (core space : Nat) (ps : List Piece) (bs : List Byte) : State :=
  if space = spGlobal then s.globalWrite core ps bs else s.writePieces ps bs

/-- LDS (R141): MOD[0] is .c. -/
def execLds (x : Args) (s : State) : Host.Outcome State Fault Refusal :=
  perform eLds x s fun e =>
    let clr := (modOf .offset e.x).getLsbD 0
    e.syncAccess 8 (if clr then pRD ||| pWR else pRD) 8 { rd := true, wr := clr } fun space ps =>
      e.afterStores space (match ps with
        | [] => .next e.s
        | p :: _ =>
          let w := p.pa / 8
          if e.s0.wordFull w then
            e.loadBytes ps fun bs =>
              let s := e.upd fun p => p.wrOp e.x.d.toNat (BitVec.ofNat 64 (bytesNat bs))
              .next (e.count ps (if clr then s.setWord w false else s))
          else
            let wt : Waiter :=
              { pid := e.pid, op := .lds clr, dest := e.p.name e.x.d.toNat,
                next := e.p.nextPc e.x, ea := e.ea, marks := marked eLds e.x e.p, home := p.home }
            .park (e.count ps (e.s0.waitWord w wt)) .fullBit (.word w))

/-- STF (R142): MOD[0] is .e. -/
def execStf (x : Args) (s : State) : Host.Outcome State Fault Refusal :=
  perform eStf x s fun e =>
    let whenEmpty := (modOf .offset e.x).getLsbD 0
    e.syncAccess 8 pWR 8 { wr := true } fun space ps =>
      e.afterStores space (match ps with
        | [] => .next e.s
        | p :: _ =>
          let w := p.pa / 8
          if whenEmpty && e.s0.wordFull w then
            let wt : Waiter :=
              { pid := e.pid, op := .stfe e.b, dest := none, next := e.p.nextPc e.x, ea := e.ea,
                marks := marked eStf e.x e.p, home := p.home }
            .park (e.count ps (e.s0.waitWord w wt)) .fullBit (.word w)
          else .next (e.count ps ((e.s.spaceWrite e.p.core space ps (lowBytes 8 e.b)).setWord w true)))

/-- The words named by pieces, in increasing address order. -/
def pieceWords (ps : List Piece) : List Nat := ps.flatMap fun p => wordsOf p.pa p.len

/-- FEB.rd (R143). -/
def execFebRd (x : Args) (s : State) : Host.Outcome State Fault Refusal :=
  perform eFeb x s fun e =>
    if e.b = 0 then e.ret 0
    else e.syncAccess (8 * e.b.toNat) pRD 8 { rd := true } fun space ps =>
      e.afterStores space (
        let ws := ((pieceWords ps).take 64).zipIdx
        let v : Word := BitVec.ofNat 64 (ws.map fun (w : Nat × Nat) => if e.s0.wordFull w.1 then 2 ^ w.2 else 0).sum
        .next (e.count ps (e.upd fun p => p.wrOp e.x.d.toNat v)))

/-- FEB.set and FEB.clr (R143): word by word, waking waiting operations. -/
def febSetClr (e : Env) (full : Bool) : Act :=
  if e.b = 0 then .next e.s
  else e.syncAccess (8 * e.b.toNat) pWR 8 { wr := true } fun space ps =>
    e.afterStores space (.next (e.count ps ((pieceWords ps).foldl (fun s w => s.setWord w full) e.s)))

def execFebSet (x : Args) (s : State) : Host.Outcome State Fault Refusal := perform eFeb x s fun e => febSetClr e true
def execFebClr (x : Args) (s : State) : Host.Outcome State Fault Refusal := perform eFeb x s fun e => febSetClr e false

/-- The new value of an atomic operation (R144) on a word of type `t`; operation 9 is JOIN's (R215). -/
def amoNew (op t : Nat) (old b c : Nat) : Nat :=
  let w := tyWidth t
  let m := 2 ^ w
  let o : Word := BitVec.ofNat 64 old
  let v : Word := BitVec.ofNat 64 b
  match op with
  | 0 => (old + b) % m
  | 1 => (old &&& b) % m
  | 2 => (old ||| b) % m
  | 3 => (old ^^^ b) % m
  | 4 => if intVal t o ≤ intVal t v then old % m else b % m
  | 5 => if intVal t v ≤ intVal t o then old % m else b % m
  | 6 => b % m
  | 7 => if old % m = b % m then c % m else old % m
  | 9 => if old = 0 then 0 else old - 1
  | _ => ((fmtTy t).add 0 false ((fmtTy t).decode (old % m)) ((fmtTy t).decode (b % m))).bits

/-- The order log (R190): whether an atomic on a LOG page is ordered in this context. -/
def logged (ps : List Piece) : Bool :=
  ps.any fun p => match p.leaf with
    | some l => l.getLsbD 56
    | none => false

/-- An entry for the order log (R190): the context's log takes it, CR.OLOG.ENT of the die and the process's ordinal
rise. (DEDUCED, log entry 48; unsafe.) -/
def State.logEvent (s : State) (pid : Nat) (p : Proc) (kind guard : Nat) (value : Word) (seq : Nat) : State :=
  let c := s.ctx p.ctx
  let s := if c.dmode = 1 then
      s.modCtx p.ctx fun c => { c with log := c.log ++ [{ rank := p.rank, ord := p.ordinal, kind := kind, guard := guard, value := value, seq := seq }] }
    else s
  let s := if c.dmode = 1 || c.dmode = 2 then
      s.modCtx p.ctx fun c => { c with logEnt := tblSet c.logEnt p.die (tblGetD c.logEnt p.die 0 + 1) }
    else s
  s.modProc pid fun p => { p with ordinal := (p.ordinal + 1) % 2 ^ 32 }

/-- What the determinism mode of the context says of an order-sensitive event (R190, R191): it may perform, the log
is full, it diverges, or its entry. -/
inductive LogSays where
  | go | full | diverge | entry (e : LogEntry)

/-- The entry that replay takes for an event of a process. (DEDUCED, log entry 41; unsafe.) -/
def State.logSays (s : State) (p : Proc) (kinds : List Nat) : LogSays :=
  let c := s.ctx p.ctx
  if c.dmode = 1 then (if c.logCap ≤ c.log.length then .full else .go)
  else if c.dmode = 2 then
    match c.log.find? fun l => l.rank == p.rank && l.ord == p.ordinal with
    | some l => if kinds.contains l.kind then .entry l else .diverge
    | none => .diverge
  else .go

/-- Cause 54 on a process suspends its context (R191, R229): its CAUSE.CODE is set, the event performs nothing, and a
context record is sent. The suspension itself is `State.suspendCtx`. (DEDUCED, log entry 38; unsafe.) -/
def ctxRecord (p : Proc) (code : Nat) : FRec :=
  { rank := p.rank, core := p.core, ctx := p.ctx, context := true, code := code, epc := p.pc }

/-- A process that runs or is ready of a suspended context becomes SUSPENDED at its next instruction boundary; an
open packet defers it (R66, R181). -/
def State.suspendProc (s : State) (pid : Nat) : State :=
  match s.proc pid with
  | none => s
  | some p =>
    if p.packet.isSome then s
    else if p.st == .running || p.st == .ready then
      ((s.leaveSlot pid p.core).unready pid p.core).enter pid .suspended
    else s

/-- The context is suspended with a cause (R180, R181). -/
def State.suspendCtx (s : State) (ctx cause : Nat) : State :=
  let c := s.ctx ctx
  if c.st == .bound || c.st == .running then
    let s := s.modCtx ctx fun c => { c with st := .suspended, causes := c.causes ++ [cause], resumeBound := c.st == .bound }
    (s.procs.filter fun e => e.2.ctx == ctx).foldl (fun s e => s.suspendProc e.1) s
  else if c.st == .suspended then s.modCtx ctx fun c => { c with causes := c.causes ++ [cause] }
  else s

/-- Order-log divergence (R191); as a fault it ends an open packet (R66). In a context that is SUSPENDED already the host's
record of causes takes it, and nothing else does (R180). (DEDUCED, log entry 41; unsafe.) -/
def State.diverge (s : State) (pid : Nat) (p : Proc) : State :=
  let s := s.abortPacket pid
  if (s.ctx p.ctx).st == .suspended then s.suspendCtx p.ctx 54
  else
    let s := s.modProc pid fun p => { p with cause := (p.cause &&& ~~~0x3F) ||| 54 }
    (s.modCore p.core fun c => { c with records := c.records ++ [(ctxRecord p 54, none)] }).suspendCtx p.ctx 54

/-- Fault 55 with CR.OLOG.FULL set (R190). -/
def Env.logFull (e : Env) : Act :=
  .fault (e.s0.modCtx e.p.ctx fun c => { c with logFull := true }) { cause := 55 }

/-- The 8-byte word of an address, by which the order log names it (R190). -/
def wordVa (va : Word) : Word := va &&& ~~~7

/-- The atomics that the owner die has performed on the 8-byte word of a LOG page that holds an address (R190). -/
def State.atomicCount (s : State) (ctx va : Nat) : Nat := tblGetD (s.ctx ctx).logCount (va / 8) 0
def State.countAtomic (s : State) (ctx va : Nat) : State :=
  s.modCtx ctx fun c => { c with logCount := tblSet c.logCount (va / 8) (tblGetD c.logCount (va / 8) 0 + 1) }

/-- An atomic step on a LOG page takes its place in the recorded order (R190, R191); elsewhere it just performs. -/
def Env.ordered (e : Env) (isLog : Bool) (va : Word) (go : State → Act) : Act :=
  if !isLog then go e.s
  else match e.s0.logSays e.p [2] with
    | .full => e.logFull
    | .diverge => .raw (e.s0.diverge e.pid e.p)
    | .go => go ((e.s.logEvent e.pid e.p 2 0 (wordVa va) (e.s0.atomicCount e.p.ctx va.toNat)).countAtomic e.p.ctx va.toNat)
    | .entry l =>
      if l.value != wordVa va then .raw (e.s0.diverge e.pid e.p)
      else if e.s0.atomicCount e.p.ctx va.toNat != l.seq then .park e.s0 .memoryServer (.replay va.toNat l.seq)
      else go (((e.s.logEvent e.pid e.p 2 0 (wordVa va) l.seq).countAtomic e.p.ctx va.toNat).recheckAll)

/-- AMO (R138, R144): cause 26 comes before the checks of R126. (DEDUCED, log entry 67; unsafe.) -/
def execAmo (x : Args) (s : State) : Host.Outcome State Fault Refusal :=
  perform eAmo x s fun e =>
    let t := tyN e.x
    let n := tyBytes t
    let a := e.areg e.x.a
    let op := mN e.x % 16
    let ea := a.ptr + offsetExt e.x
    if a.valid && (a.space == spRemote || (a.space == spCluster && op == 8)) then e.trap 26 0 ea
    else e.access a ea n a.space (pRD ||| pWR ||| pAT) n { rd := true, wr := true, at_ := true } fun ps =>
      let mark := e.p.sbMark.getD (e.s0.core e.p.core).sbSeq
      if a.space == spGlobal && e.p.packet.isSome then e.trap 33
      else if a.space == spGlobal && !e.s0.sbDone e.p.core mark then
        .park (e.s0.modProc e.pid fun p => { p with sbMark := some mark }) .memoryServer (.stores mark)
      else
        e.loadBytes ps fun bs =>
          e.ordered (logged ps) ea fun s =>
            let old := bytesNat bs
            let s := s.spaceWrite e.p.core a.space ps (natBytes n (amoNew op t old e.b.toNat e.c.toNat))
            .next (e.count ps (s.modProc e.pid fun p => p.wrOp e.x.d.toNat (loadExt t old)))

/-! ### Prefetch, clean and invalidate -/

/-- The line of a piece is prefetched (R145): die scratch is passed over, and a line with an uncorrectable word enters no
cache (R135). A line that L1 holds still fills the die cache. -/
def Env.prefetch (e : Env) (s : State) (p : Piece) : State :=
  let l := p.pa / 64
  if p.leaf.isNone then s
  else
    let s := e.count (e.missed [{ p with len := 1 }]) s
    if !(s.badLine l).isEmpty then s
    else
      let s := match p.home with
        | some k => s.cacheFill e.p.die k l
        | none => s
      if (modOf .offset e.x).getLsbD 0 then s else s.l1Fill e.p.core l

/-- PRF (R145): after decode it never faults. Each page of its 64 bytes that the TLB does not hold is walked; its .l1 form
fills L1 with the line that holds ea. (DEDUCED, log entry 56; safe.) -/
def execPrf (x : Args) (s : State) : Host.Outcome State Fault Refusal :=
  perform ePrf x s fun e =>
    let look (s : State) : Acc := s.check e.p.ctx e.p.core e.p.priv (e.areg e.x.a) e.ea.toNat 64 spGlobal 0 0 { rd := true }
    match look e.s0 with
    | .ok (p :: _) => .next (e.prefetch e.s p)
    | .miss vas =>
      let s := vas.foldl (fun s va => s.prefetchWalk e.p.die e.p.ctx va) e.s
      match look s with
      | .ok (p :: _) => .next (e.prefetch s p)
      | _ => .next e.s
    | _ => .next e.s

/-- The part of CLN's or INV's range in one 64 KiB unit (R146, R342): its piece where the page is present and grants
what is needed, no piece where it is not present or is die scratch, or the fault of its translation. -/
def State.rangePart (s : State) (die ctx : Nat) (priv : Bool) (need : Need) (va n : Nat) : Acc :=
  if windowOff ≤ va % 2 ^ 40 then
    if scratchOff ≤ va % 2 ^ 40 then .ok [] else s.resolveUnit die ctx priv need va n
  else match s.leafFor die ctx va with
    | none => .ok []
    | some l =>
      if (l.2.getLsbD 57 && !priv) || !need.met l.2 then .fault 22 va
      else .ok [leafPiece (s.sldc die) die va n l]

/-- What CLN and INV act on (R126, R146): the checks of R126 in its order, INV's alignment where R126 has alignment, then
the range page by page. (DEDUCED, log entry 67; unsafe.) -/
def Env.rangeAcc (e : Env) (perms : BitVec 8) (need : Need) (whole : Bool) : Acc :=
  let a := e.areg e.x.a
  let ea := a.ptr.toNat
  let n := e.b.toNat
  if !a.valid || a.space != spGlobal then .fault 15 ea
  else if !a.grants perms then .fault 15 ea
  else if !a.holds ea n then .fault 14 ea
  else if whole && (ea % 64 != 0 || n % 64 != 0) then .fault 16 ea
  else if ea / 2 ^ 43 != e.s0.devId || (e.s0.ctx e.p.ctx).mapDie (ea / 2 ^ 40 % 8) != coreDie e.p.core then .fault 18 ea
  else if (ea + n - 1) / 2 ^ 40 != ea / 2 ^ 40 then .fault 19 ea
  else joinAcc ((splitUnits ea n).map fun u => e.s0.rangePart e.p.die e.p.ctx e.p.priv need u.1 u.2)

/-- The store-buffer entry of CLN or INV over the lines of its range (R146). -/
def Env.rangeEntry (e : Env) (acc : Acc) (what : List Nat → SbWhat) : Act :=
  match acc with
  | .fault c _ => e.trap c 0 (e.areg e.x.a).ptr
  | .ok ps => e.withEntry e.s (what (pieceLines ps))
  | .miss _ => .next e.s

/-- CLN (R146). -/
def execCln (x : Args) (s : State) : Host.Outcome State Fault Refusal :=
  perform eCln x s fun e => if e.b = 0 then .next e.s else e.rangeEntry (e.rangeAcc pRD { rd := true } false) .clean

/-- INV (R146); its alignment, cause 16, has the place that `Env.rangeAcc` gives it. (DEDUCED, log entry 67; unsafe.) -/
def execInv (x : Args) (s : State) : Host.Outcome State Fault Refusal :=
  perform eInv x s fun e => if e.b = 0 then .next e.s else e.rangeEntry (e.rangeAcc pWR { wr := true } true) .inval

/-! ### Events of the GLOBAL path -/

/-- A dirty line is written back and stays valid and clean; an uncorrectable word of it is then so in HBM (R135,
R146). -/
def State.cleanLine (s : State) (die line : Nat) : State :=
  s.modDie die fun d => { d with cache := tblMod d.cache line fun c =>
    if c.under.isSome then { c with under := none, bad := s.badLine line } else c }

/-- A line leaves the die cache and every L1 of the die: its dirty data, and uncorrectable words that HBM does not share,
are discarded (R135, R146). -/
def State.invalLine (s : State) (die line : Nat) : State :=
  let s := s.dropCopies die none [line]
  match tblGet (s.die die).cache line with
  | none => s
  | some c =>
    let s := match c.under with
      | some bs => { s with mem := memWrite s.mem (64 * line) bs }
      | none => s
    (s.modDie die fun d => { d with cache := tblMod d.cache line fun c => { c with under := none } }).cacheDrop die line

/-- A counter of the process falls, which may wake it (R139). -/
def State.lowerStore (s : State) (pid : Nat) : State :=
  (s.modProc pid fun p => { p with cStore := p.cStore - 1 }).recheck pid

/-- The piece that a buffered store of a context names: its page tells its home slice. -/
def State.storePiece (s : State) (die ctx va pa n : Nat) : Piece :=
  let p : Piece := { va := va, pa := pa, len := n }
  if 2 ^ 40 ≤ pa then p
  else match s.leafFor die ctx va with
    | some l => { p with cached := (s.sldc die).getLsbD (leafSlice l.2), leaf := some l.2 }
    | none => p

/-- What a store-buffer entry does when it performs (R132, R146). -/
def State.performEntry (s : State) (core : Nat) (en : SbEntry) : State :=
  let die := coreDie core
  match en.what with
  | .store va pa bs => s.globalWrite core [s.storePiece die en.ctx va pa bs.length] bs
  | .pieces ps => ps.foldl (fun s (p : Nat × Nat × List Byte) =>
      s.globalWrite core [s.storePiece die en.ctx p.1 p.2.1 p.2.2.length] p.2.2) s
  | .clean ls => ls.foldl (fun s l => s.cleanLine die l) s
  | .inval ls => ls.foldl (fun s l => s.invalLine die l) s

/-- STORE_BUFFER_PERFORM (R132): the oldest entry performs. -/
def execStoreBufferPerform (core : Nat) (s : State) : Host.Outcome State Fault Refusal :=
  match (s.core core).sb with
  | [] => .next s
  | en :: rest =>
    let s := (s.modCore core fun c => { c with sb := rest }).performEntry core en
    .next ((s.lowerStore en.pid).recheckAll)

/-- A translated line of the process's context, which L1 may hold; a line of the table window is none (R338). -/
def State.cachedL1 (s : State) (p : Proc) (l : Nat) : Bool :=
  (s.die p.die).tlb.any fun t => t.ctx == p.ctx && leafPA p.die t t.base / 2 ^ t.bits == 64 * l / 2 ^ t.bits

/-- LDG_MISS_RETURN (R134): the memory server has the line, which enters the die cache where a slice of it is the line's
home, and L1 where L1 may hold it; the process wakes to take its data. A fill that meets an uncorrectable word leaves
the line out; the load then raises fault 24 (R135). -/
def execLdgMissReturn (pid : Nat) (s : State) : Host.Outcome State Fault Refusal :=
  match s.proc pid with
  | none => .next s
  | some p =>
    match p.st with
    | .parked _ (.line l) _ =>
      let s := match s.homeOf p.die (64 * l) with
        | some k => s.cacheFill p.die k l
        | none => s
      let s := if (s.badWord (64 * l) 64).isSome || l < 2 ^ 34 && !s.cachedL1 p l then s
        else s.l1Fill p.core l
      .next ((s.modProc pid fun p => { p with granted := l :: p.granted }).wake pid)
    | _ => .next s

end Sys2Proof.Machine
end

