-- ==== Sys2Proof/Machine/Order.lean ====
section
/-! DEFINITION. FENCE, SBD and WAITC (R167, R174 to R176), and the waits that other instructions make as a FENCE.rel
would. -/

namespace Sys2Proof.Machine

/-- A FENCE of the scope covers an access of the process to an owner (R167): 0 core, 1 cluster, 2 die, 3 device,
4 system. -/
def scopeCovers (scope : Nat) : Owner → Bool
  | .die => 2 ≤ scope
  | .device => 3 ≤ scope
  | .system => 4 ≤ scope

def OpKind.isRemote : OpKind → Bool
  | .other => false
  | _ => true

/-- Tokens of the process's outstanding GETs and RAMOs that the scope covers (FENCE.acq, R167). -/
def Proc.acqToks (p : Proc) (scope : Nat) : List Nat :=
  (p.ops.filter fun o => (o.2.kind == .get || o.2.kind == .ramo) && scopeCovers scope o.2.owner).map (·.1)

/-- Tokens of the PUTs, GETs and RAMOs that the scope covers (FENCE.rel, R167). -/
def Proc.relToks (p : Proc) (scope : Nat) : List Nat :=
  (p.ops.filter fun o => o.2.kind.isRemote && scopeCovers scope o.2.owner).map (·.1)

/-- The scope of FENCE, MOD[4:2]. -/
def fenceScope (x : Args) : Nat := mN x / 4 % 8

/-- FENCE.acq (R167, R174). -/
def execFenceAcq (x : Args) (s : State) : Host.Outcome State Fault Refusal :=
  perform eFence x s fun e =>
    let ts := e.p.acqToks (fenceScope e.x)
    if ts.isEmpty then .next e.s else .parkNext e.s .memoryServer (.ops ts 0)

/-- FENCE.rel (R167, R174): the process goes on and does not park, and what does not pass the wait does not issue until it
ends. (DEDUCED, log entry 81; unsafe.) -/
def execFenceRel (x : Args) (s : State) : Host.Outcome State Fault Refusal :=
  perform eFence x s fun e =>
    let h : Hold := { toks := e.p.relToks (fenceScope e.x), sb := (e.s.core e.p.core).sbSeq, all := false }
    .next (e.upd fun p => { p with hold := some h })

/-- FENCE.full (R167, R174). -/
def execFenceFull (x : Args) (s : State) : Host.Outcome State Fault Refusal :=
  perform eFence x s fun e =>
    let ts := e.p.relToks (fenceScope e.x)
    let mark := (e.s.core e.p.core).sbSeq
    if ts.isEmpty && e.s.sbDone e.p.core mark then .next e.s else .parkNext e.s .memoryServer (.ops ts mark)

/-- SBD (R175). -/
def execSbd (x : Args) (s : State) : Host.Outcome State Fault Refusal :=
  perform eSbd x s fun e =>
    .next (e.upd fun p => { p with hold := some { toks := [], sb := (e.s.core e.p.core).sbSeq, all := true } })

/-- A limit of WAITC: none where the field is all ones (R176). -/
def waitLimit (v any : Nat) : Option Nat := if v = any then none else some v

/-- The four limits of WAITC: load, store, copy, tile (R176). -/
def waitLimits (x : Args) : List (Option Nat) :=
  match x.len with
  | .l64 => (List.range 4).map fun i => waitLimit (x.im21.toNat / 2 ^ (5 * i) % 32) 31
  | _ => (List.range 4).map fun i => waitLimit (x.ext.toNat / 2 ^ (8 * i) % 256) 255

/-- WAITC (R176). -/
def execWaitc (x : Args) (s : State) : Host.Outcome State Fault Refusal :=
  perform eWaitc x s fun e =>
    let l := waitLimits e.x
    let w : Wait := .counters (l.getD 0 none) (l.getD 1 none) (l.getD 2 none) (l.getD 3 none)
    if e.s.waitDone e.pid e.p w then .next e.s else .parkNext e.s .memoryServer w

/-- A wait, without parking, as a FENCE.rel of the scope would wait (R167): the instruction is not ready until it
ends. A mark of the store buffer is taken when the instruction first issues. -/
def Env.released (e : Env) (scope : Nat) (go : Act) : Act :=
  let mark := e.p.sbMark.getD (e.s0.core e.p.core).sbSeq
  if (e.p.relToks scope).isEmpty && e.s0.sbDone e.p.core mark then go
  else .stall (e.s0.modProc e.pid fun p => { p with sbMark := some mark })

/-- A tile store of the process that issued before a number has not written its bytes (R147, R306). -/
def State.tileStoresBefore (s : State) (pid core seq : Nat) : Bool :=
  (tblGetD s.pipes (2 * core) []).any fun t => t.pid == pid && t.seq < seq && (match t.what with
    | .store _ _ => true
    | _ => false)

/-- The unit that a parked process asks has its answer: the process wakes to take it. -/
def State.answered (s : State) (pid : Nat) : State :=
  match s.proc pid with
  | some p =>
    match p.st with
    | .parked _ .ask _ => (s.modProc pid fun p => { p with phase := 1 }).wake pid
    | _ => s
  | none => s

/-- An instruction that asks another unit parks with reason memory-server, and takes the answer as it issues again (R205,
R265, R266, R352). (DEDUCED, log entry 28; unsafe.) -/
def Env.asked (e : Env) (go : Act) : Act := if e.p.phase = 1 then go else .park e.s0 .memoryServer .ask

end Sys2Proof.Machine
end

