-- ==== Sys2Proof/Machine/Paths.lean ====
section
/-! DEFINITION. Traffic classes, paths and their routes over the links of the module (R14, R15, R26, R354 to R356), and
the rate registers (R382), and control messages (R367). Links are numbered: 0 to 7 ring link d from compute die d to d + 1; 8 to 15 the attachment of
compute die d; 16 the I/O bridge; 17 to 32 the stations; 33 to 40 the Ethernet ports. -/

namespace Sys2Proof.Machine

def bridgeLink : Nat := 16
def attachLink (phys : Nat) : Nat := 8 + phys
def stationLink (n : Nat) : Nat := 17 + n
def portLink (n : Nat) : Nat := 33 + n

/-- The input at which a die's own messages wait for its outputs, numbered beyond the links. -/
def ownInput : Nat := 41

/-- The I/O die to which a compute die attaches (R14). -/
def ioOf (phys : Nat) : Nat := 8 + phys / 4

/-- A link is UP (R380). -/
def State.linkUp (s : State) (l : Nat) : Bool := (s.link l).st == 2

/-- The traffic class of a message to another die (R354): 0 in-package, 1 scale-up, 2 scale-out. -/
def State.classOf (s : State) (ddev : Nat) : Nat :=
  if ddev = s.devId then 0 else if ddev / 2 ^ 10 % 2 ^ 11 = s.devId / 2 ^ 10 % 2 ^ 11 then 1 else 2

/-- LK.RATEn of a die (R382): k, m and CONT. -/
def rateReset (cls : Nat) : Word := BitVec.ofNat 64 (2 ^ 16 + [4, 12, 6].getD cls 4 * 2 ^ 8 + [2, 4, 2].getD cls 2)
def Die.rateWord (d : Die) (cls : Nat) : Word := tblGetD d.rate cls (rateReset cls)
def Die.rateK (d : Die) (cls : Nat) : Nat := ((d.rateWord cls).extractLsb' 8 5).toNat
def Die.rateM (d : Die) (cls : Nat) : Nat := ((d.rateWord cls).extractLsb' 0 4).toNat
def Die.contain (d : Die) (cls : Nat) : Bool := (d.rateWord cls).getLsbD 16

/-- A write of LK.RATEn (R382): ignored whole where K is 0 or above 16, M above 8 or K + M above 24; reserved fields
stay zero. -/
def rateWrite (old v : Word) : Word :=
  let k := (v.extractLsb' 8 5).toNat
  let m := (v.extractLsb' 0 4).toNat
  if k = 0 || 16 < k || 8 < m || 24 < k + m then old else v &&& 0x11F0F

/-- Steps around the compute ring (R15): each the link and the die behind it. -/
def ringRoute (a : Nat) (clockwise : Bool) : Nat → List (Nat × Nat)
  | 0 => []
  | n + 1 =>
    let b := if clockwise then (a + 1) % 8 else (a + 7) % 8
    ((if clockwise then a else b), b) :: ringRoute b clockwise n

/-- The compute die at a physical place is live. -/
def State.physLive (s : State) (phys : Nat) : Bool := s.liveDies.any fun d => (s.die d).phys == phys

/-- Compute dies by increasing distance around the ring, clockwise first, with the way there (R355). -/
def ringOrder (a : Nat) : List (Nat × List (Nat × Nat)) :=
  [1, 2, 3, 4].flatMap fun n => [((a + n) % 8, ringRoute a true n), ((a + 8 - n) % 8, ringRoute a false n)]

/-- From a compute die to an I/O die (R355). -/
def State.toIo (s : State) (a io : Nat) : List (Nat × Nat) :=
  let legs (b : Nat) : List (Nat × Nat) := (attachLink b, ioOf b) :: (if ioOf b = io then [] else [(bridgeLink, io)])
  if s.linkUp (attachLink a) then legs a
  else
    let ok (same : Bool) (x : Nat × List (Nat × Nat)) : Bool :=
      s.physLive x.1 && s.linkUp (attachLink x.1) && (ioOf x.1 == ioOf a) == same
    match ((ringOrder a).find? (ok true)).or ((ringOrder a).find? (ok false)) with
    | some x => x.2 ++ legs x.1
    | none => legs a

/-- A route in the other direction, from its end back to `a`. -/
def backRoute (a : Nat) (r : List (Nat × Nat)) : List (Nat × Nat) :=
  ((r.map (·.1)).zip (a :: r.map (·.2))).reverse

/-- The way from a physical compute die to a destination by a path of a class (R355). -/
def State.pathRoute (s : State) (a cls path b : Nat) : List (Nat × Nat) :=
  match cls with
  | 0 =>
    if path = 0 then ringRoute a true ((b + 8 - a) % 8)
    else if path = 1 then ringRoute a false ((a + 8 - b) % 8)
    else (attachLink a, ioOf a) :: ((if ioOf a = ioOf b then [] else [(bridgeLink, ioOf b)]) ++ [(attachLink b, b)])
  | 1 => s.toIo a (8 + path / 8) ++ [(stationLink path, 255)]
  | _ => s.toIo a (8 + path / 4) ++ [(portLink path, 255)]

/-- The way from a station or port to a compute die. -/
def State.inRoute (s : State) (cls path b : Nat) : List (Nat × Nat) :=
  let io := if cls = 1 then 8 + path / 8 else 8 + path / 4
  ((if cls = 1 then stationLink path else portLink path), io) :: backRoute b (s.toIo b io)

/-- Number of paths of a class. -/
def pathCount (cls : Nat) : Nat := [3, 16, 8].getD cls 0

/-- The live paths from a die to a destination, in increasing order (R355). -/
def State.livePaths (s : State) (die ddev ddie : Nat) : List Nat :=
  let cls := s.classOf ddev
  (List.range (pathCount cls)).filter fun p =>
    (s.pathRoute (s.die die).phys cls p (s.die ddie).phys).all fun x => s.linkUp x.1

/-- The effective mask of a message (R170, R356). -/
def State.effective (s : State) (die ddev ddie pmask : Nat) : List Nat :=
  (s.livePaths die ddev ddie).filter fun p => pmask = 0 || pmask.testBit p

/-- The lowest path above a rotor, wrapping round (R164, R356). -/
def nextPath (e : List Nat) (rotor : Nat) : Nat := ((e.find? (rotor < ·)).or e.head?).getD 0

/-- Bytes of one message of a unit to a die (R368). -/
def State.unitSize (s : State) (die dev : Nat) : Nat := 256 * (s.die die).rateK (s.classOf dev)

/-- The offsets of the messages of a unit of `n` bytes. -/
def unitOffsets (n size : Nat) : List Nat := (List.range ((n + size - 1) / size)).map (size * ·)

/-- The context has used its link budget on a die (R185, R379), in 64-byte units. -/
def State.lkOut (s : State) (die ctx : Nat) : Bool :=
  (s.ctx ctx).lkb != 0 && 64 * (s.ctx ctx).lkb ≤ tblGetD (s.die die).lkUsed ctx 0

/-- Key of a destination die in the tables of a source die. -/
def destKey (dev die : Nat) : Nat := 8 * dev + die

/-- Planes of an I/O die (R356). -/
def ioPlane (io p : Nat) : Bool := 8 + p / 4 == io

/-! ### Identity and keys (R366, R375) -/

/-- The next MSGID and EPOCH of a die (R366); EPOCH rises as MSGID wraps, and no key's last EPOCH is then current. -/
def State.nextId (s : State) (die : Nat) : State :=
  let d := s.die die
  if d.msgid + 1 < 2 ^ 32 then s.modDie die fun d => { d with msgid := d.msgid + 1 }
  else
    let s := s.modDie die fun d => { d with msgid := 0, epoch := (d.epoch + 1) % 256 }
    { s with epochs := s.epochs.map fun k => if k.1 % 8 = die then (k.1, k.2 ++ [256]) else k }

/-- The EPOCH may be used under the key to a device (R375): it is the one in use, or was never used. -/
def State.epochFree (s : State) (die dev : Nat) : Bool :=
  let used := tblGetD s.epochs (destKey dev die) []
  let e := (s.die die).epoch
  used.getLast? == some e || !used.contains e

def State.useEpoch (s : State) (die dev : Nat) : State :=
  let used := tblGetD s.epochs (destKey dev die) []
  let e := (s.die die).epoch
  if used.contains e then s else { s with epochs := tblSet s.epochs (destKey dev die) (used ++ [e]) }

/-! ### Control messages and acknowledgements (R367, R371) -/

/-- Identical fragments of a control message from a die to a device (R367): m + 1, with the m of its class. -/
def State.ctlCopies (s : State) (die dev : Nat) : Nat := (s.die die).rateM (s.classOf dev) + 1

/-- The KIND of a control message (R367). -/
def ctlKind (kind : Nat) : Bool := 10 ≤ kind && kind ≤ 16

/-- The paths of a control message and its queue pair (R356): at scale-out that of the message which it concerns, else one of the
I/O die that holds the lowest live plane. (DEDUCED, log entry 34; unsafe.) -/
def State.ctlPaths (s : State) (c : Ctl) : List Nat × Option Nat :=
  let e := s.livePaths c.sdie c.ddev c.ddie
  if s.classOf c.ddev != 2 then (e, none)
  else match c.qp, e with
    | some t, _ => (e.filter (ioPlane (8 + t / 2 ^ 14 % 2)), some t)
    | none, [] => ([], none)
    | none, p :: _ =>
      let io := 8 + p / 4
      (e.filter (ioPlane io), ((s.io io).qps.find? fun q => q.2.pdev == c.ddev && q.2.pchan == 0 && q.2.st == 1).map fun q =>
        (io - 8) * 2 ^ 14 + q.1)

/-- The payload of a control message (R367). (DEDUCED, log entry 34; unsafe.) -/
def Ctl.bytes (c : Ctl) : List Byte :=
  if 13 ≤ c.kind && c.kind ≤ 15 then c.body.flatMap (natBytes 2)
  else natBytes 4 c.msgid ++ natBytes 4 c.epoch ++ (if c.kind = 11 then natBytes 4 (c.body.headD 0) else [])

/-- The fragments of a control message, placed from its lead path, the lowest (R356, R367); its AGE is 255 (R378). -/
def State.ctlFrags (s : State) (c : Ctl) : List Frag :=
  let d := s.die c.sdie
  let cls := s.classOf c.ddev
  let e := s.ctlPaths c
  (encodeFrags 1 (d.rateM cls) c.bytes).zipIdx.map fun (x : List Byte × Nat) =>
    let path := e.1.getD (x.2 % e.1.length) 0
    { ddev := c.ddev, ddie := c.ddie, sdev := s.devId, sdie := c.sdie, age := 255, cls := cls, msgid := d.msgid, epoch := d.epoch,
      k := 1, m := d.rateM cls, idx := x.2, slot := 0, ctxtag := if c.kind = 16 then c.body.getD 0 0 else 0, kind := c.kind,
      lead := e.1.headD 0, fseq := if c.kind = 16 then c.body.getD 2 0 else 0, len := c.bytes.length, addr := 0,
      rank := if c.kind = 16 then c.body.getD 1 0 else 0, opw := 0, echo := if c.kind = 10 then c.body.getD 1 0 else 0,
      data := x.1, path := path, route := (ownInput, d.phys) :: s.pathRoute d.phys cls path (s.die c.ddie).phys, qp := e.2,
      waited := d.cycle, ctl := some c }

/-- A control message from a die (R367): its identical fragments leave, under the next MSGID of the die, where a path lives and the
key and session may be used; else it is lost, since nothing retains it. (DEDUCED, log entry 34; unsafe.) -/
def State.control (s : State) (c : Ctl) : State :=
  if c.ddev = s.devId && c.ddie = c.sdie then { s with ctl := s.ctl ++ [c] }
  else if (s.ctlPaths c).1.isEmpty || !s.epochFree c.sdie c.ddev || (c.ddev != s.devId && !nsHas s.sessions c.ddev) then s
  else
    let fs := s.ctlFrags c
    let t := (s.useEpoch c.sdie c.ddev).nextId c.sdie
    { t with wire := t.wire ++ fs }

/-- A decode slot is free again (R374). -/
def State.freeSlot (s : State) (die slot : Nat) : State :=
  s.modDie die fun d => { d with dslots := tblMod d.dslots slot fun x => { x with st := 0 } }

/-- The message of a commit has performed: it is acknowledged, and its slot and commit go (R371 step 4). -/
def State.ackCommit (s : State) (die : Nat) (c : Commit) (cause : Nat) : State :=
  let s := (s.freeSlot die c.slot).modDie die fun d => { d with commits := d.commits.filter fun x => x.slot != c.slot }
  s.control { kind := 10, sdev := s.devId, sdie := die, ddev := c.frag.sdev, ddie := c.frag.sdie, msgid := c.frag.msgid,
              epoch := c.frag.epoch, body := [cause, c.frag.stamp], qp := c.frag.via }

/-- A message that has come over a link has been delivered: its slots are acknowledged (R371 step 4, R412). -/
def State.acknowledge (s : State) (home : Option (Nat × List Nat)) : State :=
  match home with
  | none => s
  | some (die, slots) =>
    ((s.die die).commits.filter fun c => slots.contains c.slot).foldl (fun (s : State) (c : Commit) => s.ackCommit die c 0) s

end Sys2Proof.Machine
end

