-- ==== Sys2Proof/Machine/Reduce.lean ====
section
/-! DEFINITION. Reduction in the fixed binary tree of R49, which VRED and GRED share. -/

namespace Sys2Proof.Machine

/-- One combination of two lane patterns (R49, R285, R324): 0 add, 1 least, 2 greatest, 3 and, 4 or, 5 xor. -/
def combine (op ty mode : Nat) (payl : Bool) (x y : Nat) : Nat × Cond :=
  let m := 2 ^ tyWidth ty
  if ty < 8 then
    let a := intVal ty (BitVec.ofNat 64 x)
    let b := intVal ty (BitVec.ofNat 64 y)
    match op with
    | 0 => ((x + y) % m, {})
    | 1 => (if a ≤ b then x % m else y % m, {})
    | 2 => (if b ≤ a then x % m else y % m, {})
    | 3 => ((x &&& y) % m, {})
    | 4 => ((x ||| y) % m, {})
    | _ => ((x ^^^ y) % m, {})
  else
    let f := fmtTy ty
    let r := if op = 0 then f.add mode payl (f.decode x) (f.decode y) else f.minMax payl (op == 2) x y
    (r.bits, r.c)

/-- One level of the tree: a node with one absent child passes the other. -/
def treeLevel (g : Nat → Nat → Nat × Cond) : List (Option Nat) → List (Option Nat) × Cond
  | a :: b :: t =>
    let r := treeLevel g t
    match a, b with
    | some x, some y =>
      let v := g x y
      (some v.1 :: r.1, v.2.or r.2)
    | some x, none => (some x :: r.1, r.2)
    | none, y => (y :: r.1, r.2)
  | l => (l, {})

/-- The levels of the tree until one node is left, at most `fuel`. -/
def treeReduce (g : Nat → Nat → Nat × Cond) : Nat → List (Option Nat) → Option Nat × Cond
  | 0, l => (l.head?.join, {})
  | fuel + 1, l =>
    match l with
    | [] => (none, {})
    | [a] => (a, {})
    | _ =>
      let r := treeLevel g l
      let s := treeReduce g fuel r.1
      (s.1, r.2.or s.2)

end Sys2Proof.Machine
end

