-- ==== Sys2Proof/Machine/Group.lean ====
section
/-! DEFINITION. Groups (R315 to R326) and hardware barriers (R327 to R336): GSEND, GRED, GQRY, GSW, BINI, BARV, BWT,
BAW, BADD, BGEN, and the events of the Diffuser and of the combining point. -/

namespace Sys2Proof.Machine

/-! ### The group table -/

def State.group (s : State) (ctx entry : Nat) : Group := tblGetD (s.ctx ctx).groups entry {}
def State.modGroup (s : State) (ctx entry : Nat) (f : Group → Group) : State :=
  s.modCtx ctx fun c => { c with groups := tblSet c.groups entry (f (tblGetD c.groups entry {})) }

/-- Group rank of a rank in the set FIRST, STRIDE, COUNT (R315). -/
def groupRank (first stride count rank : Nat) : Option Nat :=
  if rank < first then none
  else if count = 1 || stride = 0 then (if rank = first && 1 ≤ count then some 0 else none)
  else if (rank - first) % stride = 0 && (rank - first) / stride < count then some ((rank - first) / stride) else none

def Group.rankOf (g : Group) (rank : Nat) : Option Nat := groupRank g.first g.stride g.count rank
def Group.has (g : Group) (rank : Nat) : Bool := (g.rankOf rank).isSome

/-- The ranks of a member set in group-rank order. -/
def memberRanks (first stride count : Nat) : List Nat := (List.range count).map fun i => first + i * stride

/-- A legal member set (R316), entry `entry` being replaced by it. -/
def State.legalSet (s : State) (ctx entry first stride count : Nat) : Bool :=
  let others := ((s.ctx ctx).groups.filter fun g => g.1 != entry && g.2.state != 0).map (·.2)
  1 ≤ count && count ≤ 2 ^ 24 && (count = 1 || 1 ≤ stride) && first + (count - 1) * stride < 2 ^ 32
    && (memberRanks first stride count).all fun r => decide ((others.filter fun g => g.has r).length < 4)

/-- An entry that GSEND, GRED and GSW may name (R318). -/
def State.groupUsable (s : State) (ctx : Nat) (a : Word) : Bool :=
  a.toNat < 256 && 2 ≤ (s.group ctx a.toNat).state && (s.ctx ctx).st != .draining

/-! ### Barriers -/

def State.bar (s : State) (core b : Nat) : Barrier := tblGetD (s.core core).bars b {}
def State.modBar (s : State) (core b : Nat) (f : Barrier → Barrier) : State :=
  s.modCore core fun c => { c with bars := tblSet c.bars b (f (tblGetD c.bars b {})) }

/-- "Complete" of R329: the generation advances, and every process that waits on it wakes. -/
def State.completeBar (s : State) (core b : Nat) (ovr : Bool) : State :=
  (s.modBar core b fun x =>
    { x with gen := (x.gen + 1) % 2 ^ 16, count := 0, state := if x.auto then 1 else 3, ovr := x.ovr || ovr }).recheckAll

/-- Engine bytes land against a barrier (R329, R330). -/
def State.countBytes (s : State) (core b ctx n : Nat) : State :=
  let x := s.bar core b
  if x.state = 0 || x.owner != ctx then s
  else if x.mode = 1 && x.state = 1 then
    if x.target ≤ x.count + n then s.completeBar core b (x.target < x.count + n)
    else s.modBar core b fun x => { x with count := x.count + n }
  else s.modBar core b fun x => { x with ovr := true }

/-- The checks of R328 for a barrier operation: INFO of the fault 36. `accepts` lists the modes that the operation
takes; `light` is BWT and BGEN, `init` BINI. -/
def barCheck (x : Barrier) (n ctx : Nat) (light init : Bool) (accepts : List Nat) : Option Nat :=
  if 96 ≤ n then some 0
  else if !light && x.owner != ctx && x.state != 0 then some 2
  else if !light && !init && x.state = 0 then some 1
  else if !init && !light && !accepts.contains x.mode then some 3
  else if init && (x.state = 2 || (x.state = 1 && x.count != 0)) then some 4
  else none

/-- A barrier operation after its checks. -/
def Env.barrier (e : Env) (light init : Bool) (accepts : List Nat) (go : Nat → Barrier → Act) : Act :=
  let n := e.a.toNat
  let x := e.s0.bar e.p.core n
  match barCheck x n e.p.ctx light init accepts with
  | some i => e.trap 36 i
  | none => go n x

/-- The largest target of a mode (R334). -/
def barMaxTarget (mode : Nat) : Nat := if mode = 0 then 2 ^ 32 - 1 else 2 ^ 40 - 1

/-- BINI (R334). -/
def execBini (x : Args) (s : State) : Host.Outcome State Fault Refusal :=
  perform eBini x s fun e =>
    e.barrier false true [] fun n _ =>
      let m := mN e.x % 4
      let set (g : Option Nat) (t : Nat) : Act :=
        .next (e.s.modBar e.p.core n fun b =>
          { b with mode := m, auto := (mN e.x).testBit 2, target := t, count := 0, ovr := false, state := 1,
                   owner := e.p.ctx, gv := g.isSome, group := g.getD 0 })
      if m = 2 then
        if !e.s0.groupUsable e.p.ctx e.c then e.trap 39
        else if !(e.s0.group e.p.ctx e.c.toNat).has e.p.rank then e.trap 38
        else set (some e.c.toNat) 1
      else if e.b = 0 || barMaxTarget m < e.b.toNat then e.trap 14 0 e.b
      else set none e.b.toNat

/-- The add of a BARV or BAW in group mode (R332): the core's arrival goes to the combining point. -/
def State.groupArrive (s : State) (core n ctx : Nat) : State :=
  let x := s.bar core n
  { s.modBar core n fun b => { b with state := 2 } with gArrive := s.gArrive ++ [(ctx, x.group, n, core)] }

/-- An add of `n` by an instruction (R329): the state after it, or none where fault 37 is raised. -/
def State.barAdd (s : State) (core b ctx n : Nat) : Option State :=
  let x := s.bar core b
  if x.state != 1 then none
  else if x.mode = 2 then some (s.groupArrive core b ctx)
  else if x.count + n < x.target then some (s.modBar core b fun x => { x with count := x.count + n })
  else if x.count + n = x.target then some (s.completeBar core b false)
  else none

/-- The wait and membership check of an add, and the add (R331, R335). -/
def Env.barAdd (e : Env) (b : Nat) (x : Barrier) (n : Nat) (go : State → Act) : Act :=
  if x.mode = 2 && !(e.s0.group e.p.ctx x.group).has e.p.rank then e.trap 38
  else e.released (if x.mode = 2 then 4 else 2) (match e.s.barAdd e.p.core b e.p.ctx n with
    | none => e.trap 37
    | some s => go s)

/-- BARV (R335). -/
def execBarv (x : Args) (s : State) : Host.Outcome State Fault Refusal :=
  perform eBarv x s fun e => e.barrier false false [0, 2] fun n b => e.barAdd n b 1 .next

/-- A process that waits for a generation to leave `g`: it takes its value in `s`, where the instruction's full bits are
cleared, or parks in `w`, where they are not (R64); phase 1 keeps the generation. -/
def Env.awaitGen (e : Env) (n g : Nat) (s w : State) : Act :=
  let now := (s.bar e.p.core n).gen
  if now != g then .next (s.modProc e.pid fun p => p.wrOp e.x.d.toNat (BitVec.ofNat 64 now))
  else .park (w.modProc e.pid fun p => { p with phase := 1, seenGen := g }) .barrier (.generation n g)

/-- BAW (R335): the process that has added and woken reads the generation. -/
def execBaw (x : Args) (s : State) : Host.Outcome State Fault Refusal :=
  perform eBaw x s fun e =>
    if e.p.phase = 1 then e.awaitGen e.a.toNat e.p.seenGen e.s e.s0
    else e.barrier false false [0, 2] fun n b => e.barAdd n b 1 fun s =>
      e.awaitGen n b.gen s ((e.s0.barAdd e.p.core n e.p.ctx 1).getD e.s0)

/-- BADD (R335). -/
def execBadd (x : Args) (s : State) : Host.Outcome State Fault Refusal :=
  perform eBadd x s fun e => e.barrier false false [0, 1] fun n b =>
    if e.b = 0 then .next e.s else e.barAdd n b (e.b.toNat % 2 ^ 40) .next

/-- BWT (R336). -/
def execBwt (x : Args) (s : State) : Host.Outcome State Fault Refusal :=
  perform eBwt x s fun e => e.barrier true false [] fun n _ => e.awaitGen n (e.b.toNat % 2 ^ 16) e.s e.s0

/-- The status and target words of R327. -/
def Barrier.status (b : Barrier) : Nat :=
  b.gen * 2 ^ 48 + (if b.ovr then 2 ^ 47 else 0) + b.state * 2 ^ 45 + b.mode * 2 ^ 43 + (if b.auto then 2 ^ 42 else 0) + b.count
def Barrier.targetWord (b : Barrier) : Nat :=
  b.owner * 2 ^ 49 + (if b.gv then 2 ^ 48 else 0) + b.group * 2 ^ 40 + b.target

/-- BGEN (R336). -/
def execBgen (x : Args) (s : State) : Host.Outcome State Fault Refusal :=
  perform eBgen x s fun e => e.barrier true false [] fun _ b =>
    e.ret (BitVec.ofNat 64 (if mN e.x = 0 then b.status else b.targetWord))

/-! ### The combining point of group barriers (R332) -/

/-- Cores that hold a live member of a set (R332, R320), in increasing order. -/
def State.memberCores (s : State) (ctx first stride count : Nat) : List Nat :=
  (s.procs.foldl (fun (t : NSet) e =>
    if e.2.ctx == ctx && e.2.st != .stopped && (groupRank first stride count e.2.rank).isSome then nsAdd t e.2.core
    else t) []).map (·.1)

/-- Cores of other devices that hold a member of a set, by `farCore` (R411). -/
def State.farMembers (s : State) (ctx first stride count : Nat) : List Nat :=
  ((s.ctx ctx).farRanks.foldl (fun (t : NSet) e =>
    if (groupRank first stride count e.1).isSome then nsAdd t e.2 else t) []).map (·.1)

/-- The combining point lies on this module: no peer device of the context has a lower identifier. -/
def State.combinesHere (s : State) (ctx : Nat) : Bool := (s.ctx ctx).peers.all fun d => s.devId ≤ d

/-- A token record goes from a die to a die of this or another device (R332, R258, R367 KIND 9).
(DEDUCED, log entry 54; unsafe.) -/
def State.sendTokenFrom (s : State) (die ctx dev ddie : Nat) (record : List Nat) : State :=
  let w : ChanWire := { ctx := ctx, chan := 0, msg := { ticket := 0, pid := 0, parts := [] }, token := record }
  (s.outbound die (outTo 9 0 ctx 0 dev ddie w (record.flatMap fun n => natBytes 8 n))).2

/-- One goes from this device's Diffuser to another's, from the first live die. -/
def State.sendToken (s : State) (ctx dev : Nat) (record : List Nat) : State :=
  s.sendTokenFrom (s.liveDies.headD 0) ctx dev 0 record

/-- GROUP_BARRIER_ARRIVAL (R332): the first arrival of a generation fixes its cores, those of other devices among them; the last
sends completion to each. Where the combining point lies on another device, the arrival goes there. -/
def execGroupBarrierArrival (index : Nat) (s : State) : Host.Outcome State Fault Refusal :=
  match s.gArrive[index]? with
  | none => .next s
  | some (ctx, entry, b, core) =>
    let s := { s with gArrive := s.gArrive.eraseIdx index }
    if !s.combinesHere ctx then
      .next (s.sendToken ctx ((s.ctx ctx).peers.foldl min s.devId) [0, entry, b, core])
    else
      let k := 256 * b + entry
      let g := s.group ctx entry
      let w := (tblGet (s.ctx ctx).gbars k).getD (s.memberCores ctx g.first g.stride g.count ++ s.farMembers ctx g.first g.stride g.count, [])
      let got := core :: w.2
      if w.1.all got.contains then
        .next { s.modCtx ctx fun c => { c with gbars := tblErase c.gbars k } with
          gDone := s.gDone ++ w.1.map fun c => (ctx, entry, b, c) }
      else .next (s.modCtx ctx fun c => { c with gbars := tblSet c.gbars k (w.1, got) })

/-- GROUP_BARRIER_COMPLETION (R329): completion reaches a core whose barrier is SENT, or leaves for that core's device. -/
def execGroupBarrierCompletion (index : Nat) (s : State) : Host.Outcome State Fault Refusal :=
  match s.gDone[index]? with
  | none => .next s
  | some (ctx, entry, b, core) =>
    let s := { s with gDone := s.gDone.eraseIdx index }
    if 2048 ≤ core then .next (s.sendToken ctx (core / 2048 - 1) [1, entry, b, core % 2048])
    else if (s.bar core b).state = 2 then .next (s.completeBar core b false) else .next s

/-! ### Multicast (R319 to R321) -/

/-- An engine operation starts (R147): D becomes pending and the copy counter rises. -/
def Env.startCopy (e : Env) : State :=
  e.upd fun p =>
    let p := match p.name e.x.d.toNat with
      | some r => p.pend r
      | none => p
    { p with cCopy := p.cCopy + 1 }

/-- The status operand of an instruction. -/
def Env.status (e : Env) : Option RName := e.p.name e.x.d.toNat

/-- The barrier field of an engine instruction (R147): MOD[7] is .b. -/
def barField (x : Args) : Option Nat := if (mN x).testBit 7 then some (mN x % 128) else none
def barBad (x : Args) : Bool := (barField x).any fun b => 96 ≤ b

/-- GSEND (R319). (DEDUCED, log entry 19; unsafe.) -/
def execGsend (x : Args) (s : State) : Host.Outcome State Fault Refusal :=
  perform eGsend x s fun e =>
    let n := e.c.toNat % 2 ^ 17
    let off := e.c.toNat / 2 ^ 40 % 2 ^ 23
    let dsp := e.c.getLsbD 63
    let c := e.s0.ctx e.p.ctx
    let src := e.areg e.x.b
    if e.c.toNat / 2 ^ 17 % 2 ^ 23 != 0 then e.trap 2
    else if barBad e.x then e.trap 36
    else if !e.s0.groupUsable e.p.ctx e.a then e.trap 39
    else if !(e.s0.group e.p.ctx e.a.toNat).has e.p.rank then e.trap 38
    else if n = 0 then e.ret 0
    else if 65536 < n then e.trap 14
    else if n % 8 != 0 || off % 8 != 0 then e.trap 16
    else if (if dsp then c.slen else c.tlen) < off + n then e.trap 17
    else if src.valid && src.space != spLocal && src.space != spCluster then e.trap 15 0 src.ptr
    else e.access src src.ptr n src.space (pEN ||| pRD) 8 {} fun _ =>
      if 65535 ≤ e.p.cCopy then .stall e.s0
      else
        let k := e.s0.seq
        let pk : GPacket :=
          { ctx := e.p.ctx, pid := e.pid, tok := k, entry := e.a.toNat, die := e.p.die, core := e.p.core,
            space := src.space, src := src.ptr.toNat, count := n, sb := (e.s0.core e.p.core).sbSeq,
            toks := e.p.relToks 4, off := off, dsp := dsp, bar := barField e.x }
        let s := e.startCopy.modProc e.pid fun p =>
          { p with ops := tblSet p.ops k { kind := .other, owner := .die, dest := e.status } }
        .next { s with seq := k + 1, gpackets := s.gpackets ++ [pk] }

/-- The physical address of offset `o` in a window of the context on a core. -/
def State.windowPA (s : State) (core ctx space o : Nat) : Nat :=
  if space = spLocal then s.localPA core ctx o else s.padAddr core ctx o

/-- The packet leaves, and the status word is written (R320). -/
def State.endPacket (s : State) (k : GPacket) (cause bytes : Nat) : State :=
  let dest := ((s.proc k.pid).bind fun p => tblGet p.ops k.tok).bind (·.dest)
  let s := { s with gpackets := s.gpackets.filter fun x => x.tok != k.tok }
  (s.modProc k.pid fun p => { p with ops := tblErase p.ops k.tok }).endCopy k.pid dest cause bytes

/-- Compute dies that a message leaves on its way from a die to its I/O die, itself first (R15, R355). -/
def State.diesToIo (s : State) (die io : Nat) : List Nat :=
  die :: ((s.toIo (s.die die).phys io).map (·.2)).filterMap fun ph => s.liveDies.find? fun d => ph < 8 && (s.die d).phys == ph

/-- Bytes of a context leave dies: they count against its link budget at each (R185, R320). -/
def State.countLeft (s : State) (ctx n : Nat) (dies : List Nat) : State :=
  dies.foldl (fun (s : State) (d : Nat) => s.modDie d fun x => { x with lkUsed := tblSet x.lkUsed ctx (tblGetD x.lkUsed ctx 0 + n) }) s

/-- Devices that hold members of a set (R320). -/
def State.farDevices (s : State) (ctx first stride count : Nat) : List Nat :=
  ((s.farMembers ctx first stride count).map fun c => c / 2048 - 1).eraseDups

/-- Bytes of the fragments of a packet of `n` bytes as it leaves its die, with header flits and parity (R379). -/
def State.packetBytes (s : State) (die n : Nat) : Nat :=
  let size := s.unitSize die s.devId
  let d := s.die die
  ((unitOffsets n size).map fun o =>
    let len := min size (n - o)
    (fragCount (d.rateK 0) len + d.rateM 0) * (64 + fragSize (fragCount (d.rateK 0) len) len)).sum

/-- A copy of a packet goes to another die of this device, or to another device's Diffuser, as messages of one unit (R320, R354,
R367 KIND 8). -/
def State.sendCopy (s : State) (k : GPacket) (bs : List Byte) (dev ddie : Nat) : State :=
  let w : ChanWire := { ctx := k.ctx, chan := 0, msg := { ticket := 0, pid := 0, parts := [] },
                        copy := some { off := k.off, dsp := k.dsp, bar := k.bar, first := k.first, stride := k.stride, members := k.members } }
  let size := s.unitSize k.die dev
  let offs := unitOffsets bs.length size
  let u := s.seq
  let rank := ((s.proc k.pid).map (·.rank)).getD 0
  offs.foldl (fun (s : State) (o : Nat) => (s.outbound k.die
    { outTo 8 k.pid k.ctx rank dev ddie w ((bs.drop o).take size) with tok := k.tok, off := o, unit := u, parts := offs.length }).2)
    { s with seq := u + 1 }

/-- DIFFUSER_PACKET_ACCEPT (R320): the source is read once, after the sender's earlier stores, the member set is
fixed, and a copy leaves for each other die and each other device that holds members; packets of one process to one group are
accepted in issue order (R321). A soft link budget that is exhausted holds the packet back (R379). In a DRAINING context none is
accepted, and the packet ends (R318). (DEDUCED, log entry 54; unsafe.) -/
def execDiffuserPacketAccept (index : Nat) (s : State) : Host.Outcome State Fault Refusal :=
  match s.gpackets[index]? with
  | none => .next s
  | some k =>
    match s.proc k.pid with
    | none => .next s
    | some p =>
      let earlier := (s.gpackets.take index).any fun x => x.pid == k.pid && x.entry == k.entry && x.bytes.isNone
      if k.bytes.isSome || earlier then .next s
      else if (s.ctx k.ctx).st == .draining then .next (s.endPacket k 0 0)
      else if !s.sbDone p.core k.sb || !p.opsDone k.toks || s.tileStoresBefore k.pid p.core k.tok then .next s
      else if !(s.ctx k.ctx).lkHard && (s.diesToIo k.die (ioOf (s.die k.die).phys)).any fun d => s.lkOut d k.ctx then .next s
      else
        let pa := s.windowPA p.core k.ctx k.space k.src
        if (s.badWord pa k.count).isSome then .next (s.endPacket k 24 0)
        else
          let g := s.group k.ctx k.entry
          let bs := s.read pa k.count
          let near := ((s.memberCores k.ctx g.first g.stride g.count).map coreDie).eraseDups
          let goals := ((near.filter (· != k.die)).map fun d => (s.devId, d))
            ++ (s.farDevices k.ctx g.first g.stride g.count).map fun d => (d, 0)
          let k' := { k with bytes := some bs, first := g.first, stride := g.stride, members := g.count, gen := g.gen,
                             dies := near.filter (· == k.die),
                             far := (goals.map fun d => (unitOffsets bs.length (s.unitSize k.die d.1)).length).sum }
          let s := s.modGroup k.ctx k.entry fun g => { g with draining := g.draining + 1 }
          let s := s.countLeft k.ctx (s.packetBytes k.die k.count) (s.diesToIo k.die (ioOf (s.die k.die).phys))
          .next (goals.foldl (fun s d => s.sendCopy k' bs d.1 d.2) { s with gpackets := listSet s.gpackets index k' })

/-- A packet or collective instance of an entry has drained (R318). -/
def State.drained1 (s : State) (ctx entry : Nat) : State :=
  s.modGroup ctx entry fun g => { g with draining := g.draining - 1 }

/-- A copy lands at one core, or at one cluster under DSP (R320). -/
def State.landCopy (s : State) (k : GPacket) (bytes : List Byte) (t : Nat) : State × Option Nat :=
  let c := s.ctx k.ctx
  let core := if k.dsp then 16 * t else t
  if (if k.dsp then c.slen else c.tlen) < k.off + k.count then (s, some 17)
  else
    let s := s.write (s.windowPA core k.ctx (if k.dsp then spCluster else spLocal) k.off) bytes
    (match k.bar with
      | some b => s.countBytes core b k.ctx k.count
      | none => s, none)

/-- The cause of the first failed copy in core-number order. -/
def firstFail (fs : List (Nat × Nat)) : Nat := ((earliestFail fs).map (·.2)).getD 0
where
  earliestFail : List (Nat × Nat) → Option (Nat × Nat)
    | [] => none
    | f :: t => match earliestFail t with
      | none => some f
      | some g => if f.1 ≤ g.1 then some f else some g

/-- Every copy of a packet has landed or failed: the packet ends, or for one that has come from another device its messages are
acknowledged (R320, R371). -/
def State.packetDone (s : State) (k : GPacket) : State :=
  if !k.targets.isEmpty || !k.dies.isEmpty || k.far != 0 then s
  else
    let cause := firstFail k.fails
    match k.home with
    | some (die, slots) =>
      let s : State := { s with gpackets := s.gpackets.filter fun x => x.tok != k.tok }
      ((s.die die).commits.filter fun c => slots.contains c.slot).foldl (fun (s : State) (c : Commit) => s.ackCommit die c cause) s
    | none => (s.drained1 k.ctx k.entry).endPacket k cause (if k.fails.isEmpty then k.count else 0)

/-- An earlier packet of the process has yet to be accepted, or to land where the copy lands next (R321). -/
def GPacket.behind (k : GPacket) (t : Nat) (x : GPacket) : Bool :=
  let die := coreDie (if k.dsp then 16 * t else t)
  let clu (dsp : Bool) (u : Nat) : Nat := if dsp then u else coreCluster u
  x.pid == k.pid && x.home == k.home &&
    (x.bytes.isNone || x.dies.contains die || x.targets.any fun u => if x.dsp == k.dsp then u == t else clu x.dsp u == clu k.dsp t)

/-- GSEND_COPY_LAND (R320): a copy reaches its next die, where the members are resolved to cores, and lands at the
next core or cluster; the last ends the packet. Packets of one process reach a core in order (R321). -/
def execGsendCopyLand (index : Nat) (s : State) : Host.Outcome State Fault Refusal :=
  match s.gpackets[index]? with
  | none => .next s
  | some k =>
    match k.bytes with
    | none => .next s
    | some bs =>
      let cores (d : Nat) := (s.memberCores k.ctx k.first k.stride k.members).filter fun c => coreDie c == d
      let aims (d : Nat) := if k.dsp then ((cores d).map coreCluster).eraseDups else cores d
      let before := s.gpackets.take index
      let r := match k.targets, k.dies with
        | [], d :: t =>
          if before.any fun x => x.pid == k.pid && x.home == k.home && (x.bytes.isNone || x.dies.contains d) then (s, k)
          else
            (if k.home.isSome && k.die != d then s.countLeft k.ctx (s.packetBytes d k.count) ((s.diesToIo d (ioOf (s.die d).phys)).tail)
              else s, { k with targets := aims d, dies := t })
        | _, _ => (s, k)
      let r := match r.2.targets with
        | [] => r
        | t :: ts =>
          if before.any (k.behind t) then r
          else
            let q := r.1.landCopy r.2 bs t
            (q.1, { r.2 with targets := ts, fails := k.fails ++ (q.2.toList.map fun c => (t, c)) })
      let s := { r.1 with gpackets := listSet r.1.gpackets index r.2 }
      .next (s.packetDone r.2).recheckAll

/-- A message of a copy to another die or device has ended (R320): with cause 42 where a link could not recover it. -/
def State.copyEnded (s : State) (tok dev die cause : Nat) : State :=
  match s.gpackets.find? fun k => k.tok == tok && k.home.isNone with
  | none => s
  | some k =>
    let at_ := if dev != s.devId then farCore dev 0 else if k.dsp then 16 * die else 256 * die
    let k' := { k with far := k.far - 1, fails := if cause = 0 then k.fails else k.fails ++ [(at_, cause)] }
    let s : State := { s with gpackets := s.gpackets.map fun (x : GPacket) => if x.tok == tok && x.home.isNone then k' else x }
    s.packetDone k'

/-! ### GSW and GQRY -/

/-- GSW (R322): phase 1 is the wait for the drain, and its end the change to ACTIVE (R318). (DEDUCED, log entry 54; unsafe.) -/
def execGsw (x : Args) (s : State) : Host.Outcome State Fault Refusal :=
  perform eGsw x s fun e =>
    let i := e.a.toNat
    let first := e.b.toNat / 2 ^ 32
    let stride := e.b.toNat % 2 ^ 32
    let count := e.c.toNat % 2 ^ 32
    let g := e.s0.group e.p.ctx i
    if e.p.phase = 1 then .next e.s
    else if !e.s0.groupUsable e.p.ctx e.a then e.trap 39
    else if !e.s0.legalSet e.p.ctx i first stride count then e.trap 39
    else e.released 3 (
      if g.state = 3 then .park e.s0 .memoryServer (.groupDrain i)
      else
        let t := e.s.modGroup e.p.ctx i fun g =>
          { g with first := first, stride := stride, count := count, state := if g.draining = 0 then 2 else 3,
                   gen := (g.gen + 1) % 2 ^ 16 }
        if g.draining = 0 then .next t
        else .park ((e.s0.modGroup e.p.ctx i fun _ => t.group e.p.ctx i).modProc e.pid fun p => { p with phase := 1 })
          .memoryServer (.groupDrain i))

/-- GSW_DRAIN_COMPLETE (R318): every packet and instance of the old set has drained.
(DEDUCED, log entry 54; unsafe.) -/
def execGswDrainComplete (ctx entry : Nat) (s : State) : Host.Outcome State Fault Refusal :=
  let g := s.group ctx entry
  let open_ := (s.gpackets.any fun k => k.ctx == ctx && k.entry == entry && k.bytes.isSome && k.gen != g.gen)
    || (s.ctx ctx).colls.any fun c => c.entry == entry && c.gen != g.gen
  if g.state = 3 && !open_ then .next ((s.modGroup ctx entry fun g => { g with state := 2 }).recheckAll) else .next s

/-- Words of a group entry (R315). -/
def Group.w0 (g : Group) : Nat := g.first * 2 ^ 32 + g.stride
def Group.w1 (g : Group) : Nat := g.state * 2 ^ 62 + g.kslot * 2 ^ 48 + g.gen * 2 ^ 32 + g.count

/-- GQRY (R326). -/
def execGqry (x : Args) (s : State) : Host.Outcome State Fault Refusal :=
  perform eGqry x s fun e =>
    let none_ : Word := BitVec.allOnes 64
    let g := e.s0.group e.p.ctx e.a.toNat
    match mN e.x with
    | 4 => match (e.s0.ctx e.p.ctx).groups.find? fun q => q.2.state != 0 && q.2.kslot == e.p.kernel with
      | some q => e.ret (BitVec.ofNat 64 q.1)
      | none => e.ret none_
    | m =>
      if 256 ≤ e.a.toNat then e.trap 39
      else if m = 2 then e.ret (BitVec.ofNat 64 g.w0)
      else if m = 3 then e.ret (BitVec.ofNat 64 g.w1)
      else if g.state < 2 then e.trap 39
      else if m = 0 then e.ret (((g.rankOf e.p.rank).map (BitVec.ofNat 64)).getD none_)
      else if g.count ≤ e.b.toNat then e.trap 14 0 e.b
      else e.ret (BitVec.ofNat 64 (g.first + e.b.toNat * g.stride))

/-! ### Collective reduction (R323 to R325) -/

/-- GRED (R323): the process waits as FENCE.rel.device, contributes and parks; when its instance has completed it
wakes with the result. -/
def execGred (x : Args) (s : State) : Host.Outcome State Fault Refusal :=
  perform eGred x s fun e =>
    match e.p.wakeVal with
    | some v => e.ret v
    | none =>
      if !e.s0.groupUsable e.p.ctx e.a then e.trap 39
      else if !(e.s0.group e.p.ctx e.a.toNat).has e.p.rank then e.trap 38
      else e.released 3 (
        let i := e.a.toNat
        let slot := i * 2 ^ 32 + e.p.rank
        let n := tblGetD (e.s0.ctx e.p.ctx).redNext slot 0
        let key : RedKey := { op := mN e.x % 8, ty := tyN e.x, rm := e.mode, payl := fpcPayl e.p.fpc }
        let c : Contrib := { pid := e.pid, rank := e.p.rank, value := e.b }
        let s := e.s0.modCtx e.p.ctx fun c => { c with redNext := tblSet c.redNext slot (n + 1) }
        .park { s with gContrib := s.gContrib ++ [(e.p.ctx, i, n, key, c)] } .memoryServer (.collective i n))

/-- The result of a collective in group-rank order, with the conditions of every combination (R324). A NaN that is the only
contribution gives the NaN of R325. -/
def Collective.result (c : Collective) : Nat × Cond :=
  let vals := (memberRanks c.first c.stride c.count).map fun r =>
    (c.parts.find? fun p => p.rank == r).map fun p => p.value.toNat % 2 ^ tyWidth c.key.ty
  let f := fmtTy c.key.ty
  match vals with
  | [some v] =>
    if 8 ≤ c.key.ty && (f.decode v).isNan then
      let r := f.nanOf c.key.payl [f.decode v]
      (r.bits, r.c)
    else (v, {})
  | _ =>
    let r := treeReduce (combine c.key.op c.key.ty c.key.rm c.key.payl) 25 vals
    (r.1.getD 0, r.2)

/-- A member that still waits for its result receives it (R324): its flags take the conditions; an enabled trap faults it. -/
def State.giveResult (s : State) (c : Collective) (p : Contrib) : State :=
  match s.proc p.pid with
  | none => s
  | some q =>
    match q.st with
    | .parked _ (.collective entry index) _ =>
      if (entry, index) != (c.entry, c.index) then s
      else if c.mismatch then s.wakeWith p.pid { cause := 40 }
      else
        let r := c.result
        let s := s.modProc p.pid fun q => q.raiseFlags r.2
        match trapCause q.fpc r.2 with
        | some k => s.wakeWith p.pid { cause := k }
        | none =>
          let v := if c.key.ty < 8 then extTy c.key.ty r.1 else BitVec.ofNat 64 r.1
          (s.modProc p.pid fun q => { q with wakeVal := some v }).wake p.pid
    | _ => s

/-- GRED_CONTRIBUTION_ARRIVAL (R324): a contribution of this device also goes to the Diffusers of the context's others. In a
DRAINING context none is accepted (R318). -/
def execGredContributionArrival (index : Nat) (s : State) : Host.Outcome State Fault Refusal :=
  match s.gContrib[index]? with
  | none => .next s
  | some (ctx, entry, n, key, p) =>
    let s := { s with gContrib := s.gContrib.eraseIdx index }
    if (s.ctx ctx).st == .draining then .next s else
    let s := if p.pid = 0 then s else (s.ctx ctx).peers.foldl (fun s d => s.sendToken ctx d
      [2, entry, n, key.op, key.ty, key.rm, if key.payl then 1 else 0, p.rank, p.value.toNat]) s
    let g := s.group ctx entry
    let cs := (s.ctx ctx).colls
    let old := cs.find? fun c => c.entry == entry && c.index == n
    let c0 : Collective := old.getD { entry := entry, index := n, first := g.first, stride := g.stride, count := g.count, gen := g.gen, key := key }
    let c := { c0 with parts := c0.parts ++ [p], mismatch := c0.mismatch || c0.key != key }
    let s := if old.isSome then s else s.modGroup ctx entry fun g => { g with draining := g.draining + 1 }
    let rest := cs.filter fun c => !(c.entry == entry && c.index == n)
    let all := (memberRanks c.first c.stride c.count).all fun r => c.parts.any fun p => p.rank == r
    if all then
      let s := (s.modCtx ctx fun x => { x with colls := rest }).drained1 ctx entry
      .next (c.parts.foldl (fun s p => s.giveResult c p) s)
    else .next (s.modCtx ctx fun x => { x with colls := rest ++ [c] })

end Sys2Proof.Machine
end

