-- ==== Sys2Proof/Machine/Engine.lean ====
section
/-! DEFINITION. The cluster copy engine (R147 to R153): issue of CPY, CPYS, CPYG, ZENC and ZDEC, and its events. -/

namespace Sys2Proof.Machine

/-- The checks of R126 that need no range: validity, a space that is not REMOTE, permissions (R147).
(DEDUCED, log entry 26; unsafe.) -/
def permCheck (a : AReg) (perms : BitVec 8) : Option Nat :=
  if !a.valid || a.space = spRemote || !a.grants perms then some 15 else none

/-- The issue check of an engine operand (R147): no alignment and no translation. (DEDUCED, log entry 26; unsafe.) -/
def Env.engCheck (e : Env) (a : AReg) (perms : BitVec 8) (ea n : Nat) : Option (Nat × Word) :=
  (if a.space = spRemote then some 15 else e.s0.checkRange e.p.ctx e.p.core a ea n a.space perms 0).map
    fun c => (c, BitVec.ofNat 64 ea)

/-- An engine instruction that has passed its checks is queued (R147); fault 36 comes before those of the address registers.
(DEDUCED, log entry 26; unsafe.) -/
def Env.toEngine (e : Env) (checks : List (Option (Nat × Word))) (what : EngWhat) : Act :=
  if barBad e.x then e.trap 36
  else match checks.findSome? id with
    | some f => e.trap f.1 0 f.2
    | none =>
      let c := coreCluster e.p.core
      if 64 ≤ (e.s0.cluster c).engine.length then .park e.s0 .memoryServer (.engine c)
      else if 65535 ≤ e.p.cCopy then .stall e.s0
      else
        let en : EngEntry :=
          { pid := e.pid, core := e.p.core, ctx := e.p.ctx, dest := e.status, bar := barField e.x, what := what,
            sb := (e.s0.core e.p.core).sbSeq, toks := e.p.relToks 4, seq := e.s0.seq }
        .next (e.startCopy.modCluster c fun q => { q with engine := q.engine ++ [en] })

/-- CPY (R148). -/
def execCpy (x : Args) (s : State) : Host.Outcome State Fault Refusal :=
  perform eCpy x s fun e =>
    let d := e.areg e.x.a
    let r := e.areg e.x.b
    let n := e.c.toNat
    if n = 0 then e.ret 0
    else e.toEngine [e.engCheck d (pEN ||| pWR) d.ptr.toNat n, e.engCheck r (pEN ||| pRD) r.ptr.toNat n] (.cpy d r n)

/-- Address of row `j` under a signed stride. -/
def rowAddr (p : Word) (j : Nat) (stride : Int) : Nat := (p + BitVec.ofInt 64 (j * stride)).toNat

/-- CPYS (R149). -/
def execCpys (x : Args) (s : State) : Host.Outcome State Fault Refusal :=
  perform eCpys x s fun e =>
    let d := e.areg e.x.a
    let r := e.areg e.x.b
    let nrow := e.c.toNat / 2 ^ 32
    let rowb := e.c.toNat % 2 ^ 32
    let sd := (sextN (e.f.toNat / 2 ^ 32) 32).toInt
    let ss := (sextN e.f.toNat 32).toInt
    if nrow = 0 || rowb = 0 then e.ret 0
    else
      let side (a : AReg) (perms : BitVec 8) (st : Int) :=
        [e.engCheck a perms a.ptr.toNat rowb, e.engCheck a perms (rowAddr a.ptr (nrow - 1) st) rowb]
      e.toEngine (side d (pEN ||| pWR) sd ++ side r (pEN ||| pRD) ss) (.cpys d r nrow rowb sd ss)

/-- CPYG (R150). -/
def execCpyg (x : Args) (s : State) : Host.Outcome State Fault Refusal :=
  perform eCpyg x s fun e =>
    let d := e.areg e.x.a
    let r := e.areg e.x.b
    let i := e.areg (cOf .modw e.x)
    let n := e.f.toNat
    let sz := tyWidth (tyN e.x) / 8
    if n = 0 then e.ret 0
    else e.toEngine
      [e.engCheck d (pEN ||| pWR) d.ptr.toNat (sz * n), (permCheck r (pEN ||| pRD)).map fun c => (c, r.ptr),
       e.engCheck i (pEN ||| pRD) i.ptr.toNat (4 * n)] (.cpyg d r i n sz)

/-- Blocks of ZENC and ZDEC, and E of ZENC (R153). -/
def zBlocks (c : Word) : Nat := (c.extractLsb' 32 16).toNat
def zBound (c : Word) : Int := (c.extractLsb' 0 16).toInt
def zDbl (x : Args) : Bool := tyN x == 8

/-- ZENC (R153). -/
def execZenc (x : Args) (s : State) : Host.Outcome State Fault Refusal :=
  perform eZenc x s fun e =>
    let d := e.areg e.x.a
    let r := e.areg e.x.b
    let n := zBlocks e.c
    if n = 0 then e.ret 0
    else e.toEngine
      [(permCheck d (pEN ||| pWR)).map fun c => (c, d.ptr), e.engCheck r (pEN ||| pRD) r.ptr.toNat (256 * n * dSize (zDbl e.x))]
      (.zenc d r n (zBound e.c) (zDbl e.x))

/-- ZDEC (R153). -/
def execZdec (x : Args) (s : State) : Host.Outcome State Fault Refusal :=
  perform eZdec x s fun e =>
    let d := e.areg e.x.a
    let r := e.areg e.x.b
    let n := zBlocks e.c
    if n = 0 then e.ret 0
    else e.toEngine
      [e.engCheck d (pEN ||| pWR) d.ptr.toNat (256 * n * dSize (zDbl e.x)), (permCheck r (pEN ||| pRD)).map fun c => (c, r.ptr)]
      (.zdec d r n (zDbl e.x))

/-! ### The engine at work -/

/-- What one move of the engine comes to: it stops with a cause, waits for translations, or goes on. -/
inductive EngMove where
  | stop (cause : Nat)
  | miss (vas : List Nat) (write : Bool)
  | go (s : State) (en : EngEntry)

/-- An engine read of [ea, ea + n) in the space of its register (R147, R135); it counts (R350). -/
def State.engRead (s : State) (en : EngEntry) (priv : Bool) (a : AReg) (ea n : Nat) (k : State → List Byte → EngMove) : EngMove :=
  match s.locate en.ctx en.core priv ea n a.space { rd := true } with
  | .fault c _ => .stop c
  | .miss vas => .miss vas false
  | .ok ps => if (s.badPiece ps).isSome then .stop 24 else k (s.touch (coreDie en.core) en.ctx ps en.core) (s.readPieces ps)

/-- Bytes land at an engine's destination: each word they touch becomes full (R136). -/
def State.landPieces (s : State) (core space : Nat) (ps : List Piece) (bs : List Byte) : State :=
  (pieceWords ps).foldl (fun s w => s.setWord w true) (s.spaceWrite core space ps bs)

/-- The bytes of pieces word by word, each with the piece that it goes to. -/
def wordParts : List Piece → List Byte → List (Piece × List Byte)
  | [], _ => []
  | p :: t, bs =>
    ((wordsOf p.pa p.len).map fun w =>
      let lo := max p.pa (8 * w)
      let n := min (p.pa + p.len) (8 * w + 8) - lo
      ({ p with va := p.va + (lo - p.pa), pa := lo, len := n }, (bs.drop (lo - p.pa)).take n)) ++ wordParts t (bs.drop p.len)

/-- The engine's access to its destination, which counts (R350); a chunk of which a word has landed has made it. -/
def State.engDest (s : State) (en : EngEntry) (priv : Bool) (a : AReg) (ea n : Nat) (k : State → List Piece → EngMove) :
    EngMove :=
  match en.aim with
  | some ps => k s ps
  | none =>
    match s.locate en.ctx en.core priv ea n a.space { wr := true } with
    | .fault c _ => .stop c
    | .miss vas => .miss vas true
    | .ok ps => k (s.touch (coreDie en.core) en.ctx ps en.core) ps

/-- Bytes that have landed count against the barrier of .b (R147). -/
def State.engCount (s : State) (en : EngEntry) (n : Nat) : State :=
  match en.bar with
  | some b => s.countBytes en.core b en.ctx n
  | none => s

/-- An engine write of bytes at [ea, …): all, or those words that have not landed apart (R168). -/
def State.engWrite (s : State) (en : EngEntry) (priv : Bool) (a : AReg) (ea : Nat) (bs : List Byte)
    (k : State → EngMove) : EngMove :=
  s.engDest en priv a ea bs.length fun s ps =>
    if en.early.isEmpty then k ((s.landPieces en.core a.space ps bs).engCount en bs.length)
    else
      let rest := (wordParts ps bs).zipIdx.filter fun w => !en.early.contains w.2
      k ((rest.foldl (fun s w => s.landPieces en.core a.space [w.1.1] w.1.2) s).engCount en (rest.map (·.1.2.length)).sum)

/-- The entry after `n` more bytes have landed; it has finished at `all`. -/
def EngEntry.more (en : EngEntry) (n all : Nat) : EngEntry :=
  { en with bytes := en.bytes + n, done := en.done + 1, finished := all ≤ en.bytes + n, buf := none, early := [], aim := none }

/-- The next chunk, row part or element of CPY, CPYS or CPYG (R148 to R150): where its bytes go, the bytes, read whole
before any is written, and how many the instruction moves. -/
def State.engNext (s : State) (en : EngEntry) (priv : Bool) (k : State → AReg → Nat → List Byte → Nat → EngMove) : EngMove :=
  let read (s : State) (r : AReg) (ea n : Nat) (go : State → List Byte → EngMove) : EngMove :=
    match en.buf with
    | some bs => go s bs
    | none => s.engRead en priv r ea n go
  match en.what with
  | .cpy d r n => read s r (r.ptr.toNat + en.bytes) (min 256 (n - en.bytes)) fun s bs => k s d (d.ptr.toNat + en.bytes) bs n
  | .cpys d r nrow rowb sd ss =>
    let j := en.bytes / rowb
    let o := en.bytes % rowb
    read s r (rowAddr r.ptr j ss + o) (min 256 (rowb - o)) fun s bs => k s d (rowAddr d.ptr j sd + o) bs (nrow * rowb)
  | .cpyg d r i n e =>
    match en.buf with
    | some bs => k s d (d.ptr.toNat + en.done * e) bs (n * e)
    | none => s.engRead en priv i (i.ptr.toNat + 4 * en.done) 4 fun s ib =>
        let ea := r.ptr.toNat + bytesNat ib * e
        match s.checkRange en.ctx en.core r ea e r.space (pEN ||| pRD) 0 with
        | some c => .stop c
        | none => s.engRead en priv r ea e fun s bs => k s d (d.ptr.toNat + en.done * e) bs (n * e)
  | .zenc .. | .zdec .. => .go s en

/-- One chunk, row part, element or block (R148 to R153). -/
def State.engMove (s : State) (en : EngEntry) (priv : Bool) : EngMove :=
  match en.what with
  | .cpy .. | .cpys .. | .cpyg .. =>
    s.engNext en priv fun s d ea bs all => s.engWrite en priv d ea bs fun s => .go s (en.more bs.length all)
  | .zenc d r n b dbl =>
    let sz := 256 * dSize dbl
    s.engRead en priv r (r.ptr.toNat + en.done * sz) sz fun s bs =>
      let out := encodeBlock dbl b ((groupsOf (dSize dbl) 256 bs).map bytesNat)
      match s.checkRange en.ctx en.core d (d.ptr.toNat + en.bytes) out.length d.space (pEN ||| pWR) 0 with
      | some c => .stop c
      | none => s.engWrite en priv d (d.ptr.toNat + en.bytes) out fun s =>
          .go s { en.more out.length 0 with finished := decide (n ≤ en.done + 1) }
  | .zdec d r n dbl =>
    let at_ := r.ptr.toNat + en.src
    match s.checkRange en.ctx en.core r at_ 16 r.space (pEN ||| pRD) 0 with
    | some c => .stop c
    | none => s.engRead en priv r at_ 16 fun s hb =>
        match blockHead dbl hb with
        | none => .stop 23
        | some h =>
          match s.checkRange en.ctx en.core r at_ h.size r.space (pEN ||| pRD) 0 with
          | some c => .stop c
          | none => s.engRead en priv r at_ h.size fun s bs =>
              match decodeBlock dbl h bs with
              | none => .stop 23
              | some vs => s.engWrite en priv d (d.ptr.toNat + en.bytes) (vs.flatMap (natBytes (dSize dbl))) fun s =>
                  .go s { en.more (256 * dSize dbl) (256 * dSize dbl * n) with src := en.src + h.size }

/-- One word of the chunk that is being written lands apart from the others (R168): which word is the engine's own. Every page of
the chunk has been translated before, so that the chunk does not stop after it (R147). -/
def State.engWord (s : State) (en : EngEntry) (priv : Bool) (i : Nat) : EngMove :=
  s.engNext en priv fun s d ea bs _ => s.engDest en priv d ea bs.length fun s ps =>
    match if en.early.contains i then none else (wordParts ps bs)[i]? with
    | some w => .go ((s.landPieces en.core d.space [w.1] w.2).engCount en w.2.length)
        { en with buf := some bs, early := i :: en.early, aim := some ps }
    | none => .go s { en with buf := some bs }

/-- The head of a cluster's engine replaced. -/
def State.setEngine (s : State) (c : Nat) (en : EngEntry) : State :=
  s.modCluster c fun q => { q with engine := en :: q.engine.tail }

/-- The instruction at the head of an engine makes a move, once every earlier store of its process has performed (R147). A
page that is not present stalls it. -/
def State.engStep (s : State) (cluster : Nat) (move : State → EngEntry → Bool → EngMove) : State :=
  match (s.cluster cluster).engine with
  | [] => s
  | en :: _ =>
    match s.proc en.pid with
    | none => s
    | some p =>
      if en.finished || en.stalled || !s.sbDone en.core en.sb || !p.opsDone en.toks || s.tileStoresBefore en.pid en.core en.seq then s
      else match move s en p.priv with
        | .stop c => s.setEngine cluster { en with cause := c, finished := true }
        | .miss vas w =>
          let r := s.missAll (coreDie en.core) en.ctx vas w false (.engine cluster)
          r.2.setEngine cluster { en with stalled := true, miss := r.1 }
        | .go s en => s.setEngine cluster en

/-- COPY_ENGINE_CHUNK (R148): the instruction at the head reads and writes one chunk, row part, element or block. -/
def execCopyEngineChunk (cluster : Nat) (s : State) : Host.Outcome State Fault Refusal :=
  .next (s.engStep cluster State.engMove)

/-- ENGINE_COMPLETE (R147): the status word is written and the next instruction comes to the head. -/
def execEngineComplete (cluster : Nat) (s : State) : Host.Outcome State Fault Refusal :=
  match (s.cluster cluster).engine with
  | en :: t =>
    if en.finished then
      .next (((s.modCluster cluster fun q => { q with engine := t }).endCopy en.pid en.dest en.cause en.bytes).recheckAll)
    else .next s
  | [] => .next s

end Sys2Proof.Machine
end

