-- ==== Sys2Proof/Machine/Lanes.lean ====
section
/-! DEFINITION. Vector and mask registers and their lanes (R268 to R270), the elements of formats and types with block
scales (R33 to R37), stochastic rounding (R40), and the write-back of a vector result under its mask. -/

namespace Sys2Proof.Machine

/-! ### Registers -/

def Proc.vec (p : Proc) (i : Nat) : BitVec 1024 := tblGetD p.v i 0
def Proc.setVec (p : Proc) (i : Nat) (v : BitVec 1024) : Proc := { p with v := tblSet p.v i v }

/-- A mask register: k0 reads as all ones, and a write to it is discarded (R270). -/
def Proc.mask (p : Proc) (i : Nat) : BitVec 128 := if i = 0 then BitVec.allOnes 128 else tblGetD p.k i 0
def Proc.setMask (p : Proc) (i : Nat) (v : BitVec 128) : Proc := if i = 0 then p else { p with k := tblSet p.k i v }

/-- Lane `j` of width `w` (R269), of any register taken as a number. -/
def laneOf (v w j : Nat) : Nat := v / 2 ^ (w * j) % 2 ^ w

/-- Lanes of width `w` as one number, lane 0 lowest. -/
def joinLanes (w : Nat) : List Nat → Nat
  | [] => 0
  | x :: t => x % 2 ^ w + 2 ^ w * joinLanes w t

/-- The lanes of a register. -/
def lanesList (v w n : Nat) : List Nat := (List.range n).map (laneOf v w)

/-- Results by lane over a register: a lane with none keeps its old value, or becomes zero under .zm (R270). -/
def mergeLanes (w : Nat) (zm : Bool) (old : BitVec 1024) (rs : List (Option Nat)) : BitVec 1024 :=
  BitVec.ofNat 1024 (joinLanes w (rs.zipIdx.map fun r => r.1.getD (if zm then 0 else laneOf old.toNat w r.2)))

/-! ### Elements -/

/-- An element of a type or format: an integer with its width and signedness, or a floating value. -/
inductive Elem where
  | int (w : Nat) (signed : Bool)
  | flt (f : Fmt)
  deriving DecidableEq, Repr

/-- The elements of the type codes of R67 and of the format codes of R68 but vq2. -/
def elemTy (t : Nat) : Elem := if t < 8 then .int (tyWidth t) (tySigned t) else .flt (fmtTy t)
def elemFmt (c : Nat) : Elem := if c = 9 then .int 8 true else if c = 10 then .int 4 true else .flt (fmtOf c)

def Elem.isInt : Elem → Bool
  | .int _ _ => true
  | _ => false

/-- The exact value of a pattern. -/
def Elem.value : Elem → Nat → FVal
  | .int w sg, b =>
    let u := b % 2 ^ w
    if sg && u.testBit (w - 1) then .fin true (2 ^ w - u) 0 else .fin false u 0
  | .flt f, b => f.decode (b % 2 ^ f.width)

/-- A value times 2^k; infinities and NaNs stay. -/
def FVal.scale (x : FVal) (k : Int) : FVal :=
  match x with
  | .fin n m e => .fin n m (e + k)
  | x => x

/-- The canonical quiet NaN, whatever the format it goes to (R34). -/
def canonNan : FVal := .nan false false 1 1

/-- An element's value under its block's scale field (R34). -/
def FVal.scaled (x : FVal) (field : Nat) : FVal := if field = 255 then canonNan else x.scale ((field : Int) - 127)

/-- Stochastic rounding of a finite value (R40). -/
def Fmt.stochastic (f : Fmt) (n : Bool) (m : Nat) (e : Int) (sat : Bool) (r : Nat) : FRes :=
  if m = 0 then { bits := f.signBit n }
  else
    let ex := (Nat.log2 m : Int) + e
    let q := max (ex - f.fw) (f.emin - f.fw)
    let den := if q ≤ e then 1 else 2 ^ (q - e).toNat
    let num := if q ≤ e then m * 2 ^ (e - q).toNat else m
    let rem := num % den
    let sig := num / den + (if 2 ^ 32 ≤ 2 ^ 32 * rem / den + r then 1 else 0)
    let tooBig := if q ≤ f.emax - f.fw then f.maxSig * 2 ^ (f.emax - f.fw - q).toNat < sig else true
    if tooBig then { bits := f.overflowBits 0 n sat, c := { of := true, nx := true } }
    else { bits := f.pack n sig q, c := { nx := rem != 0, uf := rem != 0 && sig != 0 && sig < 2 ^ f.fw } }

/-- A value converted to an element by a mode; mode 5 is .rs with the random value `r` (R283, R39 to R45). From an
integer only inexact and overflow arise, and an integer saturates to an integer without conditions. -/
def Elem.encode (d : Elem) (fromInt : Bool) (mode : Nat) (payl sat : Bool) (r : Nat) (x : FVal) : FRes :=
  match d with
  | .int w sg =>
    let lo : Int := if sg then -(2 ^ (w - 1) : Int) else 0
    let hi : Int := if sg then 2 ^ (w - 1) - 1 else 2 ^ w - 1
    let v := toInteger mode lo hi x
    { bits := (v.1 % 2 ^ w).toNat, c := if fromInt then {} else v.2 }
  | .flt f =>
    let v := match mode, x with
      | 5, .fin n m e => f.stochastic n m e sat r
      | _, x => f.convert mode payl sat x
    if fromInt then { v with c := { of := v.c.of, nx := v.c.nx } } else v

/-- A value encoded as an element of a block with the scale field `field` (R35): v·2^(127 − X) with saturation; every
element of a block whose field is 0xFF is +0 and raises nothing. (DEDUCED, log entry 66; unsafe.) -/
def Elem.encodeScaled (d : Elem) (fromInt : Bool) (mode : Nat) (payl : Bool) (r field : Nat) (x : FVal) : FRes :=
  if field = 255 then { bits := 0 } else d.encode fromInt mode payl true r (x.scale (127 - (field : Int)))

/-! ### Block scales and the vq2 codebook (R35, R36) -/

/-- A finite value's magnitude at least: ⌊log2⌋ of it; none for zero. -/
def FVal.logMag : FVal → Option Int
  | .fin _ m e => if m = 0 then none else some (Nat.log2 m + e)
  | _ => none

/-- The greatest of some numbers. -/
def maxOpt : List (Option Int) → Option Int
  | [] => none
  | none :: t => maxOpt t
  | some a :: t => some (match maxOpt t with
      | some b => max a b
      | none => a)

/-- The scale field of a block of values for a format (R35). -/
def scaleField (f : Fmt) (xs : List FVal) : Nat :=
  if xs.any fun x => x.isNan || x.isInf then 255
  else match maxOpt (xs.map FVal.logMag) with
    | none => 0
    | some l => (max 0 (min 254 (l - f.emax + 127))).toNat

/-- Weight `j` of a vq2 index from the table's bytes (R36): a zero coordinate is +0. -/
def vqWeight (entry : Nat → List Byte) (index j : Nat) : FVal :=
  let en := entry (index / 256 % 256)
  let e0 := (en.headD 0).toNat
  let flip := index % 256
  let odd := ((List.range 8).filter flip.testBit).length % 2 = 1
  let f7 := e0 % 2 = 1 && odd
  let neg := flip.testBit j != (f7 && j == 7)
  let e := (en.getD j 0).toInt
  if e = 0 then .fin false 0 0 else .fin (decide (e < 0) != neg) e.natAbs (-1)

/-- Byte offset in LOCAL space of the vq2 table of a process (R37). -/
def Proc.vqBase (p : Proc) : Nat := (p.vqtab.extractLsb' 11 8).toNat * 2048

/-- An entry of the table: its eight bytes. -/
def State.vqEntry (s : State) (p : Proc) (n : Nat) : List Byte := s.read (s.localPA p.core p.ctx (p.vqBase + 8 * n)) 8

/-- What stops the reading of table entries: an entry past the context's LOCAL window, or an uncorrectable word (R126,
R135), with its address. -/
def State.vqFault (s : State) (p : Proc) (ns : List Nat) : Option (Nat × Word) :=
  ns.findSome? fun n =>
    let o := p.vqBase + 8 * n
    if (s.ctx p.ctx).tlen < o + 8 then some (17, BitVec.ofNat 64 o)
    else if (s.badWord (s.localPA p.core p.ctx o) 8).isSome then some (24, BitVec.ofNat 64 o) else none

/-! ### What every vector instruction does with its lanes -/

/-- Lane width and count of TY. -/
def Env.w (e : Env) : Nat := tyWidth (tyN e.x)
def Env.lanes (e : Env) : Nat := lanesOf (tyN e.x)

/-- Lane `j` is active under the mask that a modifier word names (R270). -/
def Env.active (e : Env) (mod j : Nat) : Bool := (e.p.mask (mod % 8)).getLsbD j

/-- A lane of the vector register that a field names. -/
def Env.lane (e : Env) (f : BitVec 6) (j : Nat) : Nat := laneOf (e.p.vec f.toNat).toNat e.w j

/-- Lane `j` of B, or the immediate in every lane (R70 to R72). -/
def Env.laneB (e : Env) (j : Nat) : Nat :=
  if e.x.i then (if tyN e.x < 8 then e.b.toNat % 2 ^ e.w else immFloat e.x (fmtTy (tyN e.x))) else e.lane e.x.b j

/-- Every active lane takes a result; the conditions of the active lanes are those of the instruction (R42, R270). -/
def Env.retLanes (e : Env) (mod : Nat) (f : Nat → FRes) : Act :=
  let rs := (List.range e.lanes).map fun j => if e.active mod j then some (f j) else none
  let c := rs.foldl (fun (a : Cond) r => a.or ((r.map FRes.c).getD {})) {}
  e.finishFp c fun p =>
    p.setVec e.x.d.toNat (mergeLanes e.w (mod.testBit 3) (p.vec e.x.d.toNat) (rs.map (·.map FRes.bits)))

/-- The same for results that raise nothing. -/
def Env.retLanesN (e : Env) (f : Nat → Nat) : Act := e.retLanes (mN e.x) fun j => { bits := f j }

/-- Active lanes set their bits of the mask register D; inactive bits stay or, under .zm, clear; bits from L up clear
(R280). -/
def Env.retMask (e : Env) (f : Nat → Bool × Cond) : Act :=
  let m := mN e.x
  let rs := (List.range e.lanes).map fun j => if e.active m j then some (f j) else none
  let c := rs.foldl (fun (a : Cond) r => a.or ((r.map (·.2)).getD {})) {}
  e.finishFp c fun p =>
    let old := p.mask e.x.d.toNat
    p.setMask e.x.d.toNat (BitVec.ofNat 128 (joinLanes 1 (rs.zipIdx.map fun r =>
      match r.1 with
      | some b => if b.1 then 1 else 0
      | none => if m.testBit 3 || !old.getLsbD r.2 then 0 else 1)))

end Sys2Proof.Machine
end

