-- ==== Sys2Proof/Machine/Channel.lean ====
section
/-! DEFINITION. Channels (R237 to R251, R260 to R267, R412): handles, SEND, RECV, SENDV, RECVV, SENDT, RECVT, CHB, CHQ,
CHCL, ALTB, ALTG, ALTW, and their events. -/

namespace Sys2Proof.Machine

/-! ### Handles (R237, R238) -/

def hTag (h : Word) : Nat := (h.extractLsb' 58 6).toNat
def hType (h : Word) : Nat := (h.extractLsb' 55 3).toNat
def hEnd (h : Word) : Bool := h.getLsbD 54
def hGen (h : Word) : Nat := (h.extractLsb' 20 16).toNat

/-- Steps 1 and 2 of hcheck (R238): cause 28, and the type test of 29. -/
def State.hcheck12 (s : State) (ctx : Nat) (h : Word) (types : List Nat) (end_ : Option Bool) : Option Nat :=
  let e := s.chan ctx (hIndex h)
  if (h.extractLsb' 36 18) != 0 || hTag h != (s.ctx ctx).tag || 4 < hType h || !e.assigned || hGen h != e.gen then some 28
  else if hType h != e.type || !types.contains (hType h) || (match end_ with
      | some b => hEnd h != b
      | none => false) then some 29
  else none

/-- hcheck (R238) for a process of rank `rank`: the first cause that arises. -/
def State.hcheck (s : State) (ctx rank : Nat) (h : Word) (end_ : Bool) (types kinds : List Nat) : Option Nat :=
  let e := s.chan ctx (hIndex h)
  match s.hcheck12 ctx h types (some end_) with
  | some c => some c
  | none =>
    if e.kind = 0 then some 31
    else if !kinds.contains e.kind then some 29
    else if end_ && (e.kind = 1 || e.kind = 2) && e.target % 2 ^ 32 != rank then some 31
    else none

/-- The types that a kind accepts (R240). -/
def kindTypes : Nat → List Nat
  | 0 => [0, 1, 2, 3, 4]
  | 1 => [0, 1, 2, 4]
  | 2 => [0, 1, 2]
  | 3 => [0]
  | 4 => [3, 4]
  | 5 => [0, 1, 2]
  | 6 => [4]
  | _ => []

/-- Bits of TARGET that a kind names (R240). -/
def targetMask : Nat → Nat
  | 1 => 0xFFFFFFFF
  | 2 => 0x1FFFFFFFF
  | 3 => 0x703
  | 4 => 0xFFF
  | 5 => 0x7FFF
  | 6 => 7
  | _ => 0

/-! ### Sending -/

/-- A message of a channel has been delivered, or refused, at a die (R257, R258). -/
def State.countDelivered (s : State) (ctx die : Nat) : State :=
  (s.modCtx ctx fun c => { c with delivered := tblSet c.delivered die (tblGetD c.delivered die 0 + 1) }).dirtyDie ctx die

/-- The scope of the wait of a send (R243). -/
def State.sendScope (s : State) (ctx i die : Nat) : Nat :=
  let g := s.sendGoal ctx i
  if g.2.isSome || g.1.1 != s.devId then 4 else if g.1.2 = die then 2 else 3

/-- A receive or place reserved for the process by a .tx guard (R256). -/
def ChanEnd.txReserved (e : ChanEnd) (pid : Nat) : Bool :=
  (e.rcvs.any fun r => r.rsv == some pid) || e.held.any fun m => m.rsv == some pid && !m.closed && m.ticket == 0

/-- The rank that a channel is bound to is moving: a send waits for its new place (R411). -/
def State.isMoving (s : State) (ctx i : Nat) : Bool :=
  let c := s.chan ctx i
  (c.kind == 1 || c.kind == 2) && nsHas (s.ctx ctx).moving (c.target % 2 ^ 32)

/-- A message of a process of rank `rank` leaves a die for a receive end or endpoint on another die or device, as one or more
messages (R354, R368, R412). (DEDUCED, log entry 30; unsafe.) -/
def State.sendFar (s : State) (ctx die rank i kind : Nat) (m : Msg) (bytes : List Byte) : State :=
  let e := s.chan ctx i
  let m := { m with link := m.link.or (some (s.devId, die)) }
  let w : ChanWire := { ctx := ctx, chan := i, msg := m }
  let goal := s.sendGoal ctx i
  let size := s.unitSize die goal.1.1
  let bytes := if bytes.isEmpty then natBytes 8 0 else bytes
  let offs := unitOffsets bytes.length size
  let h := s.handleOf ctx i (if goal.2.isSome then (s.qpair e.target).pchan else i)
  let k := s.seq
  let s : State := { s with seq := k + 1 }
  (offs.foldl (fun (s : State) (o : Nat) =>
    (s.outbound die { outTo kind m.pid ctx rank goal.1.1 goal.1.2 w ((bytes.drop o).take size) with
      qp := goal.2, addr := h, off := o, unit := k, parts := offs.length }).2) s).countSent ctx die

/-- A tile leaves for a receive end beyond the die: its bytes are read, and it ends at an uncorrectable word (R135, R250). -/
def State.sendTile (s : State) (ctx i : Nat) (p : Proc) (m : Msg) (t : TileEnd) : State :=
  let pa := s.windowPA p.core p.ctx t.area.space t.ea.toNat
  if (s.badWord pa t.n).isSome then s.endTile m.pid t.tok 24 0
  else
    let bs := s.read pa t.n
    s.sendFar ctx (coreDie p.core) p.rank i 7 { m with tile := some { t with bytes := some bs } } bs

/-- An opening or one-part send has been accepted: a packet opens with its first part (R261). -/
def openPacket (h : Word) (ticket : Nat) (part : List Byte) (last : Bool) (p : Proc) : Proc :=
  if last then p else { p with packet := some { handle := h, ticket := ticket, count := 0, parts := [part] } }

/-- The context has used its memory-server budget on a die (R185, R379), in 64-byte units. -/
def State.msOut (s : State) (die ctx : Nat) : Bool :=
  (s.ctx ctx).msb != 0 && 64 * (s.ctx ctx).msb ≤ tblGetD (s.die die).msUsed ctx 0

/-- An opening or one-part send to a memory server (R252). -/
def Env.sendServer (e : Env) (part : List Byte) (last : Bool) (code : Nat) : Act :=
  let i := hIndex e.a
  let t := (e.s0.chan e.p.ctx i).target
  let k := e.s0.seq
  let m : Msg := { ticket := k, pid := e.pid, parts := [part], closed := last }
  let wait (s : State) : Act :=
    .park (s.modProc e.pid fun p => { p with token := k, waitsOn := some (e.a, code) }) .channel (.chan k)
  if (e.s0.chan e.p.ctx i).closed then e.trap 30
  else if (e.s0.ctx e.p.ctx).msHard && e.s0.msOut (t / 256 % 8) e.p.ctx then e.trap 53
  else if e.s0.isFar e.p.ctx i e.p.die then
    wait ({ e.s0 with seq := k + 1 }.sendFar e.p.ctx e.p.die e.p.rank i 6 m part)
  else match { e.s with seq := k + 1 }.arriveServer e.p.ctx i m with
    | (s, .accepted) => .next (if last then s else s.modProc e.pid (openPacket e.a k part last))
    | _ => wait ({ e.s0 with seq := k + 1 }.arriveServer e.p.ctx i m).1

/-- An opening or one-part send to a process or a queue pair (R261): accepted at once, refused, or waiting. An item that a
.tx guard has reserved accepts it at once, wherever the end lies (R256). -/
def Env.sendProc (e : Env) (part : List Byte) (last : Bool) (code : Nat) : Act :=
  let i := hIndex e.a
  let k := e.s0.seq
  let ctx := e.p.ctx
  let m : Msg := { ticket := k, pid := e.pid, parts := [part], closed := last }
  let c := e.s0.chanEnd ctx i
  let wait (s : State) : Act :=
    .park ({ s with seq := k + 1 }.modProc e.pid fun p => { p with token := k, waitsOn := some (e.a, code) }) .channel (.chan k)
  let opened (s : State) : Act := .next (s.modProc e.pid (openPacket e.a k part last))
  if e.s0.isFar ctx i e.p.die then
    let s1 : State := { e.s with seq := k + 1 }
    if (e.s0.chan ctx i).closed then e.trap 30
    else if nsHas c.farRsv e.pid then
      opened ((s1.modEnd ctx i fun c => { c with farRsv := nsDel c.farRsv e.pid }).sendFar ctx e.p.die e.p.rank i 6 m part)
    else if c.txReserved e.pid then
      let s := (s1.arrive ctx i { m with parts := [], closed := false }).1
      opened (if last then s.sendFar ctx e.p.die e.p.rank i 6 m part else s)
    else wait ({ e.s0 with seq := k + 1 }.sendFar ctx e.p.die e.p.rank i 6 m part)
  else
    let r := { e.s with seq := k + 1 }.arrive ctx i m
    let s := (r.1.countSent ctx e.p.die).countDelivered ctx e.p.die
    match r.2 with
    | .accepted => opened s
    | .refused => e.trap 30
    | .waits => wait (((e.s0.arrive ctx i m).1.countSent ctx e.p.die).countDelivered ctx e.p.die)

/-- A continuing or closing send (R261, R242): when the packet closes, its parts travel as one message. -/
def Env.sendMore (e : Env) (k : Packet) (part : List Byte) (last : Bool) : Act :=
  let i := hIndex e.a
  let c := e.s0.chan e.p.ctx i
  let parts := k.parts ++ [part]
  if k.handle != e.a then e.trap 33
  else if !last then .next (e.upd fun p => { p with packet := some { k with parts := parts } })
  else
    let s := e.upd fun p => { p with packet := none }
    if e.s0.isFar e.p.ctx i e.p.die then
      .next (s.sendFar e.p.ctx e.p.die e.p.rank i 6 { ticket := k.ticket, pid := e.pid, parts := parts } parts.flatten)
    else if c.kind = 3 then
      .next ((s.serverPacket (c.target / 256 % 8) (c.target % 4) k.ticket parts).serveServer (c.target / 256 % 8) (c.target % 4) 64)
    else .next (s.fillPlace e.p.ctx i k.ticket parts)

/-- SEND and SENDV (R261). A process that was parked and whose message is accepted goes on. -/
def sendPart (e : Env) (type code : Nat) (part : List Byte) : Act :=
  match e.p.wakeVal with
  | some v => .next (e.upd (openPacket e.a e.p.token (if type = 0 then natBytes 8 v.toNat else part) e.x.e))
  | none =>
    match e.s0.hcheck e.p.ctx e.p.rank e.a false [type] [1, 2, 3, 5] with
    | some c => e.trap c
    | none =>
      match e.p.packet with
      | some k => e.sendMore k part e.x.e
      | none =>
        let c := e.s0.chan e.p.ctx (hIndex e.a)
        e.released (e.s0.sendScope e.p.ctx (hIndex e.a) e.p.die)
          (if e.s0.isMoving e.p.ctx (hIndex e.a) then .stall e.s0
          else if c.kind = 3 then e.sendServer part e.x.e code else e.sendProc part e.x.e code)

/-- Bytes of a vector register (R6, R268). -/
def vecBytes (v : BitVec 1024) : List Byte := natBytes 128 v.toNat

def execSend (x : Args) (s : State) : Host.Outcome State Fault Refusal :=
  perform eSend x s fun e => sendPart e 0 1 (natBytes 8 e.b.toNat)

def execSendv (x : Args) (s : State) : Host.Outcome State Fault Refusal :=
  perform eSendv x s fun e => sendPart e 1 3 (vecBytes (e.p.vec e.x.b.toNat))

/-! ### Receiving -/

/-- The process takes the next part of a message (R262). -/
def Env.takePart (e : Env) (s : State) (i : Nat) (parts : List (List Byte)) (write : List Byte → Proc → Proc) : Act :=
  let s := s.handParts e.pid i parts.tail
  .next (s.modProc e.pid fun p =>
    let p := write (parts.headD []) p
    if (mN e.x).testBit 1 then p.wr (.p (cOf .modw e.x).toNat) (if parts.length = 1 then 1 else 0) else p)

/-- A matched packet that has not closed (R262): RECV.a complete with their destinations pending, in issue order; another
receive waits until it closes (R245). -/
def Env.awaitClose (e : Env) (s : State) (i ticket : Nat) (code : Nat) : Act :=
  if (mN e.x).testBit 0 then
    let d := e.p.name e.x.d.toNat
    let l := if (mN e.x).testBit 1 then some (RName.p (cOf .modw e.x).toNat) else none
    let set (x : Msg × Rcv) : Msg × Rcv := if x.1.ticket = ticket then (x.1, { x.2 with async := x.2.async ++ [(d, l)] }) else x
    let s := s.modEnd e.p.ctx i fun c => { c with matched := c.matched.map set }
    let s := s.modProc e.pid fun p => (l.toList ++ d.toList).foldl Proc.pend ((marked eRecv e.x e.p).foldl Proc.setEmpty p)
    .next s
  else .park (s.modProc e.pid fun p => { p with waitsOn := some (e.a, code), phase := 1 }) .channel (.chan ticket)

/-- The receive takes the oldest waiting send of a rendezvous channel, one reserved for the process first (R246). -/
def pickSend (pid : Nat) (ms : List Msg) : Option (Msg × List Msg) :=
  (pickFirst (fun m => m.rsv == some pid) ms).or (pickFirst (fun _ => true) ms)

/-- A receive that needs a new message (R262). One that woke for a packet which has since ended by fault still waits in its place
(R242). -/
def Env.newMessage (e : Env) (i : Nat) (code : Nat) (write : List Byte → Proc → Proc) : Act :=
  let ctx := e.p.ctx
  let ch := e.s0.chan ctx i
  let c := e.s0.chanEnd ctx i
  let k := e.s0.seq
  let s1 : State := { e.s0 with seq := k + 1 }
  let join : Act :=
    .park ((s1.modEnd ctx i fun c => { c with rcvs := c.rcvs ++ [{ ticket := k, pid := e.pid }] }).modProc
      e.pid fun p => { p with waitsOn := some (e.a, code), phase := if (mN e.x).testBit 0 then 2 else 1 }) .channel (.chan k)
  let own (r : Rcv) : Bool := e.p.phase != 0 && r.pid == e.pid && r.tile.isNone && r.async.isEmpty
  match c.matched.find? fun x => x.2.pid == e.pid with
  | some x => e.awaitClose e.s0 i x.1.ticket code
  | none =>
    match c.rcvs.find? own with
    | some r => .park e.s0 .channel (.chan r.ticket)
    | none =>
    if e.s0.rebinding ctx i || c.rcvs.any (fun r => r.rsv.isNone) then join
    else if ch.depth = 0 then
      match pickSend e.pid c.sends with
      | some (m, t) =>
        let take (s : State) := (s.modEnd ctx i fun c => { c with sends := t }).accept ctx i m
        if m.closed then e.takePart (take e.s) i m.parts write
        else e.awaitClose ((take e.s0).modEnd ctx i fun c => { c with matched := c.matched ++ [(m, { ticket := k, pid := e.pid })] }) i m.ticket code
      | none => if ch.closed then e.trap 30 else join
    else
      match c.held with
      | m :: t =>
        if m.closed then
          e.takePart (((e.s.modEnd ctx i fun c => { c with held := t }).dirtyDie ctx e.p.die).serveChan ctx i) i m.parts write
        else join
      | [] => if ch.closed then e.trap 30 else join

/-- RECV and RECVV (R262). -/
def recvPart (e : Env) (types : List Nat) (code : Nat) (write : List Byte → Proc → Proc) : Act :=
  let i := hIndex e.a
  let parts := tblGetD e.p.rx i []
  if e.p.phase != 0 && !parts.isEmpty then e.takePart e.s i parts write
  else match e.s0.hcheck e.p.ctx e.p.rank e.a true types [1, 2] with
    | some c => e.trap c
    | none => if parts.isEmpty then e.newMessage i code write else e.takePart e.s i parts write

def execRecv (x : Args) (s : State) : Host.Outcome State Fault Refusal :=
  perform eRecv x s fun e =>
    recvPart e [0, 4] 2 fun b p => p.wrOp e.x.d.toNat (BitVec.ofNat 64 (bytesNat b))

def execRecvv (x : Args) (s : State) : Host.Outcome State Fault Refusal :=
  perform eRecvv x s fun e =>
    recvPart e [1] 4 fun b p => p.setVec e.x.d.toNat (BitVec.ofNat 1024 (bytesNat b))

/-! ### Tiles (R250, R263) -/

/-- The checks of SENDT and RECVT after hcheck (R263). -/
def Env.tileEnd (e : Env) (perm : BitVec 8) (go : TileEnd → Act) : Act :=
  let a := e.areg e.x.b
  let n := e.c.toNat
  if n = 0 || 65536 < n then e.trap 14
  else if n % 8 != 0 then e.trap 16
  else if a.valid && a.space != spLocal && a.space != spCluster then e.trap 15 0 a.ptr
  else e.access a a.ptr n a.space (pEN ||| perm) 8 {} fun _ =>
    if 65535 ≤ e.p.cCopy then .stall e.s0 else go { area := a, ea := a.ptr, n := n, tok := e.s0.seq }

/-- The operation of a SENDT or RECVT begins: its token is also its ticket. -/
def Env.startTile (e : Env) (t : TileEnd) : State :=
  { e.startCopy with seq := t.tok + 1 }.modProc e.pid fun p =>
    { p with ops := tblSet p.ops t.tok { kind := .other, owner := .die, dest := e.status, ea := e.a } }

/-- SENDT (R263). -/
def execSendt (x : Args) (s : State) : Host.Outcome State Fault Refusal :=
  perform eSendt x s fun e =>
    let i := hIndex e.a
    match e.s0.hcheck e.p.ctx e.p.rank e.a false [2] [1, 2, 5] with
    | some c => e.trap c
    | none => e.tileEnd pRD fun t => e.released (e.s0.sendScope e.p.ctx i e.p.die) (
        let s := e.startTile t
        let m : Msg := { ticket := t.tok, pid := e.pid, tile := some t }
        if e.s0.isMoving e.p.ctx i || e.s0.tileStoresBefore e.pid e.p.core e.s0.seq then .stall e.s0
        else if e.s0.isFar e.p.ctx i e.p.die then
          .next (if (e.s0.chan e.p.ctx i).closed then s.endTile e.pid t.tok 30 0
            else (s.modEnd e.p.ctx i fun c => { c with farRsv := nsDel c.farRsv e.pid }).sendTile e.p.ctx i e.p m t)
        else
          let r := s.arrive e.p.ctx i m
          let s := (r.1.countSent e.p.ctx e.p.die).countDelivered e.p.ctx e.p.die
          .next (if r.2 = .refused then s.endTile e.pid t.tok 30 0 else s))

/-- RECVT (R263, R246, R247). -/
def execRecvt (x : Args) (s : State) : Host.Outcome State Fault Refusal :=
  perform eRecvt x s fun e =>
    let i := hIndex e.a
    let ctx := e.p.ctx
    match e.s0.hcheck ctx e.p.rank e.a true [2] [1, 2] with
    | some c => e.trap c
    | none => e.tileEnd pWR fun t =>
        let s := e.startTile t
        let c := e.s0.chanEnd ctx i
        let r : Rcv := { ticket := t.tok, pid := e.pid, tile := some t }
        if c.spent && (e.s0.chan ctx i).closed then .next (s.endTile e.pid t.tok 30 0)
        else .next ((s.modEnd ctx i fun c => { c with rcvs := c.rcvs ++ [r] }).serveChan ctx i)

/-- Bytes land at a receiver's region: their words become full (R136). -/
def State.landTile (s : State) (pid : Nat) (t : TileEnd) (bs : List Byte) : State :=
  match s.proc pid with
  | none => s
  | some p =>
    let pa := s.windowPA p.core p.ctx t.area.space t.ea.toNat
    (wordsOf pa bs.length).foldl (fun s w => s.setWord w true) (s.write pa bs)

/-- The bytes that a tile moves: those of the sender's region now, or those it holds; none at an uncorrectable
word. -/
def State.tileBytes (s : State) (t : Tile) : Option (List Byte) :=
  match t.from_ with
  | none => some t.bytes
  | some (pid, u) =>
    match s.proc pid with
    | none => none
    | some p =>
      let pa := s.windowPA p.core p.ctx u.area.space u.ea.toNat
      if (s.badWord pa u.n).isSome then none else some (s.read pa u.n)

/-- The sender of a tile learns that its bytes have moved. -/
def State.tileSent (s : State) (t : Tile) (cause bytes : Nat) : State :=
  match t.from_, t.link with
  | some (pid, u), _ => s.endTile pid u.tok cause bytes
  | none, some _ => s.fate t.ctx t.chan { ticket := t.ticket, pid := 0, link := t.link } cause bytes
  | none, none => s

/-- TILE_TRANSFER_COMPLETE (R250, R263): every word lands, then the status words are written. -/
def execTileTransferComplete (index : Nat) (s : State) : Host.Outcome State Fault Refusal :=
  match s.tiles[index]? with
  | none => .next s
  | some t =>
    let bs := s.tileBytes t
    let s := { s with tiles := s.tiles.eraseIdx index }
    let s := match bs, t.to_ with
      | some b, some (pid, u) => ((s.landTile pid u b).tileSent t 0 b.length).endTile pid u.tok 0 b.length
      | none, some (pid, u) => (s.tileSent t 24 0).endTile pid u.tok 24 0
      | some b, none =>
        let put (m : Msg) : Msg :=
          if m.ticket = t.ticket then { m with closed := true, link := none, tile := m.tile.map fun (u : TileEnd) => { u with bytes := some b } } else m
        ((s.modEnd t.ctx t.chan fun e => { e with held := e.held.map put }).tileSent t 0 b.length).serveChan t.ctx t.chan
      | none, none => (s.tileSent t 24 0).dropPlace t.ctx t.chan t.ticket
    .next (s.rebindAgain t.ctx t.chan)

/-! ### Binding, queries and closing -/

/-- Binding word (R239). -/
def Chan.bindWord (c : Chan) : Word :=
  BitVec.ofNat 64 (c.kind * 2 ^ 61 + c.type * 2 ^ 58 + (if c.closed then 2 ^ 57 else 0) + c.depth * 2 ^ 40 + c.target)

/-- A reservation is dropped, with a place held for nothing but it (R256, R251). -/
def ChanEnd.release (e : ChanEnd) (mine : Option Nat → Bool) : ChanEnd :=
  let keep (m : Msg) : Bool := !(mine m.rsv && !m.closed && m.ticket == 0)
  let clear (m : Msg) : Msg := if mine m.rsv then { m with rsv := none } else m
  { e with sends := e.sends.map clear, held := (e.held.filter keep).map clear,
           far := e.far + (e.farRsv.filter fun x => mine (some x.1)).length, farRsv := e.farRsv.filter fun x => !mine (some x.1),
           rcvs := e.rcvs.map fun r => if mine r.rsv then { r with rsv := none } else r }

/-- Every reservation of a process is dropped (ALTB, R267). -/
def State.releaseAll (s : State) (pid ctx : Nat) : State :=
  ((s.ctx ctx).ends.map (·.1)).foldl (fun s i =>
    (s.modEnd ctx i fun e => e.release fun r => r == some pid).serveChan ctx i) s

/-- A transfer of the channel is in progress (R251): a packet is open, a matched message has not landed, or a tile moves. -/
def State.transferring (s : State) (ctx i : Nat) : Bool :=
  let e := s.chanEnd ctx i
  !e.matched.isEmpty || (e.held.any fun m => !m.closed && !(m.ticket == 0)) || (s.tiles.any fun t => t.ctx == ctx && t.chan == i)
    || (s.procs.any fun p => p.2.ctx == ctx && p.2.packet.any fun k => hIndex k.handle == i)
    || s.dies.any fun d => d.2.servers.any fun q => q.2.any fun r => r.ctx == ctx && r.chan == i && r.viaSend && !r.ready

/-- TARGET names an endpoint that exists (R240, R264). -/
def State.hasEndpoint (s : State) (ctx kind t : Nat) : Bool :=
  match kind with
  | 4 => t != 0 && (s.queue t).en && (s.queue t).ctx == ctx
  | 5 => (tblGet (s.io (8 + t / 2 ^ 14 % 2)).qps (t % 2 ^ 14)).any fun q => q.ctx == ctx
  | 6 => (s.io (8 + t / 4)).present && !(s.io (8 + t / 4)).lost
  | _ => true

/-- A fault record from its four words (R230). -/
def FRec.ofWords (ws : List Nat) : FRec :=
  let w := ws.getD 0 0
  { rank := w / 2 ^ 32, core := w / 2 ^ 21 % 2 ^ 11, ctx := w / 2 ^ 15 % 2 ^ 6, context := w.testBit 12, create := w.testBit 11,
    lost := w.testBit 10, slide := w.testBit 9, nested := w.testBit 8, code := w % 2 ^ 6, info := ws.getD 1 0,
    epc := BitVec.ofNat 64 (ws.getD 2 0), faddr := BitVec.ofNat 64 (ws.getD 3 0) }

/-- A message that waits or is held is presented to a channel's new end (R251, R411), from the die of its sender, or from die
`old` where it lies beyond its sender's. Before a memory server it waits for a place. -/
def State.present (s : State) (ctx i old : Nat) (m : Msg) : State :=
  let c := s.chan ctx i
  let p := s.proc m.pid
  let die := if m.link.isSome then old else p.elim old fun p => coreDie p.core
  let ws := m.parts.map bytesNat
  match c.kind with
  | 0 => s.modEnd ctx i fun e => { e with sends := e.sends ++ [m] }
  | 4 => (s.modQueue c.target fun q => { q with waiting := q.waiting ++
      [(BitVec.ofNat 64 (ws.getD 0 0), BitVec.ofNat 64 (ws.getD 1 0)), (BitVec.ofNat 64 (ws.getD 2 0), BitVec.ofNat 64 (ws.getD 3 0))] }).recordFate
        m.ticket 0
  | 6 => ({ s with toMgmt := s.toMgmt ++ [(c.target, FRec.ofWords ws)] } : State).recordFate m.ticket 0
  | _ =>
    if s.isFar ctx i die then
      match m.tile, p with
      | some t, some p =>
        if t.bytes.isNone && m.link.isNone then s.sendTile ctx i p m t else s.sendFar ctx die p.rank i 7 m (t.bytes.getD [])
      | t, p => s.sendFar ctx die (p.elim ((m.src.map (·.2)).getD 0) Proc.rank) i (if t.isSome then 7 else 6) m
          ((t.bind (·.bytes)).getD m.parts.flatten)
    else if c.kind = 3 then (s.arriveServer ctx i m).1
    else (s.arrive ctx i m).1

/-- A channel message's fragments are all still to leave their source die. -/
def OutMsg.waitsOut (m : OutMsg) (ctx i : Nat) : Bool :=
  (m.kind == 6 || m.kind == 7) && m.st == .queued && m.body.any fun w => w.ctx == ctx && w.chan == i && !w.msg.drop

/-- The sends of a channel whose messages have not left their dies, each with its die (R251). -/
def State.unsentSends (s : State) (ctx i : Nat) : List (Nat × Msg) :=
  s.dies.flatMap fun d =>
    let mine := d.2.out.filter fun m => m.2.waitsOut ctx i && d.2.out.all fun o => o.2.unit != m.2.unit || o.2.waitsOut ctx i
    mine.filterMap fun m => if m.2.off = 0 then m.2.body.map fun w => (d.1, w.msg) else none

/-- Those messages are taken back, to be presented to another end; they count as delivered (R257). -/
def State.recall (s : State) (ctx i : Nat) : State :=
  let ms := s.unsentSends ctx i
  let s : State := { s with dies := s.dies.map fun (d : Nat × Die) => (d.1, { d.2 with out := d.2.out.filter fun m =>
    !(m.2.waitsOut ctx i && ms.any fun x => x.1 == d.1 && m.2.body.any fun w => w.msg.ticket == x.2.ticket) }) }
  ms.foldl (fun s x => s.countDelivered ctx x.1) s

/-- What waits and is held at the local end of a rank that another module has come to hold goes there in order (R241, R411). -/
def State.handOver (s : State) (ctx i old : Nat) : State :=
  let e := (s.chanEnd ctx i).release fun _ => true
  let s := s.modEnd ctx i fun _ => { e with held := [], sends := [], far := 0 }
  (e.held ++ e.sends).foldl (fun s m => s.present ctx i old { m with rsv := none }) s

/-- Another module holds a rank from now on, or no longer does (R411). -/
def State.rankAt (s : State) (ctx rank : Nat) (place : Option (Nat × Nat)) : State :=
  let ends := ((s.ctx ctx).chans.filter fun c => (c.2.kind == 1 || c.2.kind == 2) && c.2.target % 2 ^ 32 == rank
    && (s.endPlace ctx c.1).1 == s.devId).map fun c => (c.1, s.endDie ctx c.1)
  let s := s.modCtx ctx fun c =>
    { c with moving := nsDel c.moving rank, farRanks := match place with
        | some p => tblSet c.farRanks rank (farCore p.1 p.2)
        | none => tblErase c.farRanks rank }
  ends.foldl (fun s x => if (s.endPlace ctx x.1).1 = s.devId then s else s.handOver ctx x.1 x.2) s

/-- Steps 2 to 5 of R251. -/
def State.rebind (s : State) (ctx i kind target : Nat) : State :=
  let e := s.chanEnd ctx i
  let old := if (s.chan ctx i).kind = 3 then (s.sendGoal ctx i).1.2 else s.endDie ctx i
  let late := s.unsentSends ctx i
  let s := (s.recall ctx i).modCtx ctx fun c =>
    { c with chans := tblMod c.chans i fun h => { h with kind := kind, target := target, closed := false } }
  let s := s.modEnd ctx i fun (e : ChanEnd) =>
    let c : ChanEnd := e.release fun _ => true
    { c with rcvs := [], sends := [], far := 0, rebind := [] }
  let s := e.rcvs.foldl (State.endRcv · 31) s
  let leave := kind = 3 || kind = 4 || kind = 5 || kind = 6 || (kind != 0 && (s.endPlace ctx i).1 != s.devId)
  let s := if leave then
      (s.chanEnd ctx i).held.foldl (fun s m => s.present ctx i old m) (s.modEnd ctx i fun e => { e with held := [] })
    else s
  let s := e.sends.foldl (fun (s : State) (m : Msg) => s.present ctx i old { m with rsv := none }) s
  (late.foldl (fun (s : State) x => s.present ctx i x.1 x.2) s).serveChan ctx i

/-- A CHB that waited no longer does, and what waits at the end goes on (R251). -/
def State.leaveRebind (s : State) (ctx i pid : Nat) : State :=
  if (s.chanEnd ctx i).rebind.contains pid then
    ((s.modEnd ctx i fun c => { c with rebind := c.rebind.filter (· != pid) }).modProc pid fun p => { p with waitsOn := none }).serveChan ctx i
  else s

/-- CHB (R264, R251). -/
def execChb (x : Args) (s : State) : Host.Outcome State Fault Refusal :=
  perform eChb x s fun e =>
    let i := hIndex e.a
    let ctx := e.p.ctx
    let old := e.s0.chan ctx i
    let kind := e.b.toNat / 2 ^ 61
    let target := e.b.toNat % 2 ^ 40
    let quit (c : Nat) : Act := { e with s0 := e.s0.leaveRebind ctx i e.pid }.trap c
    match e.s0.hcheck12 ctx e.a [0, 1, 2, 3, 4] none with
    | some c => quit c
    | none =>
      if kind = 7 || !(kindTypes kind).contains old.type || target != target &&& targetMask kind
          || !e.s0.hasEndpoint ctx kind target then quit 29
      else if (kind = 4 || kind = 5 || kind = 6 || i = 0) && !e.p.priv then quit 4
      else if kind = 3 && !e.s0.dieLive (target / 256 % 8) then quit 20
      else if old.closed && !(e.s0.chanEnd ctx i).spent then quit 30
      else if e.s0.transferring ctx i then
        .park ((e.s0.modEnd ctx i fun c => { c with rebind := c.rebind.filter (· != e.pid) ++ [e.pid] }).modProc e.pid fun p =>
          { p with waitsOn := some (e.a, 0) }) .channel (.chan 0)
      else
        .next ((e.s.rebind ctx i kind target).modProc e.pid fun p => p.wrOp e.x.d.toNat old.bindWord)

/-- Sends of this module that wait on a channel for an endpoint unit or a queue pair (R265): its parked SEND and SENDV, and its
SENDT that have not ended. -/
def State.sendsOut (s : State) (ctx i : Nat) : Nat :=
  (s.procs.map fun x =>
    if x.2.ctx != ctx then 0
    else (x.2.ops.filter fun o => o.2.kind == .other && hType o.2.ea == 2 && !hEnd o.2.ea && hIndex o.2.ea == i).length +
      (match x.2.st with
        | .parked .channel (.chan _) _ => if x.2.waitsOn.any fun w => hIndex w.1 == i && (w.2 == 1 || w.2 == 3) then 1 else 0
        | _ => 0)).sum

/-- The status word of R265, as the channel's ordering point tells it: that of an end on another module has come from there. -/
def State.chanStat (s : State) (ctx i : Nat) : Word :=
  let c := s.chan ctx i
  let e := s.chanEnd ctx i
  let n := e.held.length
  let waits := if c.kind = 3 || c.kind = 5 then s.sendsOut ctx i else e.sends.length
  if (c.kind = 1 || c.kind = 2) && (s.endPlace ctx i).1 != s.devId then (if c.closed then e.stat ||| 6 else e.stat)
  else
  let moving := (s.tiles.filter fun t => t.ctx == ctx && t.chan == i && t.to_.isSome).length
  let st := if c.closed then 6
    else if c.depth = 0 then (if !e.sends.isEmpty then 1 else if !e.rcvs.isEmpty then 2 else 0)
    else if n = 0 then 0 else if c.depth ≤ n then 5 else if min c.depth 8 < n then 4 else 3
  BitVec.ofNat 64 (min (n + e.matched.length + moving) (2 ^ 20 - 1) * 2 ^ 44 + min waits 4095 * 2 ^ 32
    + min e.rcvs.length 4095 * 2 ^ 20 + st)

/-- CHQ (R265): the answer of the channel's ordering point. -/
def chqRead (e : Env) (v : State → Nat → Nat → Word) : Act :=
  match e.s0.hcheck12 e.p.ctx e.a [0, 1, 2, 3, 4] none with
  | some c => e.trap c
  | none => e.asked (e.ret (v e.s0 e.p.ctx (hIndex e.a)))

def execChqBind (x : Args) (s : State) : Host.Outcome State Fault Refusal :=
  perform eChq x s fun e => chqRead e fun s c i => (s.chan c i).bindWord
def execChqStat (x : Args) (s : State) : Host.Outcome State Fault Refusal :=
  perform eChq x s fun e => chqRead e State.chanStat

/-- A channel message that has not left its die. -/
def OutMsg.opens (m : OutMsg) (ctx i ticket : Nat) : Bool :=
  (m.kind == 6 || m.kind == 7) && m.st == .queued && m.body.any fun w => w.ctx == ctx && w.chan == i && w.msg.ticket == ticket

/-- A message of the channel that no queue pair or server has taken yet is refused (R245, R248). -/
def State.refuseOut (s : State) (ctx i cause pid ticket : Nat) : State :=
  if s.dies.any fun d => d.2.out.any fun m => m.2.opens ctx i ticket then
    let s := { s with dies := s.dies.map fun (d : Nat × Die) => (d.1, { d.2 with out := d.2.out.filter fun m => !m.2.opens ctx i ticket }) }
    s.fate ctx i { ticket := ticket, pid := pid, tile := (((s.proc pid).bind fun p => tblGet p.ops ticket).map fun _ =>
      ({ area := {}, ea := 0, n := 0, tok := ticket } : TileEnd)) } cause 0
  else s

/-- Sends that wait for a server of another die, or a queue pair, to take them are refused at the close of their channel
(R248). -/
def State.refuseWaiting (s : State) (ctx i cause : Nat) : State :=
  (s.procs.filter fun x => x.2.ctx == ctx).foldl (fun (s : State) (x : Nat × Proc) =>
    let s := (x.2.ops.filter fun o => o.2.kind == .other && hType o.2.ea == 2 && hIndex o.2.ea == i).foldl (fun s o => s.refuseOut ctx i cause x.1 o.1) s
    match x.2.st, x.2.waitsOn with
    | .parked .channel (.chan t) _, some (h, _) => if hIndex h = i then s.refuseOut ctx i cause x.1 t else s
    | _, _ => s) s

/-- The close of a channel (R248): sends not accepted are refused, and receives with no message left end. The other modules of
the context are told of the close (R411). -/
def State.closeChan (s : State) (ctx i cause : Nat) : State :=
  let e := s.chanEnd ctx i
  let ch := s.chan ctx i
  let s := s.modCtx ctx fun c => { c with chans := tblMod c.chans i fun h => { h with closed := true } }
  let s := s.modEnd ctx i fun (e : ChanEnd) =>
    let c : ChanEnd := e.release fun _ => true
    { c with sends := [] }
  let s := e.sends.foldl (fun s m => s.fate ctx i m cause 0) s
  let s := if ch.kind = 3 || ch.kind = 5 then s.refuseWaiting ctx i cause else s
  let s := if (s.ctx ctx).peers.isEmpty || !(ch.kind = 1 || ch.kind = 2) then s
    else { s with closesOut := s.closesOut ++ [(ctx, i, ch.target % 2 ^ 32)] }
  let s := s.serveChan ctx i
  if (s.chanEnd ctx i).held.isEmpty then
    (s.chanEnd ctx i).rcvs.foldl (State.endRcv · cause) (s.modEnd ctx i fun e => { e with rcvs := [] })
  else s

/-- Another module has closed a receive end: an entry bound to it reads CLOSED (R411). -/
def State.peerClose (s : State) (ctx i rank : Nat) : State :=
  let c := s.chan ctx i
  if c.assigned && !c.closed && (c.kind == 1 || c.kind == 2) && c.target % 2 ^ 32 == rank then (s.closeChan ctx i 30).recheckAll else s

/-- CHCL (R266). (DEDUCED, log entry 28; unsafe.) -/
def execChcl (x : Args) (s : State) : Host.Outcome State Fault Refusal :=
  perform eChcl x s fun e =>
    let i := hIndex e.a
    match e.s0.hcheck12 e.p.ctx e.a [0, 1, 2, 3, 4] none with
    | some c => e.trap c
    | none =>
      if i = 0 && !e.p.priv then e.trap 4
      else e.asked (.next (if (e.s0.chan e.p.ctx i).closed then e.s else (e.s.closeChan e.p.ctx i 30).recheckAll))

/-! ### ALT (R254 to R256, R267) -/

/-- ALTB (R267). -/
def execAltb (x : Args) (s : State) : Host.Outcome State Fault Refusal :=
  perform eAltb x s fun e =>
    .next ((e.s.releaseAll e.pid e.p.ctx).modProc e.pid fun p =>
      { p with alt := some [], altFair := mN e.x == 1, altT0 := none })

/-- ALTG (R267). -/
def execAltg (x : Args) (s : State) : Host.Outcome State Fault Refusal :=
  perform eAltg x s fun e =>
    let add (g : Guard) : Act := .next (e.upd fun p => { p with alt := p.alt.map (· ++ [g]) })
    match e.p.alt with
    | none => e.trap 32
    | some gs =>
      if 8 ≤ gs.length then e.trap 32
      else match mN e.x with
        | 0 => match e.s0.hcheck e.p.ctx e.p.rank e.a true [0, 1, 2, 4] [1, 2] with
          | some c => e.trap c
          | none => add (.recv e.a)
        | 1 => match e.s0.hcheck e.p.ctx e.p.rank e.a false [0, 1, 2, 4] [1, 2] with
          | some c => e.trap c
          | none => add (.send e.a)
        | 2 => add (.timeout e.a.toNat)
        | 3 => if 96 ≤ e.a.toNat then e.trap 36 else add (.barrier e.a.toNat (e.b.toNat % 2 ^ 16))
        | _ => add (.pred e.x.a.toNat)

/-- The chosen guard reserves its message, send, receive or place (R256). -/
def State.reserve (s : State) (pid ctx : Nat) (g : Guard) : State :=
  match g with
  | .recv h =>
    let mark : List Msg → List Msg
      | m :: t => { m with rsv := some pid } :: t
      | [] => []
    s.modEnd ctx (hIndex h) fun e =>
      if (s.chan ctx (hIndex h)).depth = 0 then { e with sends := mark e.sends } else { e with held := mark e.held }
  | .send h =>
    if (s.chan ctx (hIndex h)).closed then s
    else if (s.endPlace ctx (hIndex h)).1 != s.devId then
      s.modEnd ctx (hIndex h) fun e => { e with far := e.far - 1, farRsv := nsAdd e.farRsv pid }
    else s.modEnd ctx (hIndex h) fun e =>
      if (s.chan ctx (hIndex h)).depth = 0 then
        match pickFirst (fun r => r.rsv.isNone) e.rcvs with
        | some (r, t) => { e with rcvs := { r with rsv := some pid } :: t }
        | none => e
      else { e with held := e.held ++ [{ ticket := 0, pid := pid, closed := false, rsv := some pid }] }
  | _ => s

/-- The first index of `l` after the rotor, cyclically over 0 to 7 (R255). -/
def afterRotor (rotor : Nat) (l : List Nat) : Option Nat := (l.find? (rotor < ·)).or l.head?

def Guard.isTimeout : Guard → Bool
  | .timeout _ => true
  | _ => false

/-- The ALTW chooses guard `i` (R255, R190). -/
def Env.choose (e : Env) (gs : List Guard) (i seq : Nat) : Act :=
  match gs[i]? with
  | none => e.trap 32
  | some g =>
    let s := e.s.reserve e.pid e.p.ctx g
    let s := s.logEvent e.pid e.p (if g.isTimeout then 1 else 0) i 0 seq
    .next (s.modProc e.pid fun p =>
      { (p.wrOp e.x.d.toNat (BitVec.ofNat 64 i)) with
        alt := none, altT0 := none, rotor := if p.altFair then i else p.rotor })

/-- ALTW (R255, R191). -/
def execAltw (x : Args) (s : State) : Host.Outcome State Fault Refusal :=
  perform eAltw x s fun e =>
    match e.p.alt with
    | none => e.trap 32
    | some [] => e.trap 32
    | some gs =>
      let p0 := { e.p with altT0 := e.p.altT0.or (some (e.s0.core e.p.core).tick) }
      let first := match gs with
        | .recv h :: _ | .send h :: _ => h
        | _ => 0
      let wait : Act := .park (e.s0.modProc e.pid fun p => { p with altT0 := p0.altT0, waitsOn := some (first, 7) }) .alt .alt
      let rdy := (gs.zipIdx.filter fun g => e.s0.guardReady p0 g.1).map (·.2)
      match e.s0.logSays e.p [0, 1] with
      | .full => if rdy.isEmpty then wait else e.logFull
      | .diverge => .raw (e.s0.diverge e.pid e.p)
      | .entry l =>
        match gs[l.guard]? with
        | none => .raw (e.s0.diverge e.pid e.p)
        | some g =>
          if (l.kind == 1) != g.isTimeout then .raw (e.s0.diverge e.pid e.p)
          else if l.kind = 1 || e.s0.guardReady p0 g then e.choose gs l.guard l.seq
          else wait
      | .go =>
        match if e.p.altFair then afterRotor e.p.rotor rdy else rdy.head? with
        | some i => e.choose gs i 0
        | none => wait

/-- TIMEOUT_FIRING (R254): a parked ALTW wakes when a guard is ready. -/
def execTimeoutFiring (pid : Nat) (s : State) : Host.Outcome State Fault Refusal :=
  match s.proc pid with
  | some p => .next (if p.alt.isSome then s.recheck pid else s)
  | none => .next s

/-! ### Events of channels -/

/-- CHANNEL_MESSAGE_ARRIVAL (R244, R412): a message that has come over a link reaches its receive end, or the memory server
of its channel, where it waits for a place, and is acknowledged. One whose end has moved elsewhere follows it (R251). Messages
of one process on one channel arrive in issue order. -/
def execChannelMessageArrival (index : Nat) (s : State) : Host.Outcome State Fault Refusal :=
  match s.chanIn[index]? with
  | none => .next s
  | some w =>
    let same (v : ChanWire) : Bool := v.ctx == w.ctx && v.chan == w.chan && v.msg.pid == w.msg.pid
    if (s.chanIn.take index).any same then .next s
    else
      let m := w.msg
      let c := s.chan w.ctx w.chan
      let die := c.target / 256 % 8
      let t := (s.acknowledge w.home).countDelivered w.ctx (if c.kind = 3 then die else s.endDie w.ctx w.chan)
      let t : State := { t with chanIn := t.chanIn.eraseIdx index }
      let e := s.chanEnd w.ctx w.chan
      let known := (e.matched.any fun x => x.1.ticket == m.ticket) || e.held.any fun h => h.ticket == m.ticket
      if c.kind = 0 || 3 < c.kind || (c.kind != 3 && (s.endPlace w.ctx w.chan).1 != s.devId) then
        .next (if m.drop then t else t.present w.ctx w.chan (w.home.elim (s.endDie w.ctx w.chan) (·.1)) m).recheckAll
      else if c.kind = 3 then
        if m.drop then .next (t.dropServer die (c.target % 4) m.ticket).recheckAll
        else if (tblGetD (s.die die).servers (c.target % 4) []).any fun r => r.ticket == m.ticket && !r.ready then
          .next ((t.serverPacket die (c.target % 4) m.ticket m.parts).serveServer die (c.target % 4) 64).recheckAll
        else match t.arriveServer w.ctx w.chan m with
          | (t, .refused) => .next (t.fate w.ctx w.chan m 30 0).recheckAll
          | (t, _) => .next t.recheckAll
      else if m.drop then .next (t.dropPlace w.ctx w.chan m.ticket).recheckAll
      else if known then .next (t.fillPlace w.ctx w.chan m.ticket m.parts).recheckAll
      else
        let r := t.arrive w.ctx w.chan m
        .next (if r.2 = .refused then r.1.fate w.ctx w.chan m 30 0 else r.1).recheckAll

/-- CHANNEL_NOTICE (R412): the send that waits completes, or raises fault 30; a SENDT receives its status. -/
def execChannelNotice (index : Nat) (s : State) : Host.Outcome State Fault Refusal :=
  match s.notices[index]? with
  | none => .next s
  | some w =>
    let s := { s with notices := s.notices.eraseIdx index }
    let m : Msg := { w.msg with link := none }
    .next (if m.pid = 0 then s.told m.ticket w.cause w.bytes
      else s.fate w.ctx w.chan m w.cause w.bytes)

/-- The other end of a channel is lost (R249): every process parked on the channel wakes with the cause, every SENDT or RECVT
posted on it ends with it, and no message of it is under way. RECV.a keep their destinations pending. -/
def State.loseEnd (s : State) (ctx i cause : Nat) : State :=
  let e := s.chanEnd ctx i
  let mine (w : ChanWire) : Bool := w.ctx == ctx && w.chan == i
  let s : State := { s with
    tiles := s.tiles.filter fun t => !(t.ctx == ctx && t.chan == i),
    chanIn := s.chanIn.filter fun w => !mine w,
    dies := s.dies.map fun (d : Nat × Die) => (d.1, { d.2 with out := d.2.out.filter fun m =>
      !((m.2.kind == 6 || m.2.kind == 7) && m.2.body.any mine) }) }
  let late := ((e.matched.map (·.2)) ++ e.rcvs).filter fun r => !r.async.isEmpty
  let s := s.modEnd ctx i fun e => { e with sends := [], rcvs := late, matched := [], farRsv := [], far := 0 }
  let s := e.sends.foldl (fun s m => if m.link.isSome then s.fate ctx i m cause 0 else s) s
  let s : State := if i = 0 then { s with cores := s.cores.map fun (c : Nat × Core) =>
    (c.1, if c.2.records.head?.any fun r => r.1.ctx == ctx then { c.2 with recFlight := 0 } else c.2) } else s
  (s.procs.filter fun x => x.2.ctx == ctx).foldl (fun (s : State) (x : Nat × Proc) =>
    let s := (x.2.ops.filter fun o => o.2.kind == .other && hType o.2.ea == 2 && hIndex o.2.ea == i).foldl (fun s o => s.endTile x.1 o.1 cause 0) s
    match x.2.st, x.2.waitsOn with
    | .parked .channel _ _, some (h, code) => if hIndex h = i && code != 0 then s.wakeWith x.1 { cause := cause } else s
    | _, _ => s) s

/-- END_LOST (R249): the other end of a channel is lost; every parked or posted party on this side ends with 34. -/
def execEndLost (ctx chan : Nat) (s : State) : Host.Outcome State Fault Refusal := .next (s.loseEnd ctx chan 34)

/-! ### Fault records (R230) -/

/-- The four words of a fault record (R230). -/
def FRec.words (r : FRec) : List Word :=
  let f (b : Bool) (i : Nat) : Nat := if b then 2 ^ i else 0
  [BitVec.ofNat 64 (r.rank % 2 ^ 32 * 2 ^ 32 + r.core * 2 ^ 21 + r.ctx * 2 ^ 15 + f r.context 12 + f r.create 11
      + f r.lost 10 + f r.slide 9 + f r.nested 8 + r.code), BitVec.ofNat 64 r.info, r.epc, r.faddr]

/-- The version of an event record (R385). -/
def FRec.version (r : FRec) : Option Nat := if r.code = 51 && 2 ^ 63 ≤ r.info then some (r.info % 2 ^ 32) else none

/-- An event record of an earlier version still waits for the context, at another core (R385). -/
def State.earlierVersion (s : State) (r : FRec) : Bool :=
  r.version.any fun v => s.cores.any fun c => c.2.records.any fun q => q.1.ctx == r.ctx && q.1.version.any (· < v)

/-- FAULT_RECORD_SEND (R230): the oldest record of a core goes to the endpoint of channel index 0 once that accepts it, and
is kept until then where the endpoint lies beyond the die; event records go in the order of their versions (R385); the
completion ring of a host work queue takes it where it has two places (R240). (DEDUCED, log entry 39; unsafe.) -/
def execFaultRecordSend (core : Nat) (s : State) : Host.Outcome State Fault Refusal :=
  match (s.core core).records with
  | [] => .next s
  | (r, _) :: t =>
    if (s.core core).recFlight != 0 || s.earlierVersion r then .next s
    else
    let c := s.chan r.ctx 0
    let e := s.chanEnd r.ctx 0
    let sent := s.modCore core fun k => { k with records := t }
    let m : Msg := { ticket := s.seq, pid := 0, parts := r.words.map fun w => natBytes 8 w.toNat }
    let die := if s.dieLive (coreDie core) then coreDie core else s.liveDies.headD 0
    let free := !c.closed && !s.rebinding r.ctx 0 &&
      (if c.depth = 0 then !e.rcvs.isEmpty else decide (e.held.length < c.depth) && e.sends.isEmpty)
    match c.kind with
    | 1 =>
      if s.isMoving r.ctx 0 then .next s
      else if s.isFar r.ctx 0 die then
        .next (if c.closed then s
          else ({ s with seq := s.seq + 1 }.modCore core fun k => { k with recFlight := s.seq }).sendFar r.ctx die r.rank 0 6 m m.parts.flatten)
      else if free then
        .next (((({ sent with seq := s.seq + 1 }).countSent r.ctx die).countDelivered r.ctx die).arrive r.ctx 0 m).1.recheckAll
      else .next s
    | 4 =>
      let w := r.words
      let q := s.queue c.target
      .next (if !c.closed && q.en && !q.closed && decide ((q.written + q.waiting.length + 2 ^ 32 - q.head) % 2 ^ 32 + 2 ≤ 2 ^ (q.log2n + 4)) then
          sent.modQueue c.target fun q =>
            { q with waiting := q.waiting ++ [(w.getD 0 0, w.getD 1 0), (w.getD 2 0, w.getD 3 0)] }
        else s)
    | 6 => .next (if c.closed then s else { sent with toMgmt := sent.toMgmt ++ [(c.target, r)] })
    | _ => .next s

end Sys2Proof.Machine
end

