-- ==== Sys2Proof/Machine/Sched.lean ====
section
/-! DEFINITION. Issue slots, ready queues and what falls due at an instruction boundary (R218 to R226). -/

namespace Sys2Proof.Machine

/-- The ready queues of a core in order: highest priority first, each from its head (R223). -/
def Core.queue (c : Core) : List Nat := (List.range 4).flatMap fun p => tblGetD c.ready p []

/-- READY processes that are resident, in ready-queue order. -/
def State.readyResident (s : State) (core : Nat) : List Nat :=
  (s.core core).queue.filter fun pid => match s.proc pid with
    | some p => p.st == .ready && p.resident
    | none => false

/-- The index of the first free slot. -/
def Core.freeSlot (c : Core) : Option Nat := c.slots.findIdx? (· == none)

/-- A process takes a slot (R223); a YIELD or SPRI of its earlier turn has acted (R234, R235). -/
def State.takeSlot (s : State) (core slot pid : Nat) : State :=
  (((s.unready pid core).enter pid .running).modProc pid fun p => { p with yielded := false, lowered := false }).modCore core fun c => { c with slots := listSet c.slots slot (some pid) }

/-- SLOT_TAKE once: a free slot goes to the first resident READY process (R223). -/
def State.slotTake (s : State) (core : Nat) : State :=
  match (s.core core).freeSlot, s.readyResident core with
  | some k, pid :: _ => s.takeSlot core k pid
  | _, _ => s

/-- Slots with the process that holds each. -/
def State.holders (s : State) (core : Nat) : List (Nat × Nat × Proc) :=
  (s.core core).slots.zipIdx.filterMap fun (x : Option Nat × Nat) => match x.1 with
    | some pid => (s.proc pid).map fun p => (x.2, pid, p)
    | none => none

/-- The holder that a process of priority `prio` may displace: no open packet, the numerically greatest priority, and
among those the one that took its slot first (R223). -/
def displaced (prio : Nat) : List (Nat × Nat × Proc) → Option (Nat × Nat × Proc)
  | [] => none
  | h :: t =>
    let r := displaced prio t
    if h.2.2.packet.isSome || h.2.2.prio ≤ prio then r
    else match r with
      | none => some h
      | some g =>
        if h.2.2.prio > g.2.2.prio || (h.2.2.prio == g.2.2.prio && h.2.2.stateSeq < g.2.2.stateSeq) then some h else r

/-- PREEMPTION once (R223): the displaced process returns to the head of its queue, its quantum count kept; where SPRI
has just lowered it, or a YIELD is due, to the tail (R234, R235). -/
def State.preempt (s : State) (core : Nat) : State :=
  match (s.core core).freeSlot, s.readyResident core with
  | none, pid :: _ =>
    match s.proc pid with
    | none => s
    | some p =>
      match displaced p.prio (s.holders core) with
      | none => s
      | some (k, q, pq) =>
        let s := (((s.leaveSlot q core).enter q .ready).enqueue q pq (!pq.lowered && !pq.yielded)).modProc q fun r =>
          { r with lowered := false, yielded := false, quantum := if pq.yielded then 0 else r.quantum }
        s.takeSlot core k pid
  | _, _ => s

/-- Quantum rotation of a slot whose count has reached Q (R223). -/
def State.rotate (s : State) (core slot : Nat) : State :=
  match (s.core core).slots.getD slot none with
  | none => s
  | some q =>
    match s.proc q with
    | none => s
    | some pq =>
      if pq.quantum < (s.core core).quant || pq.packet.isSome then s
      else
        let s := s.modProc q fun r => { r with quantum := 0 }
        match (s.readyResident core).find? fun n => ((s.proc n).map (·.prio)) == some pq.prio with
        | none => s
        | some n => (((s.leaveSlot q core).enter q .ready).enqueue q pq false).takeSlot core slot n

/-- YIELD at the boundary after it (R234). -/
def State.yieldSlot (s : State) (core slot : Nat) : State :=
  match (s.core core).slots.getD slot none with
  | none => s
  | some q =>
    match s.proc q with
    | none => s
    | some pq =>
      if pq.packet.isSome then s
      else
        let s := s.modProc q fun r => { r with yielded := false, lowered := false, quantum := if pq.yielded then 0 else r.quantum }
        let waits := (s.core core).queue.any fun n => ((s.proc n).map fun r => decide (r.prio ≤ pq.prio)) == some true
        if pq.yielded && waits then ((s.leaveSlot q core).enter q .ready).enqueue q pq false else s

/-- A debug halt takes effect (R231): a record goes to the management core, and cause 59 to CR.CAUSE.CODE of a process that is
not FAULTED or STOPPED. -/
def State.haltMark (s : State) (pid : Nat) (p : Proc) (mgmt : Nat) : State :=
  let r : FRec := { rank := p.rank, core := p.core, ctx := p.ctx, code := 59, epc := p.pc }
  { s with toMgmt := s.toMgmt ++ [(mgmt, r)] }.modProc pid fun q =>
    { q with haltDue := false, cause := if p.st = PState.faulted ∨ p.st = PState.stopped then q.cause else (q.cause &&& ~~~0x3F) ||| 59 }

/-- A suspension or debug halt takes effect, unless an open packet defers it (R181, R231). -/
def State.holdBack (s : State) (pid : Nat) : State :=
  match s.proc pid with
  | none => s
  | some p =>
    if p.packet.isSome then s
    else
      let s := if s.heldBack p && (p.st == .running || p.st == .ready) then
          ((s.leaveSlot pid p.core).unready pid p.core).enter pid .suspended
        else s
      match p.halt with
      | some k => if p.haltDue then s.haltMark pid p k else s
      | none => s

/-- Delivery of recorded delayed faults at a boundary (R166): the seventeenth, where there is one, makes the process
FAULTED and the sixteen are discarded (R229). -/
def State.deliverDelayed (s : State) (pid : Nat) : State :=
  match s.proc pid with
  | none => s
  | some p =>
    if p.st != .running || p.packet.isSome || p.thdlAct || p.held.isSome then s
    else match p.overflow, p.delayed with
      | some f, _ => (s.modProc pid fun p => { p with delayed := [], overflow := none }).fail pid f p.pc false false true
      | none, f :: t => (s.modProc pid fun p => { p with delayed := t }).deliverLate pid f p.pc
      | none, [] => s

/-- A recorded delayed fault is to be delivered before the next instruction of the process (R166, R226). -/
def Proc.delayedDue (p : Proc) : Bool :=
  p.st == .running && p.packet.isNone && !p.thdlAct && p.held.isNone && (p.overflow.isSome || !p.delayed.isEmpty)

/-- What stands before the next instruction of a process that is chosen: a fault held for its slide, a recorded delayed
fault, the fault with which it woke, a firmware cause once no halt holds (R231). -/
def State.before (s : State) (pid : Nat) (p : Proc) : Option State :=
  match p.held, p.wakeFault, p.firm with
  | some (f, epc), _, _ => some (s.deliverLate pid f epc)
  | none, f, cs =>
    if p.delayedDue then some (s.deliverDelayed pid)
    else match f, cs with
      | some f, _ => some ((s.modProc pid fun q => { q with wakeFault := none }).deliver pid f p.pc)
      | none, c :: t =>
        if p.halt.isSome then none else some ((s.modProc pid fun q => { q with firm := t }).deliverLate pid { cause := c } p.pc)
      | none, [] => none

/-- The fault with which the process woke comes next: its instruction has issued again (R218, R222). -/
def Proc.ownFault (p : Proc) : Bool := p.held.isNone && !p.delayedDue && p.wakeFault.isSome

/-- A fault of the process still waits for its slide, and its slot is held (R86, R94). -/
def State.slideWaits (s : State) (pid : Nat) : Bool := (s.proc pid).any fun p => p.st == .running && p.held.isSome

/-- READY processes that are evicted become resident as places fall free, in ready-queue order (R220). -/
def State.fillAll (s : State) (core : Nat) : State :=
  (s.core core).queue.foldl (fun s pid => match s.proc pid with
    | some p => if p.resident then s else (s.fill pid).getD s
    | none => s) s

/-- Orders 1 and 2 of R226 for the holders of a core's slots: suspensions and debug halts, those of processes that have left
their slots with an open packet's end among them, and recorded delayed faults. -/
def State.dueFirst (s : State) (core : Nat) : State :=
  let pids := (s.core core).slots.filterMap id
  let halts := (s.procs.filter fun e => e.2.core == core && e.2.haltDue).map (·.1)
  let s := (pids ++ halts).foldl State.holdBack s
  pids.foldl State.deliverDelayed s

/-- What falls due at an instruction boundary of a core, in the order of R226. A free slot is taken before any holder is
displaced or rotated (R223), and so is one that a YIELD has left. An instruction that a delayed fault has interrupted goes on
(R166). -/
def State.boundary (s : State) (core : Nat) : State :=
  let s := (s.dueFirst core).fillAll core
  let slots := List.range 8
  let s := slots.foldl (fun s _ => s.slotTake core) s
  let s := slots.foldl (fun s _ => s.preempt core) s
  let s := slots.foldl (fun s k => s.rotate core k) s
  let s := slots.foldl (fun s k => s.yieldSlot core k) s
  let s := slots.foldl (fun s _ => s.slotTake core) s
  ((s.core core).slots.filterMap id).foldl State.takeUp s

/-- The slots that may issue, in the order of R222. -/
def State.candidates (s : State) (core : Nat) : List (Nat × Nat) :=
  let hs := s.holders core
  match hs.find? fun h => h.2.2.packet.isSome with
  | some h => [(h.1, h.2.1)]
  | none =>
    (List.range 4).flatMap fun p =>
      let mine := hs.filter fun h => h.2.2.prio == p
      let last := tblGetD (s.core core).lastSlot p 7
      let order := (mine.filter fun h => last < h.1) ++ mine.filter fun h => h.1 ≤ last
      order.map fun h => (h.1, h.2.1)

end Sys2Proof.Machine
end

