-- ==== Sys2Proof/Machine/Context.lean ====
section
/-! DEFINITION. The instructions over a context, RMV, RMACK, OMARK and WDOG (R192, R193), and the events of budgets,
watchdog, acknowledgement windows, order log and drain (R184 to R190). -/

namespace Sys2Proof.Machine

/-! ### The resource map and its acknowledgement (R188, R189, R192) -/

/-- CR.RMVER.CUR of a die. -/
def State.curVersion (s : State) (d : Nat) : Nat := (tblGetD (s.die d).map 0 0).toNat % 2 ^ 32

/-- RMV (R192). -/
def execRmv (x : Args) (s : State) : Host.Outcome State Fault Refusal :=
  perform eRmv x s fun e =>
    if 512 ≤ e.a.toNat then e.trap 14 0 e.a
    else e.ret (tblGetD (e.s.die e.p.die).map e.a.toNat 0)

/-- RMACK (R192): it wakes, with phase 1, when every live die has recorded the acknowledgement.
(DEDUCED, log entry 61; safe.) -/
def execRmack (x : Args) (s : State) : Host.Outcome State Fault Refusal :=
  perform eRmack x s fun e =>
    let v := e.a.toNat
    if e.p.phase = 1 then e.ret 1
    else if v != e.s.curVersion e.p.die then e.ret 0
    else if e.s.acked e.p.ctx v then e.ret 1
    else
      let s := { e.s0 with rmacks := e.s0.rmacks ++ e.s0.liveDies.map fun d => (d, e.p.ctx, v) }
      .park (s.modProc e.pid fun p => { p with phase := 1 }) .memoryServer (.rmack v)

/-- The length of an acknowledgement window in die cycles: 2^24 core cycles (R188, R28). -/
def ackWindow : Nat := 2 ^ 25

/-- A die records an acknowledgement, and with it that of every earlier version (R188). A window that has ended already
is not averted. -/
def State.recordAck (s : State) (die ctx v : Nat) : State :=
  let s := s.modCtx ctx fun c => { c with ack := tblSet c.ack die (max v (tblGetD c.ack die 0)) }
  s.modDie die fun d => { d with windows := d.windows.filter fun w => !(w.1 == ctx && w.2.1 ≤ v && w.2.2 != 0) }

/-- RMACK_ARRIVAL (R192, R384): an acknowledgement of a version not yet installed is held.
(DEDUCED, log entry 61; safe.) -/
def execRmackArrival (index : Nat) (s : State) : Host.Outcome State Fault Refusal :=
  match s.rmacks[index]? with
  | none => .next s
  | some (d, ctx, v) =>
    let s := { s with rmacks := s.rmacks.eraseIdx index }
    .next (if s.curVersion d < v then s.modDie d fun x => { x with heldAcks := x.heldAcks ++ [(ctx, v)] }
      else (s.recordAck d ctx v).recheckAll)

/-- Contexts to which a version of the map matters (R188, R385). -/
def CState.bears : CState → Bool
  | .bound | .running | .suspended => true
  | _ => false

/-- The fault record of a context event that names no process (R230). (DEDUCED, log entry 38; unsafe.) -/
def bareRecord (ctx code : Nat) : FRec := { rank := 0, core := 0, ctx := ctx, context := true, code := code }

/-- A record of the hardware waits at a core to be sent (R230). -/
def State.holdRecord (s : State) (core : Nat) (r : FRec) : State :=
  s.modCore core fun c => { c with records := c.records ++ [(r, none)] }

/-- A cause that suspends a context (R180): on one that is SUSPENDED already the host's record of causes takes it, and
nothing else changes. -/
def State.causeFor (s : State) (ctx cause core : Nat) (r : FRec) : State :=
  if (s.ctx ctx).st == .suspended then s.suspendCtx ctx cause else (s.holdRecord core r).suspendCtx ctx cause

/-- RMAP_ACK_WINDOW_EXPIRY (R188): a window of the context has ended while its version stood unacknowledged. One that
ended as the context was suspended adds its cause (R180). -/
def execRmapAckWindowExpiry (die ctx : Nat) (s : State) : Host.Outcome State Fault Refusal :=
  let ended (w : Nat × Nat × Nat) : Bool := w.1 == ctx && w.2.2 == 0
  if !(s.ctx ctx).st.bears then .next s
  else match (s.die die).windows.find? ended with
    | none => .next s
    | some w => .next ((s.modDie die fun d => { d with windows := d.windows.filter fun x => x != w }).causeFor ctx 50
        (256 * die) (bareRecord ctx 50))

/-! ### The watchdog (R186, R187, R193) -/

/-- The watchdog counts of a context on a die are zeroed. (DESIGN CHOICE, log entry 53; unsafe.) -/
def State.zeroWatch (s : State) (die ctx : Nat) : State :=
  { s with cores := s.cores.map fun c =>
      if c.1 / 256 = die then (c.1, { c.2 with watch := tblErase c.2.watch ctx }) else c }

/-- A core's count for a context has passed its limit (R186): the context is suspended with cause 52. The record names the
process in the lowest-numbered slot that the context holds there. (DESIGN CHOICE, log entry 53; unsafe.) -/
def State.overWatch (s : State) (core ctx : Nat) : State :=
  let c := s.ctx ctx
  if (c.st == .running || c.st == .suspended) && c.wdLimit != 0 && c.wdLimit * 65536 < tblGetD (s.core core).watch ctx 0 then
    let r := match (s.holders core).find? fun h => h.2.2.ctx == ctx with
      | some h => ctxRecord h.2.2 52
      | none => bareRecord ctx 52
    (s.modCore core fun k => { k with watch := tblErase k.watch ctx }).causeFor ctx 52 core r
  else s

/-- A kick reaches a die (R193): counts that have passed the limit before it suspend the context, and all are zeroed. -/
def State.kickDie (s : State) (die ctx : Nat) : State :=
  (((s.cores.map (·.1)).filter fun c => c / 256 == die).foldl (fun s c => s.overWatch c ctx) s).zeroWatch die ctx

/-- WDOG.kick (R193). -/
def execWdogKick (x : Args) (s : State) : Host.Outcome State Fault Refusal :=
  perform eWdog x s fun e =>
    let others := e.s.liveDies.filter (· != e.p.die)
    let s := e.s.kickDie e.p.die e.p.ctx
    .next { s with kicks := s.kicks ++ others.map fun d => (d, e.p.ctx) }

/-- The limit that WDOG.lim sets (R193). -/
def wdogLimit (a : Word) (ceil : Nat) : Nat := if a = 0 ∨ ceil < a.toNat then ceil else a.toNat

/-- WDOG.lim (R193). -/
def execWdogLim (x : Args) (s : State) : Host.Outcome State Fault Refusal :=
  perform eWdog x s fun e =>
    .next (e.s.modCtx e.p.ctx fun c => { c with wdLimit := wdogLimit e.a c.wdCeil })

/-- WDOG_KICK_ARRIVAL (R193). -/
def execWdogKickArrival (index : Nat) (s : State) : Host.Outcome State Fault Refusal :=
  match s.kicks[index]? with
  | none => .next s
  | some (d, ctx) => .next ({ s with kicks := s.kicks.eraseIdx index }.kickDie d ctx)

/-- WATCHDOG_EXPIRY (R186): a core's count for a context exceeds LIMIT × 65,536. (DESIGN CHOICE, log entry 53; unsafe.) -/
def execWatchdogExpiry (core ctx : Nat) (s : State) : Host.Outcome State Fault Refusal := .next (s.overWatch core ctx)

/-! ### Budgets and the order log (R185, R190, R193) -/

/-- A budget period in core cycles, and in die cycles (R185, R28). -/
def corePeriod : Nat := 65536
def diePeriod : Nat := 131072

/-- BUDGET_PERIOD_START (R185): a period ends on a core, or on a die, and the next begins with its counts at zero. The first
begins at cycle 0. (DESIGN CHOICE, log entry 70; unsafe.) -/
def execBudgetPeriodStart (ofDie : Bool) (unit : Nat) (s : State) : Host.Outcome State Fault Refusal :=
  .next (if ofDie then
      if (s.die unit).period + diePeriod ≤ (s.die unit).cycle then
        s.modDie unit fun d => { d with msUsed := [], lkUsed := [], period := d.period + diePeriod }
      else s
    else if (s.core unit).period + corePeriod ≤ (s.core unit).cycle then
      s.modCore unit fun c => { c with share := [], period := c.period + corePeriod }
    else s)

/-- OMARK (R193). -/
def execOmark (x : Args) (s : State) : Host.Outcome State Fault Refusal :=
  perform eOmark x s fun e =>
    match e.s.logSays e.p [3] with
    | .full => e.logFull
    | .diverge => .raw (e.s0.diverge e.pid e.p)
    | .entry l => if l.value != e.a then .raw (e.s0.diverge e.pid e.p) else .next (e.s.logEvent e.pid e.p 3 0 e.a 0)
    | .go => .next (e.s.logEvent e.pid e.p 3 0 e.a 0)

/-- ORDER_LOG_DRAIN (R190): firmware has drained a recorded log area to the host. -/
def execOrderLogDrain (ctx : Nat) (s : State) : Host.Outcome State Fault Refusal :=
  .next (if (s.ctx ctx).dmode = 1 then s.modCtx ctx fun c => { c with log := [], logFull := false } else s)

/-! ### The end of a context (R184) -/

/-- Something that the process has issued is outstanding (R218). -/
def State.procBusy (s : State) (pid : Nat) (p : Proc) : Bool :=
  !p.ops.isEmpty || !p.pending.isEmpty || p.cLoad != 0 || p.cStore != 0 || p.cCopy != 0 || p.cTile != 0
    || (s.dies.any fun d => (d.2.out.any fun m => m.2.pid == pid) || d.2.servers.any fun q => q.2.any fun r => r.pid == pid)
    || (s.tiles.any fun t => (t.from_.any fun f => f.1 == pid) || t.to_.any fun f => f.1 == pid)
    || s.gpackets.any fun k => k.pid == pid

/-- An operation of the context is outstanding, or a process of it has yet to stop at a boundary, as in an open packet (R181,
R182, R184). -/
def State.ctxBusy (s : State) (ctx : Nat) : Bool :=
  let mine (f : Frag) : Bool := !(10 ≤ f.kind && f.kind ≤ 16) && if f.sdev = s.devId && f.ctx.isSome then f.ctx == some ctx else f.ctxtag == (s.ctx ctx).tag
  (s.procs.any fun e => e.2.ctx == ctx &&
      (s.procBusy e.1 e.2 || e.2.st == .running || e.2.st == .ready || e.2.packet.isSome))
    || (s.cores.any fun c => c.2.sb.any fun e => e.ctx == ctx)
    || (s.clusters.any fun c => c.2.engine.any fun e => e.ctx == ctx)
    || (s.pipes.any fun q => q.2.any fun t => t.ctx == ctx)
    || (s.dies.any fun d => (d.2.out.any fun m => m.2.ctx == ctx) || (d.2.servers.any fun q => q.2.any fun r => r.ctx == ctx)
      || (d.2.commits.any fun c => mine c.frag) || (d.2.invals.any fun i => i.ctx == ctx)
      || d.2.migrs.any fun m => m.ctx == ctx)
    || (s.tiles.any fun t => t.ctx == ctx) || (s.gpackets.any fun k => k.ctx == ctx)
    || (s.chanIn.any fun w => w.ctx == ctx) || (s.notices.any fun w => w.ctx == ctx)
    || (s.responses.any fun r => mine r.2.frag) || (s.wire.any mine)
    || (s.gArrive.any fun x => x.1 == ctx) || (s.gDone.any fun x => x.1 == ctx) || (s.gContrib.any fun x => x.1 == ctx)
    || (s.kicks.any fun x => x.2 == ctx) || (s.rmacks.any fun x => x.2.1 == ctx)
    || s.dies.any fun d => d.2.heldAcks.any fun a => a.1 == ctx

/-- What the context held returns to firmware (R184): its processes, translations, frames, waits, and news under way. Records
that its CLOSED queues still hold leave them in order (R195, R202). -/
def State.releaseCtx (s : State) (ctx : Nat) : State :=
  { s with
    gArrive := s.gArrive.filter fun x => x.1 != ctx, gDone := s.gDone.filter fun x => x.1 != ctx
    gContrib := s.gContrib.filter fun x => x.1 != ctx
    kicks := s.kicks.filter fun x => x.2 != ctx, rmacks := s.rmacks.filter fun x => x.2.1 != ctx
    flags := s.flags.filter fun f => f.ctx != ctx, flagSrcs := s.flagSrcs.filter fun f => f.ctx != ctx
    procs := s.procs.filter fun e => e.2.ctx != ctx
    ctxs := tblErase s.ctxs ctx
    dies := s.dies.map fun (d : Nat × Die) => (d.1,
      { d.2 with tlb := d.2.tlb.filter fun t => t.ctx != ctx, misses := d.2.misses.filter fun m => m.ctx != ctx,
                 fbuf := d.2.fbuf.filter fun f => f.2.ctx != ctx, drop := tblErase d.2.drop ctx,
                 frames := d.2.frames.filter fun f => f.2 != ctx + 1,
                 msUsed := tblErase d.2.msUsed ctx, lkUsed := tblErase d.2.lkUsed ctx,
                 windows := d.2.windows.filter fun w => w.1 != ctx,
                 heldAcks := d.2.heldAcks.filter fun w => w.1 != ctx })
    cores := s.cores.map fun (c : Nat × Core) => (c.1,
      { c.2 with share := tblErase c.2.share ctx, watch := tblErase c.2.watch ctx,
                 deque := c.2.deque.filter fun t => t.ctx != ctx, records := c.2.records.filter fun r => r.1.ctx != ctx,
                 recFlight := if c.2.records.head?.any fun r => r.1.ctx == ctx then 0 else c.2.recFlight,
                 bars := c.2.bars.map fun b => if b.2.owner == ctx && b.2.state != 0 then
                   (b.1, { b.2 with state := 0, owner := 0, count := 0, gv := false }) else b }) }

/-- CONTEXT_DRAIN_END (R180, R184): the last outstanding operation of a draining context has ended. -/
def execContextDrainEnd (ctx : Nat) (s : State) : Host.Outcome State Fault Refusal :=
  .next (if (s.ctx ctx).st == .draining && !s.ctxBusy ctx then s.releaseCtx ctx else s)

end Sys2Proof.Machine
end

