-- ==== Sys2Proof/Machine/Deadlock.lean ====
section
/-! DEFINITION. Deadlock detection (R257 to R259): what makes a die quiet, the token's visits, the report. -/

namespace Sys2Proof.Machine

/-- The channel is bound to kind 001 or 010. -/
def State.procChan (s : State) (ctx : Nat) (h : Word) : Bool :=
  let k := (s.chan ctx (hIndex h)).kind
  k == 1 || k == 2

/-- The tile operation whose status register is `r`, not yet matched: its handle and its code of R259. A SENDT that has been
delivered to an end on another module waits there until its notice comes. (DEDUCED, log entry 50; safe.) -/
def State.unmatchedTile (s : State) (pid : Nat) (p : Proc) (r : RName) : Option (Word × Nat) :=
  match p.ops.find? fun o => o.2.dest == some r && o.2.kind == .other && hType o.2.ea == 2 with
  | none => none
  | some (tok, o) =>
    let e := s.chanEnd p.ctx (hIndex o.ea)
    if e.sends.any fun m => m.pid == pid && m.ticket == tok then some (o.ea, 5)
    else if e.rcvs.any fun q => q.pid == pid && q.ticket == tok then some (o.ea, 6)
    else if s.procChan p.ctx o.ea && !hEnd o.ea && (s.endPlace p.ctx (hIndex o.ea)).1 != s.devId
        && s.dies.all fun d => d.2.out.all fun m => m.2.body.all fun w => w.msg.ticket != tok then some (o.ea, 5)
    else none

/-- The handle and code of R259 for a process parked as R257 allows; none for any other park. -/
def State.deadWait (s : State) (pid : Nat) (p : Proc) : Option (Word × Nat) :=
  match p.st with
  | .parked .channel _ _ =>
    match p.waitsOn with
    | some (h, c) => if s.procChan p.ctx h then some (h, c) else none
    | none => none
  | .parked .alt _ _ =>
    let gs := p.alt.getD []
    let ok (g : Guard) : Bool :=
      match g with
      | .recv h | .send h => s.procChan p.ctx h
      | _ => false
    if gs.all ok then p.waitsOn.map fun w => (w.1, 7 + 256 * gs.length) else none
  | .parked .fullBit (.full rs) _ | .parked .fullBit (.landed rs) _ =>
    match (rs.filter fun r => !p.full r).map (s.unmatchedTile pid p) with
    | [] => none
    | x :: t => if t.all Option.isSome then x else none
  | _ => none

/-- The process does not keep its die from being quiet (R257). -/
def State.procQuiet (s : State) (pid : Nat) (p : Proc) : Bool :=
  match p.st with
  | .stopped | .faulted => p.halt.isNone
  | .parked _ _ _ => p.halt.isNone && (s.deadWait pid p).isSome
  | _ => false

/-- The die is quiet for the context (R257). -/
def State.dieQuiet (s : State) (ctx die : Nat) : Bool :=
  let mine (c : Nat) : Bool := coreDie c == die
  (s.procs.all fun e => e.2.ctx != ctx || !mine e.2.core || (s.procQuiet e.1 e.2 && e.2.packet.isNone))
    && (s.clusters.all fun c => c.1 / 16 != die || c.2.engine.all fun e => e.ctx != ctx)
    && ((s.die die).servers.all fun q => q.2.all fun r => r.ctx != ctx)
    && ((s.die die).out.all fun m => m.2.ctx != ctx || !(m.2.kind == 0 || m.2.kind == 1 || m.2.kind == 2 || m.2.kind == 4))
    && (s.tiles.all fun t => t.ctx != ctx || !([s.endDie ctx t.chan] ++ ((t.from_.toList.map (·.1)) ++ t.to_.toList.map (·.1)).filterMap
      fun pid => (s.proc pid).map fun p => coreDie p.core).contains die)
    && !nsHas (s.ctx ctx).dirty die

/-- The first live core of a die. -/
def State.firstCore (s : State) (die : Nat) : Nat :=
  ((List.range 256).find? fun i => (s.core (256 * die + i)).live).elim (256 * die) (256 * die + ·)

/-- Insertion by rising rank. -/
def insertRank (r : FRec) : List FRec → List FRec
  | [] => [r]
  | x :: t => if r.rank < x.rank then r :: x :: t else x :: insertRank r t

/-- The records of this module's parked processes (R259). -/
def State.parkedHere (s : State) (ctx : Nat) : List FRec :=
  s.procs.filterMap fun (e : Nat × Proc) =>
    if e.2.ctx != ctx then none
    else (s.deadWait e.1 e.2).map fun w =>
      ({ rank := e.2.rank, core := e.2.core, ctx := ctx, code := 35, info := w.1.toNat, epc := e.2.pc,
         faddr := BitVec.ofNat 64 (w.2 / 256 * 256 + w.2 % 256) } : FRec)

/-- The records of a deadlock report (R259), with those that the token has brought from the context's other modules.
(DEDUCED, log entry 50; safe.) -/
def State.deadlockReport (s : State) (ctx : Nat) : List FRec :=
  let die := s.liveDies.headD 0
  let ps := (s.parkedHere ctx ++ (s.ctx ctx).token.recs).foldr insertRank []
  { rank := 0, core := s.firstCore die, ctx := ctx, context := true, code := 35, info := ps.length,
    epc := BitVec.ofNat 64 ((s.ctx ctx).reports + 1) } :: ps

/-- The token is back at the first die of the order: a clean round is reported once (R258). -/
def State.endRound (s : State) (ctx : Nat) : State :=
  let c := s.ctx ctx
  let die := s.liveDies.headD 0
  let report := c.token.clean && c.token.sent == c.token.delivered && c.armed
  let s := if report then (s.deadlockReport ctx).foldl (fun s r => s.holdRecord (s.firstCore die) r) s else s
  s.modCtx ctx fun c =>
    { c with token := { c.token with die := die, moving := false, away := false, clean := true, recs := [] }, armed := c.armed && !report,
             reports := if report then c.reports + 1 else c.reports }

/-- This device is the first of the token's order. -/
def State.firstDevice (s : State) (ctx : Nat) : Bool := (s.ctx ctx).peers.all fun d => s.devId ≤ d

/-- The device that the token visits after this one (R258). -/
def State.nextDevice (s : State) (ctx : Nat) : Nat :=
  let ps := (s.ctx ctx).peers
  let up := ps.filter (s.devId < ·)
  if up.isEmpty then ps.foldl min s.devId else up.foldl min (up.headD 0)

/-- DEADLOCK_TOKEN_VISIT (R258): the token samples a live die, takes its counts, clears its dirty bit and leaves, as a message
of KIND 9, for the next live die, for the next device, or for the first die of the order. It pauses while the context is
SUSPENDED. -/
def execDeadlockTokenVisit (ctx : Nat) (s : State) : Host.Outcome State Fault Refusal :=
  let c := s.ctx ctx
  if c.token.moving || c.token.away || c.token.lost || !(c.st == .running || c.st == .bound) then .next s
  else match s.liveDies.find? fun d => c.token.die ≤ d with
    | none => .next s
    | some d =>
      let quiet := s.dieQuiet ctx d
      let t := c.token
      let t := { t with sent := t.sent + tblGetD c.sent d 0, delivered := t.delivered + tblGetD c.delivered d 0,
                        clean := t.clean && quiet, die := d + 1,
                        left := if s.liveDies.head? = some d then (s.die d).cycle else t.left }
      let s := s.modCtx ctx fun c =>
        { c with token := t, armed := c.armed || nsHas c.dirty d, dirty := nsDel c.dirty d,
                 sent := tblErase c.sent d, delivered := tblErase c.delivered d }
      let go (x : Nat) : State :=
        (s.modCtx ctx fun c => { c with token := { c.token with moving := true } }).sendTokenFrom d ctx s.devId x [3]
      .next (match s.liveDies.find? (d < ·) with
        | some x => go x
        | none =>
          if c.peers.isEmpty then (if s.liveDies.headD d = d then s.endRound ctx else go (s.liveDies.headD d))
          else
            let recs := if s.firstDevice ctx then [] else t.recs ++ s.parkedHere ctx
            (s.modCtx ctx fun c => { c with token := { c.token with away := true, recs := recs } }).sendTokenFrom d ctx (s.nextDevice ctx) 0
              ([4, t.sent, t.delivered, if t.clean then 1 else 0] ++ recs.flatMap fun r => r.words.map BitVec.toNat))

/-- The token arrives at the die for which it left; back at the first die, with no other device to visit, the round ends (R258). -/
def State.tokenHere (s : State) (ctx : Nat) : State :=
  let c := s.ctx ctx
  if !c.token.moving then s
  else
    let s := s.modCtx ctx fun c => { c with token := { c.token with moving := false } }
    if (s.liveDies.any fun x => c.token.die ≤ x) || !c.peers.isEmpty then s else s.endRound ctx

/-- The fault records in a token's record, four words each. -/
def recsOf : List Nat → List FRec
  | a :: b :: c :: d :: t => FRec.ofWords [a, b, c, d] :: recsOf t
  | _ => []

/-- The token comes back from another device, with the records of the processes parked there; a die there that was not clean
has been dirty since its last report (R258). (DEDUCED, log entry 50; safe.) -/
def State.tokenBack (s : State) (ctx sent delivered : Nat) (clean : Bool) (recs : List FRec) : State :=
  if !(s.ctx ctx).token.away then s
  else
    let s := s.modCtx ctx fun c =>
      { c with token := { c.token with away := false, lost := false, die := 0, sent := sent, delivered := delivered, clean := clean, recs := recs },
               armed := c.armed || (c.token.clean && !clean) }
    if s.firstDevice ctx then s.endRound ctx else s

/-- TOKEN_REISSUE (R258): the first die reissues a token that a link has lost, 2^20 die cycles after it left. -/
def execTokenReissue (ctx : Nat) (s : State) : Host.Outcome State Fault Refusal :=
  let c := s.ctx ctx
  match s.liveDies with
  | [] => .next s
  | d :: _ =>
    .next (if c.token.lost && s.firstDevice ctx && c.token.left + 2 ^ 20 ≤ (s.die d).cycle then
        s.modCtx ctx fun c => { c with token := { c.token with lost := false, moving := false, away := false, die := d, clean := false } }
      else s)

end Sys2Proof.Machine
end

