-- ==== Sys2Proof/Machine/Server.lean ====
section
/-! DEFINITION. Memory servers (R154, R252, R253): MSRQ, and the events that take a request and carry it out. -/

namespace Sys2Proof.Machine

/-- The fields of a request record (R252). -/
def MsReq.word (r : MsReq) (i : Nat) : Word := r.words.getD i 0
def MsReq.op (r : MsReq) : Nat := ((r.word 0).extractLsb' 60 4).toNat
def MsReq.ty (r : MsReq) : Nat := ((r.word 0).extractLsb' 56 4).toNat
def MsReq.aop (r : MsReq) : Nat := ((r.word 0).extractLsb' 52 4).toNat
def MsReq.count (r : MsReq) : Nat := ((r.word 0).extractLsb' 0 40).toNat
def MsReq.gaddr (r : MsReq) : Nat := (r.word 1).toNat
def MsReq.lsp (r : MsReq) : Bool := (r.word 2).getLsbD 63
def MsReq.loff (r : MsReq) : Nat := ((r.word 2).extractLsb' 0 23).toNat
def MsReq.reply (r : MsReq) : Word := r.word 3

/-- Types that an atomic request accepts for its operation (R144). -/
def serverAtomicTy (op ty : Nat) : Bool :=
  if op = 8 then ty == 8 || ty == 9 else op < 8 && (ty == 0 || ty == 1 || ty == 4 || ty == 5)

/-- OP, TY, AOP and the reserved fields are accepted (R253 step 1). -/
def MsReq.opOk (r : MsReq) : Bool :=
  (r.word 0).extractLsb' 40 12 == 0 && (r.word 2).extractLsb' 23 40 == 0 &&
  (match r.op with
    | 0 | 1 => r.ty == 0 && r.aop == 0
    | 2 => decide (r.ty < 4) && r.aop == 0
    | 3 => serverAtomicTy r.aop r.ty
    | _ => false)

/-- COUNT is in its range (R252). -/
def MsReq.countOk (r : MsReq) : Bool :=
  match r.op with
  | 0 | 1 => 8 ≤ r.count && r.count ≤ 65536 && r.count % 8 == 0
  | 2 => 1 ≤ r.count && r.count ≤ 8192
  | _ => r.count == 0

/-- Element size of a gather or atomic. -/
def MsReq.elt (r : MsReq) : Nat := tyBytes r.ty

/-- Where the elements of a gather are written (R253). -/
def MsReq.gatherAt (r : MsReq) : Nat := r.loff + 8 * ((4 * r.count + 7) / 8)

/-- The end of the local range. -/
def MsReq.localEnd (r : MsReq) : Nat :=
  match r.op with
  | 0 | 1 => r.loff + r.count
  | 2 => r.gatherAt + r.elt * r.count
  | _ => r.loff + (if r.aop = 7 then 16 else 8)

/-- Bytes of the global range at GADDR. -/
def MsReq.span (r : MsReq) : Nat := if r.op < 2 then r.count else r.elt

/-- An address is owned by another device or die than the server's (R253). -/
def State.serverForeign (s : State) (die ctx va : Nat) : Bool :=
  va / 2 ^ 43 != s.devId || (s.ctx ctx).mapDie (va / 2 ^ 40 % 8) != die

/-- The checks of R253 in order: the cause of the first that fails, else 0. -/
def State.serverCheck (s : State) (die : Nat) (r : MsReq) : Nat :=
  let c := s.ctx r.ctx
  if !r.opOk then 2
  else if !r.countOk then 14
  else if r.gaddr % (if r.op < 2 then 8 else r.elt) != 0 || r.loff % 8 != 0 then 16
  else if (if r.lsp then c.slen else c.tlen) < r.localEnd then 17
  else if s.serverForeign die r.ctx r.gaddr then 18
  else if (r.gaddr + r.span - 1) / 2 ^ 40 != r.gaddr / 2 ^ 40 then 19
  else if scratchOff ≤ r.gaddr % 2 ^ 40 then 22
  else if r.reply = 0 then 0
  else (s.hcheck r.ctx r.rank r.reply false [0] [1, 2]).getD 0

/-- MSRQ (R154): where the server's queue is full the process waits until the server accepts its request. To a server of another
die the request crosses the links, and the process waits in the same way (R412). (DEDUCED, log entry 29; safe.) -/
def execMsrq (x : Args) (s : State) : Host.Outcome State Fault Refusal :=
  perform eMsrq x s fun e =>
    match e.s0.hcheck e.p.ctx e.p.rank e.a false [0] [3] with
    | some c => e.trap c
    | none =>
      let t := (e.s0.chan e.p.ctx (hIndex e.a)).target
      let die := t / 256 % 8
      let ar := e.areg e.x.b
      e.access ar ar.ptr 32 spLocal pRD 8 { rd := true } fun ps =>
        e.loadBytes ps fun bs =>
          let i := hIndex e.a
          let k := e.s0.seq
          let r : MsReq :=
            { pid := e.pid, ctx := e.p.ctx, core := e.p.core, rank := e.p.rank, dest := e.status, ticket := k,
              words := [0, 8, 16, 24].map fun i => BitVec.ofNat 64 (bytesNat ((bs.drop i).take 8)),
              priv := e.p.priv, sb := (e.s0.core e.p.core).sbSeq, toks := e.p.relToks 4 }
          let m : Msg := { ticket := k, pid := e.pid, parts := [bs], req := some r }
          if (e.s0.chan e.p.ctx i).closed then e.trap 30
          else if (e.s0.ctx e.p.ctx).msHard && e.s0.msOut die e.p.ctx then e.trap 53
          else if 65535 ≤ e.p.cCopy then .stall e.s0
          else if e.s0.isFar e.p.ctx i e.p.die then
            .parkNext ({ e.startCopy with seq := k + 1 }.sendFar e.p.ctx e.p.die e.p.rank i 6 m bs) .memoryServer (.chan k)
          else match { e.startCopy with seq := k + 1 }.arriveServer e.p.ctx i m with
            | (s, .accepted) => .next s
            | (s, _) => .parkNext s .memoryServer (.chan k)

/-! ### The servers at work -/

/-- The head of a server's queue replaced. -/
def State.setServer (s : State) (die srv : Nat) (r : MsReq) : State :=
  s.modDie die fun d => { d with servers := tblSet d.servers srv (r :: (tblGetD d.servers srv []).tail) }

/-- What must perform before a request reads its source has performed (R147). -/
def State.serverReady (s : State) (r : MsReq) : Bool :=
  s.sbDone r.core r.sb && (match s.proc r.pid with
    | some p => p.opsDone r.toks && (r.viaSend || !s.tileStoresBefore r.pid r.core r.ticket)
    | none => true)

/-- MEMORY_SERVER_REQUEST_TAKE (R253): the server takes its oldest request and checks it. The requests of a context
whose soft budget is exhausted wait (R379). -/
def execMemoryServerRequestTake (die server : Nat) (s : State) : Host.Outcome State Fault Refusal :=
  match tblGetD (s.die die).servers server [] with
  | [] => .next s
  | r :: _ =>
    if !r.ready || r.taken || (!(s.ctx r.ctx).msHard && s.msOut die r.ctx) || !s.serverReady r then .next s
    else .next (s.setServer die server { r with taken := true, cause := s.serverCheck die r })

/-- What one move of a server comes to. -/
inductive SrvMove where
  | stop (cause : Nat)
  | miss (vas : List Nat) (write : Bool)
  | go (s : State) (bytes : Nat)

/-- A server's access at its die (R253): translated as the copy engine's; die scratch refuses it. It counts in
the quadrant of the core that the request names (R350). -/
def State.serverAt (s : State) (die : Nat) (r : MsReq) (va n : Nat) (need : Need) (k : State → List Piece → SrvMove) : SrvMove :=
  if scratchOff ≤ (va + n - 1) % 2 ^ 40 then .stop 22
  else match s.resolve die r.ctx r.priv need va n with
    | .fault c _ => .stop c
    | .miss vas => .miss vas (need.wr || need.at_)
    | .ok ps => k (s.touch die r.ctx ps r.core) ps

/-- Physical address of a local offset of a request. -/
def State.serverLocal (s : State) (r : MsReq) (o : Nat) : Nat :=
  if r.lsp then s.padAddr r.core r.ctx o else s.localPA r.core r.ctx o

/-- Bytes land at a local address: their words become full (R136). -/
def State.landLocal (s : State) (pa : Nat) (bs : List Byte) : State :=
  (wordsOf pa bs.length).foldl (fun s w => s.setWord w true) (s.write pa bs)

/-- Bytes of a local range, none at an uncorrectable word (R135). -/
def State.localBytes (s : State) (pa n : Nat) : Option (List Byte) :=
  if (s.badWord pa n).isSome then none else some (s.read pa n)

/-- One line of a read or write, one element of a gather, or the atomic (R253). -/
def State.serverMove (s : State) (die : Nat) (r : MsReq) : SrvMove :=
  match r.op with
  | 0 =>
    let va := r.gaddr + r.bytes
    let n := min (64 - va % 64) (r.count - r.bytes)
    s.serverAt die r va n { rd := true } fun s ps =>
      if (s.badPiece ps).isSome then .stop 24
      else .go (s.landLocal (s.serverLocal r (r.loff + r.bytes)) (s.readPieces ps)) n
  | 1 =>
    let va := r.gaddr + r.bytes
    let n := min (64 - va % 64) (r.count - r.bytes)
    s.serverAt die r va n { wr := true } fun s ps =>
      match s.localBytes (s.serverLocal r (r.loff + r.bytes)) n with
      | none => .stop 24
      | some bs => .go (s.dieWrite die ps bs) n
  | 2 =>
    match s.localBytes (s.serverLocal r (r.loff + 4 * r.done)) 4 with
    | none => .stop 24
    | some ib =>
      let va := (r.word 1 + BitVec.ofNat 64 (bytesNat ib * r.elt)).toNat
      if s.serverForeign die r.ctx va then .stop 18
      else if (va + r.elt - 1) / 2 ^ 40 != va / 2 ^ 40 then .stop 19
      else if windowOff ≤ va % 2 ^ 40 then .stop 22
      else s.serverAt die r va r.elt { rd := true } fun s ps =>
        if (s.badPiece ps).isSome then .stop 24
        else .go (s.landLocal (s.serverLocal r (r.gatherAt + r.done * r.elt)) (s.readPieces ps)) r.elt
  | _ =>
    s.serverAt die r r.gaddr r.elt { rd := true, wr := true, at_ := true } fun s ps =>
      let at_ := s.serverLocal r r.loff
      match s.localBytes at_ (if r.aop = 7 then 16 else 8) with
      | none => .stop 24
      | some ops =>
        if (s.badPiece ps).isSome then .stop 24
        else
          let m := 2 ^ tyWidth r.ty
          let old := bytesNat (s.readPieces ps)
          let new := amoNew r.aop r.ty old (bytesNat (ops.take 8) % m) (bytesNat (ops.drop 8) % m)
          let s := s.dieWrite die ps (natBytes r.elt new)
          let s := if logged ps then s.countAtomic r.ctx r.gaddr else s
          .go (s.landLocal at_ (natBytes 8 (loadExt r.ty old).toNat)) 8

/-- Everything of a request has moved. -/
def MsReq.allDone (r : MsReq) : Bool :=
  match r.op with
  | 0 | 1 => r.count ≤ r.bytes
  | 2 => r.count ≤ r.done
  | _ => r.done != 0

/-- A reply is sent on its channel (R253); one that the channel refuses is dropped. -/
def State.serverReply (s : State) (die : Nat) (r : MsReq) : State :=
  if r.reply = 0 || (r.cause != 0 && (s.hcheck r.ctx r.rank r.reply false [0] [1, 2]).isSome) then s
  else
    let m : Msg := { ticket := s.seq, pid := 0, parts := [natBytes 8 (statusWord r.cause r.bytes).toNat] }
    let s : State := { s with seq := s.seq + 1 }
    let i := hIndex r.reply
    if s.isFar r.ctx i die then s.sendFar r.ctx die r.rank i 6 m (m.parts.headD [])
    else (((s.countSent r.ctx die).countDelivered r.ctx die).arrive r.ctx i m).1

/-- A request ends (R253): its status word goes to the D of an MSRQ, and to REPLY. -/
def State.serverEnd (s : State) (die srv : Nat) (r : MsReq) : State :=
  let s := s.modDie die fun d => { d with servers := tblSet d.servers srv (tblGetD d.servers srv []).tail }
  let s := if r.viaSend then s else s.endCopy r.pid r.dest r.cause r.bytes
  ((s.serverReply die r).serveServer die srv 64).recheckAll

/-- Bytes that a memory server moves count against the context's budget (R185, R379). -/
def State.countMs (s : State) (die ctx n : Nat) : State :=
  s.modDie die fun d => { d with msUsed := tblSet d.msUsed ctx (tblGetD d.msUsed ctx 0 + n) }

/-- MEMORY_SERVER_REQUEST_COMPLETE (R253): the request that has been taken moves its next line, element or word, and
ends when all has moved or a cause stops it. A page that is not present stalls it. -/
def execMemoryServerRequestComplete (die server : Nat) (s : State) : Host.Outcome State Fault Refusal :=
  match tblGetD (s.die die).servers server [] with
  | [] => .next s
  | r :: _ =>
    if !r.taken || r.stalled then .next s
    else if r.cause != 0 then .next (s.serverEnd die server r)
    else match s.serverMove die r with
      | .stop c => .next (s.serverEnd die server { r with cause := c })
      | .miss vas w =>
        let q := s.missAll die r.ctx vas w false (.server die server)
        .next (q.2.setServer die server { r with stalled := true, miss := q.1 })
      | .go s n =>
        let r := { r with done := r.done + 1, bytes := r.bytes + n }
        let s := s.countMs die r.ctx n
        .next (if r.allDone then s.serverEnd die server r else s.setServer die server r)

end Sys2Proof.Machine
end

