-- ==== Sys2Proof/Machine/Remote.lean ====
section
/-! DEFINITION. GET, PUT and RAMO (R161 to R166, R170 to R173): issue, what they do at the owner, and how they end. -/

namespace Sys2Proof.Machine

/-! ### Issue checks -/

/-- rcheck (R170). -/
def State.rcheck (s : State) (ctx : Nat) (a : AReg) (ea n : Nat) (perms : BitVec 8) (align : Nat) : Option Nat :=
  if !a.valid || a.space != spRemote then some 15
  else if !a.grants perms then some 15
  else if !a.holds ea n then some 14
  else if ea % align != 0 then some 16
  else if (ea + n - 1) / 2 ^ 40 != ea / 2 ^ 40 then some 19
  else if ea / 2 ^ 43 = s.devId && !s.dieLive ((s.ctx ctx).mapDie (ea / 2 ^ 40 % 8)) then some 20
  else none

/-- The device, die and kind of owner of a remote address, seen from a die (R167, R183). -/
def State.destOf (s : State) (ctx die ea : Nat) : Nat × Nat × Owner :=
  if ea / 2 ^ 43 = s.devId then
    let d := (s.ctx ctx).mapDie (ea / 2 ^ 40 % 8)
    (s.devId, d, if d = die then .die else .device)
  else (ea / 2 ^ 43, ea / 2 ^ 40 % 8, .system)

/-- The message is a PUT, PUT.f or RAMO, which holds an entry of the outbound write buffer (R161). -/
def OutMsg.isEntry (m : OutMsg) : Bool := m.kind == 0 || m.kind == 1 || m.kind == 4

/-- Bytes of memory that the message names. -/
def OutMsg.len (m : OutMsg) : Nat :=
  if m.kind = 1 then 8 else if m.kind = 4 then tyBytes (m.opw % 16) else if m.kind = 2 then m.count else m.payload.length

def OutMsg.overlaps (m : OutMsg) (va n : Nat) : Bool := m.addr.toNat < va + n && va < m.addr.toNat + m.len

/-- Entries in use of a die's outbound write buffer. -/
def Die.entries (d : Die) : Nat := (d.out.filter fun m => m.2.isEntry).length

/-- The checks after rcheck: a live path (R170), the link budget (R185). -/
def Env.toOwner (e : Env) (ea : Word) (pmask : Nat) (go : Nat → Nat → Owner → Act) : Act :=
  let d := e.s0.destOf e.p.ctx e.p.die ea.toNat
  if d.2.2 != .die && (e.s0.effective e.p.die d.1 d.2.1 pmask).isEmpty then e.trap 49 0 ea
  else if d.2.2 != .die && (e.s0.ctx e.p.ctx).lkHard && e.s0.lkOut e.p.die e.p.ctx then e.trap 53 0 ea
  else go d.1 d.2.1 d.2.2

/-- PMASK of a path register (R170). -/
def pmaskOf (c : Word) : Nat := (c.extractLsb' 48 16).toNat

/-! ### How an operation ends -/

/-- CR.CAUSE.INFO of a delayed fault of a remote operation (R166). -/
def opInfo (k : OpKind) (block : Bool) (info : Nat) : Nat :=
  info + (match k with
    | .get => 0
    | .put => 0x100
    | .ramo => 0x200
    | .other => 0x300) + (if block then 0x400 else 0)

/-- The counter of the operation falls (R139, R171 to R173). -/
def Proc.lower (p : Proc) : OpKind → Proc
  | .put => { p with cStore := p.cStore - 1 }
  | _ => { p with cLoad := p.cLoad - 1 }

/-- The failure with the lowest offset: offset, and cause with its owner-side cause above. -/
def lowestFail : List (Nat × Nat) → Option (Nat × Nat)
  | [] => none
  | f :: t =>
    match lowestFail t with
    | some g => if g.1 < f.1 then some g else some f
    | none => some f

/-- A message of an operation has ended, with a cause and the owner-side cause where it failed; the last one ends the
operation (R166, R171, R172, R173). An order-sensitive one that diverges, or finds the log full, leaves its destination as it was
(R190, R191). (DEDUCED, log entry 41; unsafe.) -/
def State.finishOp (s : State) (pid tok off cause info : Nat) (value : Word) : State :=
  match (s.proc pid).bind fun p => tblGet p.ops tok with
  | none => s
  | some o =>
    let o : Op := { o with left := o.left - 1, fails := if cause = 0 then o.fails else (off, cause + 64 * info) :: o.fails }
    if o.left != 0 then s.modProc pid fun p => { p with ops := tblSet p.ops tok o }
    else
      let s := s.modProc pid fun p => { p.lower o.kind with ops := tblErase p.ops tok }
      if o.precise then
        match o.fails with
        | [] => (s.modProc pid fun p => { p with wakeVal := some value }).wake pid
        | (_, c) :: _ =>
          let s := { s with forks := s.forks.filter fun f => f.pid != pid }
          if c % 64 = 54 then (s.modProc pid fun p => { p with phase := 0 }).wake pid
          else if c % 64 = 55 then s.wakeWith pid { cause := 55 }
          else s.wakeWith pid { cause := 45, info := opInfo o.kind false (c / 64), faddr := o.ea }
      else match lowestFail o.fails with
      | none =>
        if o.block then (s.landReg pid o.dest (statusWord 0 o.count)).recheck pid
        else (s.landReg pid o.dest value).recheck pid
      | some (at_, c) =>
        let s := if c = 54 || c = 55 then
            let s := match s.proc pid, o.dest with
              | some p, some r => s.landReg pid o.dest (p.reg r)
              | _, _ => s
            if c = 55 then s.recordDelayed pid { cause := 55, faddr := o.ea } else s
          else if o.block && o.dest.isSome then s.landReg pid o.dest (statusWord (c % 64) at_)
          else (s.landReg pid o.dest 0).recordDelayed pid
            { cause := c % 64, info := opInfo o.kind o.block (c / 64), faddr := o.ea + BitVec.ofNat 64 at_ }
        s.recheck pid

/-- How an owner-side cause reaches the process (R166): the delayed fault and its INFO. Divergence and a full log are the
process's own (R190, R191). -/
def ownerCause (kind cause : Nat) : Nat × Nat :=
  if cause = 24 && kind = 2 then (24, 0)
  else if cause = 54 || cause = 55 then (cause, 0)
  else (if kind = 4 then 45 else 46, cause)

/-! ### Ordered flags (R164) -/

/-- The source of an ordered flag at this device, by device, context here and rank. -/
def State.flagSrc (s : State) (sdev ctx rank : Nat) : FlagSrc :=
  (s.flagSrcs.find? fun f => f.sdev == sdev && f.ctx == ctx && f.rank == rank).getD
    { sdev := sdev, ctx := ctx, rank := rank }

def State.setFlagSrc (s : State) (f : FlagSrc) : State :=
  { s with flagSrcs := f :: s.flagSrcs.filter fun g => !(g.sdev == f.sdev && g.ctx == f.ctx && g.rank == f.rank) }

/-- The flag of the interval has performed or been cancelled. -/
def FlagSrc.past (f : FlagSrc) (n : Nat) : Bool :=
  f.cancelled.contains n || 2 ^ 15 ≤ (n + 2 ^ 16 - f.next) % 2 ^ 16

def FlagIv.of (i : FlagIv) (sdev ctx rank fseq : Nat) : Bool :=
  i.sdev == sdev && i.ctx == ctx && i.rank == rank && i.fseq == fseq

/-- An interval at this device changes. -/
def State.modFlag (s : State) (sdev sdie ctx rank fseq : Nat) (f : FlagIv → FlagIv) : State :=
  if s.flags.any fun i => i.of sdev ctx rank fseq then
    { s with flags := s.flags.map fun i => if i.of sdev ctx rank fseq then f i else i }
  else { s with flags := s.flags ++ [f { sdev := sdev, sdie := sdie, ctx := ctx, rank := rank, fseq := fseq }] }

/-- A PUT of an interval has performed: it is counted, unless the interval's flag has performed or been cancelled. -/
def State.countPut (s : State) (sdev sdie ctx rank fseq lead : Nat) : State :=
  if (s.flagSrc sdev ctx rank).past fseq then s
  else s.modFlag sdev sdie ctx rank fseq fun i => { i with counts := tblSet i.counts lead (tblGetD i.counts lead 0 + 1) }

/-- The next interval moves past one that has performed, and past those cancelled, at most `fuel` of them. -/
def FlagSrc.step (f : FlagSrc) : Nat → FlagSrc
  | 0 => f
  | fuel + 1 =>
    if f.cancelled.contains f.next then
      ({ f with next := (f.next + 1) % 2 ^ 16, cancelled := f.cancelled.filter (· != f.next) } : FlagSrc).step fuel
    else f

/-- An interval is over: its counts are discarded. -/
def State.closeFlag (s : State) (sdev ctx rank fseq : Nat) : State :=
  let f := s.flagSrc sdev ctx rank
  let s := { s with flags := s.flags.filter fun i => !i.of sdev ctx rank fseq }
  s.setFlagSrc (({ f with cancelled := fseq :: f.cancelled.filter (· != fseq) } : FlagSrc).step 17)

/-- A cancel reaches the destination (R164 step 5): a flag that has not performed is discarded, with its counts. -/
def State.cancelAt (s : State) (sdev ctx rank fseq : Nat) : State :=
  if (s.flagSrc sdev ctx rank).past fseq then s
  else
    let s := match s.flags.find? fun i => i.of sdev ctx rank fseq with
      | some { flag := some (die, some slot, _, _), .. } =>
        s.modDie die fun d =>
          { d with commits := d.commits.filter fun c => c.slot != slot,
                   dslots := tblMod d.dslots slot fun x => { x with st := 0 } }
      | _ => s
    s.closeFlag sdev ctx rank fseq

/-- The handle tag of a context. -/
def State.tagOf (s : State) (ctx : Nat) : Nat := (s.ctx ctx).tag

/-- The PUT.f of an interval is cancelled at its source: a cancel travels and the PUT.f ends with fault 42 (R164). -/
def State.cancelFlag (s : State) (die key : Nat) (m : OutMsg) : State :=
  let s := s.modDie die fun d => { d with out := tblErase d.out key }
  let s := if m.ddev = s.devId && m.ddie = die then s.cancelAt s.devId m.ctx m.rank m.fseq
    else if m.ddev = s.devId || m.st != .queued then
      s.control { kind := 16, sdev := s.devId, sdie := die, ddev := m.ddev, ddie := m.ddie, msgid := m.msgid,
                  epoch := m.epoch, body := [s.tagOf m.ctx, m.rank, m.fseq, m.ctx], qp := m.qp }
    else s
  let s := s.modProc m.pid fun p => { p with flagsOut := tblSet p.flagsOut m.ddev (tblGetD p.flagsOut m.ddev 0 - 1) }
  s.finishOp m.pid m.tok 0 42 0 0

/-- A PUT to a device has ended by a fault: the flag of its interval is cancelled, or will be when it issues, whichever
delayed fault it is. (DEDUCED, log entry 68; unsafe.) -/
def State.spoilFlag (s : State) (die : Nat) (m : OutMsg) : State :=
  match (s.die die).out.find? fun o => o.2.kind == 1 && o.2.pid == m.pid && o.2.ddev == m.ddev && o.2.fseq == m.fseq with
  | some (k, o) => s.cancelFlag die k o
  | none => s.modProc m.pid fun p =>
      if tblGetD p.fseq m.ddev 0 = m.fseq then { p with spoiled := nsAdd p.spoiled m.ddev } else p

/-! ### The end of a message at its source (R372, R373) -/

/-- A channel message is lost on a link (R249, R263): neither accepted nor delivered. The send completes, with a
delayed fault or in its status word; the place of its packet becomes free. Its other messages (R368) leave with it. -/
def State.lostChannel (s : State) (die : Nat) (m : OutMsg) (cause : Nat) : State :=
  match m.body with
  | none => s
  | some w =>
    let s := s.modDie die fun d =>
      { d with out := d.out.filter fun o => !(m.parts != 1 && o.2.unit == m.unit && (o.2.kind == 6 || o.2.kind == 7)) }
    match w.msg.tile, w.msg.req with
    | some t, _ => s.endTile w.msg.pid t.tok cause 0
    | none, some r => (s.endCopy r.pid r.dest cause 0).wakeChan r.pid w.msg.ticket
    | none, none =>
      if w.msg.drop then s else
      let s := s.recordFate w.msg.ticket cause
      let s := (s.fate w.ctx w.chan { w.msg with link := none } 0 0).recordDelayed w.msg.pid { cause := cause, info := 0x300 }
      let e := s.chanEnd w.ctx w.chan
      let opened (x : Msg) : Bool := x.ticket == w.msg.ticket && !x.closed
      if (e.held.any opened) || (e.matched.any fun x => opened x.1) then s.dropPlace w.ctx w.chan w.msg.ticket else s

/-- Bytes at the start of a GET.blk's destination that have landed (R171). -/
def OutMsg.prefix_ (m : OutMsg) : Nat := 8 * ((List.range (m.early.length + 1)).find? fun i => !m.early.contains i).getD 0

/-- A link has lost the message that carries the deadlock token (R258). -/
def State.tokenLost (s : State) (ctx : Nat) : State :=
  s.modCtx ctx fun c =>
    { c with token := if c.token.moving || c.token.away then { c.token with moving := false, lost := true } else c.token }

/-- A message ends (R373): with cause 0 it has performed or been delivered; `info` is the owner-side cause. A GET.blk that fails
has written a prefix of its block (R171). -/
def State.endMsg (s : State) (die key : Nat) (cause info : Nat) (value : Word := 0) : State :=
  match tblGet (s.die die).out key with
  | none => s
  | some m =>
    let s := s.modDie die fun d => { d with out := tblErase d.out key }
    match m.kind with
    | 0 =>
      let s := s.finishOp m.pid m.tok m.off cause info 0
      if cause = 0 then s else s.spoilFlag die m
    | 1 =>
      let s := s.modProc m.pid fun p => { p with flagsOut := tblSet p.flagsOut m.ddev (tblGetD p.flagsOut m.ddev 0 - 1) }
      s.finishOp m.pid m.tok 0 cause info 0
    | 2 | 4 => s.finishOp m.pid m.tok (if m.dst.isSome then m.prefix_ else m.off) cause info value
    | 6 | 7 => if cause = 0 then s else s.lostChannel die m cause
    | 8 => s.copyEnded m.tok m.ddev m.ddie cause
    | 9 => if cause = 0 || m.body.all fun w => w.token.headD 0 < 3 then s else s.tokenLost m.ctx
    | _ => s

/-! ### Issue -/

/-- A remote operation begins: its token, the counter that rises, the destination that becomes pending. -/
def Env.beginOp (e : Env) (o : Op) : Nat × State :=
  let k := e.s0.seq
  let s := e.upd fun p =>
    let p := match o.dest with
      | some r => p.pend r
      | none => p
    let p := if o.kind == .put then { p with cStore := p.cStore + 1 } else { p with cLoad := p.cLoad + 1 }
    { p with ops := tblSet p.ops k o }
  (k, { s with seq := k + 1 })

/-- Lead path of a PUT and the rotor after it (R164). (DEDUCED, log entry 33; safe.) -/
def putLead (owner : Owner) (e : List Nat) (rotor : Nat) : Nat × Nat :=
  if owner == .die then (0, rotor) else (nextPath e rotor, nextPath e rotor)

/-- One PUT message takes its lead path, its count and its entry (R164, R172). (DEDUCED, log entry 33; safe.) -/
def State.putMsg (s : State) (die pid : Nat) (owner : Owner) (m : OutMsg) : State :=
  match s.proc pid with
  | none => s
  | some p =>
    let l := putLead owner (s.effective die m.ddev m.ddie m.pmask) p.pathRotor
    let key := 16 * m.ddev + l.1
    let counts := (List.range 16).map fun i => tblGetD p.putCount (16 * m.ddev + i) 0
    let n := tblGetD p.fseq m.ddev 0
    let flag := m.kind == 1
    let m : OutMsg := { m with lead := l.1, fseq := n, counts := if flag then counts else [],
                               payload := if flag then m.payload ++ counts.flatMap (natBytes 4) else m.payload }
    let s := s.modProc pid fun p =>
      if flag then
        { p with pathRotor := l.2, fseq := tblSet p.fseq m.ddev ((n + 1) % 2 ^ 16),
                 putCount := (List.range 16).foldl (fun t i => tblErase t (16 * m.ddev + i)) p.putCount,
                 flagsOut := tblSet p.flagsOut m.ddev (tblGetD p.flagsOut m.ddev 0 + 1) }
      else { p with pathRotor := l.2, putCount := tblSet p.putCount key (tblGetD p.putCount key 0 + 1) }
    let r := s.outbound die m
    if flag && nsHas p.spoiled m.ddev then
      (r.2.modProc pid fun p => { p with spoiled := nsDel p.spoiled m.ddev }).cancelFlag die r.1 m
    else r.2

/-- The lead paths that `n` messages in turn take from a rotor (R164). -/
def leadsOf (owner : Owner) (e : List Nat) (rotor : Nat) : Nat → List Nat
  | 0 => []
  | n + 1 => (putLead owner e rotor).1 :: leadsOf owner e (putLead owner e rotor).2 n

/-- A PUT of `n` messages may not issue yet (R139, R161, R164): the buffer has no room, the count of a lead path that it
takes would pass its width, or sixteen flags are out. -/
def Env.putWaits (e : Env) (dev die : Nat) (owner : Owner) (n : Nat) (flag : Bool) : Bool :=
  let leads := leadsOf owner (e.s0.effective e.p.die dev die (pmaskOf e.c)) e.p.pathRotor n
  2048 < (e.s0.die e.p.die).entries + n || 65535 ≤ e.p.cStore
    || (if flag then decide (16 ≤ tblGetD e.p.flagsOut dev 0)
        else leads.any fun i => 2 ^ 32 - 1 < tblGetD e.p.putCount (16 * dev + i) 0 + leads.count i)

/-- PUT (R172). -/
def execPut (x : Args) (s : State) : Host.Outcome State Fault Refusal :=
  perform ePut x s fun e =>
    let t := tyN e.x
    let n := tyBytes t
    let a := e.areg e.x.a
    let ea := a.ptr + offsetExt e.x
    match e.s0.rcheck e.p.ctx a ea.toNat n pWR n with
    | some c => e.trap c 0 ea
    | none => e.toOwner ea (pmaskOf e.c) fun dev die owner =>
        let flag := mN e.x % 4 == 2
        if e.putWaits dev die owner 1 flag then .stall e.s0
        else
          let r := e.beginOp { kind := .put, owner := owner, ea := ea, left := 1 }
          .next (r.2.putMsg e.p.die e.pid owner
            { kind := if flag then 1 else 0, pid := e.pid, ctx := e.p.ctx, rank := e.p.rank, tok := r.1, ddev := dev,
              ddie := die, pmask := pmaskOf e.c, addr := ea, opw := t + 16 * (mN e.x % 4), payload := lowBytes n e.b,
              priv := e.p.priv })

/-- The count of a block form (R171): the fault where it is refused. -/
def blockCount (c : Word) : Nat := (c.extractLsb' 0 32).toNat
def blockCountBad (c : Word) : Option Nat :=
  if 65536 < blockCount c then some 14 else if blockCount c % 8 != 0 then some 16 else none

/-- The local operand of a block form, checked under R126 (R170). -/
def Env.blockLocal (e : Env) (a : AReg) (n : Nat) (perms : BitVec 8) (need : Need) (go : List Piece → Act) : Act :=
  if a.valid && a.space == spRemote then e.trap 15 0 a.ptr
  else e.access a a.ptr n a.space perms 8 need go

/-- PUT.blk (R172): the source is read once every earlier store of the process has performed.
(DEDUCED, log entry 25; unsafe.) -/
def execPutBlk (x : Args) (s : State) : Host.Outcome State Fault Refusal :=
  perform ePut x s fun e =>
    let a := e.areg e.x.a
    let ea := a.ptr + offsetExt e.x
    let n := blockCount e.c
    match blockCountBad e.c with
    | some c => e.trap c 0 ea
    | none =>
      if n = 0 then e.ret 0
      else match e.s0.rcheck e.p.ctx a ea.toNat n pWR 8 with
        | some c => e.trap c 0 ea
        | none => e.blockLocal (e.areg e.x.b) n (pEN ||| pRD) { rd := true } fun ps =>
            e.toOwner ea (pmaskOf e.c) fun dev die owner =>
              let size := e.s0.unitSize e.p.die dev
              let offs := unitOffsets n size
              let mark := e.p.sbMark.getD (e.s0.core e.p.core).sbSeq
              if !e.s0.sbDone e.p.core mark || e.s0.tileStoresBefore e.pid e.p.core e.s0.seq then
                .stall (e.s0.modProc e.pid fun p => { p with sbMark := some mark })
              else if e.putWaits dev die owner offs.length false then .stall e.s0
              else e.loadBytes ps fun bs =>
                let r := e.beginOp { kind := .put, owner := owner, dest := e.p.name e.x.d.toNat, block := true, ea := ea,
                                     count := n, left := offs.length }
                .next (offs.foldl (fun (s : State) (o : Nat) => s.putMsg e.p.die e.pid owner
                  { kind := 0, pid := e.pid, ctx := e.p.ctx, rank := e.p.rank, tok := r.1, off := o, ddev := dev, ddie := die,
                    pmask := pmaskOf e.c, addr := ea + BitVec.ofNat 64 o, opw := 16 * (mN e.x % 4) + 256,
                    payload := (bs.drop o).take size, priv := e.p.priv, unit := r.1, parts := offs.length }) r.2)

/-- What the outbound write buffer gives a GET (R161). -/
inductive Buffered where
  | send | data (bs : List Byte) | wait
  deriving DecidableEq, Repr

def State.buffered (s : State) (die ctx va n : Nat) : Buffered :=
  let es := (s.die die).out.filter fun m => m.2.isEntry && m.2.ctx == ctx && m.2.overlaps va n
  match es.getLast? with
  | none => .send
  | some (_, m) =>
    if (es.all fun m => m.2.kind == 0 && m.2.opw / 16 % 16 == 0) && m.addr.toNat ≤ va
        && va + n ≤ m.addr.toNat + m.payload.length then .data ((m.payload.drop (va - m.addr.toNat)).take n)
    else .wait

/-- GET (R161, R171). One that once had to wait for overlapping entries takes none of their data afterwards. -/
def execGet (x : Args) (s : State) : Host.Outcome State Fault Refusal :=
  perform eGet x s fun e =>
    let t := tyN e.x
    let n := tyBytes t
    let a := e.areg e.x.a
    let ea := a.ptr + offsetExt e.x
    match e.s0.rcheck e.p.ctx a ea.toNat n pRD n with
    | some c => e.trap c 0 ea
    | none => e.toOwner ea (pmaskOf e.c) fun dev die owner =>
        if 65535 ≤ e.p.cLoad then .stall e.s0
        else match e.s0.buffered e.p.die e.p.ctx ea.toNat n with
          | .wait => .stall (e.s0.modProc e.pid fun p => { p with phase := 1 })
          | .data bs => if e.p.phase = 1 then .stall e.s0 else e.ret (loadExt t (bytesNat bs))
          | .send =>
            let r := e.beginOp { kind := .get, owner := owner, dest := e.p.name e.x.d.toNat, ty := t, ea := ea, left := 1 }
            .next (r.2.outbound e.p.die
              { kind := 2, pid := e.pid, ctx := e.p.ctx, rank := e.p.rank, tok := r.1, ddev := dev, ddie := die,
                pmask := pmaskOf e.c, addr := ea, opw := t, payload := natBytes 8 0, count := n, priv := e.p.priv }).2

/-- GET.blk (R171). -/
def execGetBlk (x : Args) (s : State) : Host.Outcome State Fault Refusal :=
  perform eGet x s fun e =>
    let b := e.areg e.x.b
    let ea := b.ptr + offsetExt e.x
    let n := blockCount e.c
    let dst := e.areg e.x.a
    match blockCountBad e.c with
    | some c => e.trap c 0 ea
    | none =>
      if n = 0 then e.ret 0
      else match e.s0.rcheck e.p.ctx b ea.toNat n pRD 8 with
        | some c => e.trap c 0 ea
        | none => e.blockLocal dst n (pEN ||| pWR) { wr := true } fun _ =>
            e.toOwner ea (pmaskOf e.c) fun dev die owner =>
              if 65535 ≤ e.p.cLoad then .stall e.s0
              else if (e.s0.die e.p.die).out.any fun m => m.2.isEntry && m.2.ctx == e.p.ctx && m.2.overlaps ea.toNat n then
                .stall e.s0
              else
                let r := e.beginOp { kind := .get, owner := owner, dest := e.p.name e.x.d.toNat, block := true, ea := ea,
                                     count := n, left := 1 }
                .next (r.2.outbound e.p.die
                  { kind := 2, pid := e.pid, ctx := e.p.ctx, rank := e.p.rank, tok := r.1, ddev := dev, ddie := die,
                    pmask := pmaskOf e.c, addr := ea, opw := 256, payload := natBytes 8 0, count := n, dst := some dst,
                    priv := e.p.priv }).2

/-- The owner of a remote word is a die of this device, which holds a translation of it whose page is LOG (R190). -/
def Env.ownLog (e : Env) (dev die : Nat) (ea n : Nat) : Bool :=
  dev == e.s0.devId && match e.s0.resolve die e.p.ctx e.p.priv { rd := true, wr := true, at_ := true } ea n with
    | .ok ps => logged ps
    | _ => false

/-- In replay a RAMO whose recorded turn at its word has not come parks (R191), and so does one behind another RAMO of its
process, whose turn is not known before that one has performed. In record mode one that would append to a full log raises fault
55 (R190). (DEDUCED, log entry 41; unsafe.) -/
def Env.ramoTurn (e : Env) (ea : Word) (isLog : Bool) (go : Act) : Act :=
  let earlier := (e.p.ops.filter fun o => o.2.kind == .ramo).map (·.1)
  if (e.s0.ctx e.p.ctx).dmode = 2 then
    if !earlier.isEmpty then .park e.s0 .memoryServer (.ops earlier 0)
    else match e.s0.replayEntry e.p with
    | some l =>
      if l.kind = 2 && l.value == wordVa ea && e.s0.atomicCount e.p.ctx ea.toNat != l.seq then
        .park e.s0 .memoryServer (.replay ea.toNat l.seq)
      else go
    | none => go
  else if isLog && (e.s0.ctx e.p.ctx).dmode = 1 && (e.s0.ctx e.p.ctx).logCap ≤ (e.s0.ctx e.p.ctx).log.length then e.logFull
  else go

/-- RAMO (R173). -/
def execRamo (x : Args) (s : State) : Host.Outcome State Fault Refusal :=
  perform eRamo x s fun e =>
    let t := tyN e.x
    let n := tyBytes t
    let a := e.areg e.x.a
    let ea := a.ptr + offsetExt e.x
    let op := mN e.x % 16
    match e.s0.rcheck e.p.ctx a ea.toNat n (pRD ||| pWR ||| pAT) n with
    | some c => e.trap c 0 ea
    | none => e.toOwner ea 0 fun dev die owner =>
        if 65535 ≤ e.p.cLoad || 2048 ≤ (e.s0.die e.p.die).entries then .stall e.s0
        else e.ramoTurn ea (e.ownLog dev die ea.toNat n) (
          let r := e.beginOp { kind := .ramo, owner := owner, dest := e.p.name e.x.d.toNat, ty := t, ea := ea, left := 1 }
          .next (r.2.outbound e.p.die
            { kind := 4, pid := e.pid, ctx := e.p.ctx, rank := e.p.rank, tok := r.1, ddev := dev, ddie := die, addr := ea,
              opw := t + 16 * op, payload := lowBytes n e.b ++ (if op = 7 then lowBytes n e.c else []),
              priv := e.p.priv }).2)

/-! ### At the owner -/

/-- What a remote access comes to at its owner: it waits for translations or a turn, fails, or performs with the bytes
that it answers. -/
inductive AtOwner where
  | miss (vas : List Nat) (write : Bool)
  | wait
  | fail (s : State) (cause : Nat)
  | done (s : State) (bytes : List Byte)

/-- The order log's word on a RAMO that is about to perform (R190, R191); only a process of this device has a log
here, but every one that performs on a LOG page counts. -/
def State.ramoOrder (s : State) (ctx : Nat) (pid : Option Nat) (isLog : Bool) (va : Word) (go : State → AtOwner) : AtOwner :=
  match pid.bind fun k => (s.proc k).map fun p => (k, p) with
  | none => go (if isLog then s.countAtomic ctx va.toNat else s)
  | some (k, p) =>
    if !isLog then go s
    else match s.logSays p [2] with
      | .full => .fail (s.modCtx p.ctx fun c => { c with logFull := true }) 55
      | .diverge => .fail (s.diverge k p) 54
      | .go => go ((s.logEvent k p 2 0 (wordVa va) (s.atomicCount p.ctx va.toNat)).countAtomic p.ctx va.toNat)
      | .entry l =>
        if l.value != wordVa va then .fail (s.diverge k p) 54
        else if s.atomicCount p.ctx va.toNat != l.seq then .wait
        else go ((s.logEvent k p 2 0 (wordVa va) l.seq).countAtomic p.ctx va.toNat)

/-- A PUT, GET or RAMO at its owner die (R162, R166, R171 to R173): KIND, operation word, address, payload, and bytes asked
for, which a GET.blk reads at one moment. (DESIGN CHOICE, log entry 78; unsafe.) `core` is the issuing core where it is one
of the die's, in whose quadrant the access counts (R350). -/
def State.atOwner (s : State) (die ctx : Nat) (priv : Bool) (core pid : Option Nat) (kind opw : Nat) (va : Word)
    (payload : List Byte) (count : Nat) : AtOwner :=
  let t := opw % 16
  let n := if kind = 0 then payload.length else if kind = 1 then 8 else if kind = 2 then count else tyBytes t
  let need : Need :=
    match kind with
    | 0 | 1 => { wr := true }
    | 2 => { rd := true }
    | _ => { rd := true, wr := true, at_ := true }
  match s.resolve die ctx priv need va.toNat n with
  | .fault c _ => .fail s c
  | .miss vas => .miss vas need.wr
  | .ok ps =>
    let s := match core with
      | some k => s.touch die ctx ps k
      | none => s
    match kind with
    | 0 =>
      let s := s.dieWrite die ps payload
      .done (if opw / 512 % 2 = 1 then (pieceWords ps).foldl (fun s w => s.setWord w true) s else s) []
    | 1 =>
      let s := s.dieWrite die ps (payload.take 8)
      .done ((pieceWords ps).foldl (fun s w => s.setWord w true) s) []
    | 2 => if (s.badPiece ps).isSome then .fail s 24 else .done s (s.readPieces ps)
    | _ =>
      if (s.badPiece ps).isSome then .fail s 24
      else s.ramoOrder ctx pid (logged ps) va fun s =>
        let old := s.readPieces ps
        let new := amoNew (opw / 16 % 16) t (bytesNat old) (bytesNat (payload.take n)) (bytesNat (payload.drop n))
        .done (s.dieWrite die ps (natBytes n new)) old

/-- The value that a scalar response gives D (R171, R173). -/
def opValue (m : OutMsg) (bytes : List Byte) : Word := loadExt (m.opw % 16) (bytesNat bytes)

/-- Block data lands at the local destination of a GET.blk, but for the words that have landed apart (R171): the state, or
a cause, or translations to wait for. -/
def State.landBlock (s : State) (m : OutMsg) (bs : List Byte) : AtOwner :=
  match m.dst, s.proc m.pid with
  | some a, some p =>
    match s.locate p.ctx p.core p.priv a.ptr.toNat bs.length a.space { wr := true } with
    | .fault c _ => .fail s c
    | .miss vas => .miss vas true
    | .ok ps =>
      if m.early.isEmpty then .done (s.spaceWrite p.core a.space ps bs) []
      else
        let rest := (wordParts ps bs).zipIdx.filter fun w => !m.early.contains w.2
        .done (rest.foldl (fun s w => s.spaceWrite p.core a.space [w.1.1] w.1.2) s) []
  | _, _ => .done s []

/-- One word of a GET.blk's data lands apart from the others (R171). -/
def State.landWord (s : State) (die key : Nat) (m : OutMsg) (bs : List Byte) (i : Nat) : State :=
  match m.dst, s.proc m.pid with
  | some a, some p =>
    match if m.early.contains i || bs.length < 8 * i + 8 then .miss []
        else s.locate p.ctx p.core p.priv (a.ptr.toNat + 8 * i) 8 a.space { wr := true } with
    | .ok ps => (s.spaceWrite p.core a.space ps ((bs.drop (8 * i)).take 8)).modDie die fun d =>
        { d with out := tblMod d.out key fun m => { m with early := i :: m.early } }
    | _ => s
  | _, _ => s

/-- An outbound entry waits for translations. -/
def State.outWaits (s : State) (die key : Nat) (m : OutMsg) (vas : List Nat) (write : Bool) : State :=
  let r := s.missAll die m.ctx vas write false (.remote m.rank (2 * key))
  r.2.modDie die fun d => { d with out := tblMod d.out key fun m => { m with miss := r.1 } }

/-- An earlier PUT or RAMO of the process to overlapping bytes has not ended (R163). -/
def State.sameAddrHeld (s : State) (die key : Nat) (m : OutMsg) : Bool :=
  m.isEntry && (s.die die).out.any fun o =>
    o.1 < key && o.2.isEntry && o.2.pid == m.pid && o.2.overlaps m.addr.toNat m.len

/-- A GET.blk that has its bytes ends once they have landed. Where its local destination is refused as they land, or its page
declined, the cause is that local one. (DESIGN CHOICE, log entry 78; unsafe.) -/
def State.endGet (s : State) (die key : Nat) (m : OutMsg) (bs : List Byte) : State :=
  if m.dst.isNone then s.endMsg die key 0 0 (opValue m bs)
  else match s.landBlock m bs with
    | .miss vas w => s.outWaits die key m vas w
    | .wait => s
    | .fail s c => s.endMsg die key c 0
    | .done s _ => s.endMsg die key 0 0

/-- What an access comes to whose owner is the issuing die; a GET.blk that has been read keeps its bytes. -/
def State.atOwnDie (s : State) (die : Nat) (m : OutMsg) : AtOwner :=
  match m.got with
  | some bs => .done s bs
  | none => s.atOwner die m.ctx m.priv ((s.proc m.pid).map (·.core)) (some m.pid) m.kind m.opw m.addr m.payload m.count

/-- A message's owner is the issuing die, and nothing holds it back. -/
def State.ownReady (s : State) (die key : Nat) (m : OutMsg) : Bool :=
  m.ddev == s.devId && m.ddie == die && (m.kind == 0 || m.kind == 1 || m.kind == 2 || m.kind == 4) && m.st == .queued
    && !s.sameAddrHeld die key m && !m.miss.any fun t => (s.die die).misses.any fun x => x.ticket == t

/-- The bytes that a GET.blk has read at the issuing die are kept until they have landed. -/
def State.keepBytes (s : State) (die key : Nat) (bs : List Byte) : State :=
  s.modDie die fun d => { d with out := tblMod d.out key fun m => { m with got := some bs } }

/-- A word of a GET.blk whose owner is the issuing die lands before the others (R171). -/
def State.ownBlockWord (s : State) (die key i : Nat) : State :=
  match tblGet (s.die die).out key with
  | none => s
  | some m =>
    if !s.ownReady die key m || m.kind != 2 || m.dst.isNone || m.declined then s
    else match s.atOwnDie die m with
      | .done s bs => (s.keepBytes die key bs).landWord die key m bs i
      | _ => s

/-- OWNER_ON_ISSUING_DIE_PERFORM (R164, R354): an access whose owner is the issuing die performs over the mesh and is
acknowledged or answered. A PUT.f joins the flags of its interval. -/
def execOwnerOnIssuingDiePerform (die index : Nat) (s : State) : Host.Outcome State Fault Refusal :=
  match tblGet (s.die die).out index with
  | none => .next s
  | some m =>
    if !s.ownReady die index m then .next s
    else if m.declined then
      let c := if m.got.isSome then (21, 0) else ownerCause m.kind 21
      .next ((s.endMsg die index c.1 c.2).recheckAll)
    else if m.kind = 1 then
      let s := s.modDie die fun d => { d with out := tblMod d.out index fun m => { m with st := .sent0 } }
      .next (s.modFlag s.devId die m.ctx m.rank m.fseq fun i => { i with flag := some (die, none, index, m.counts) })
    else match s.atOwnDie die m with
      | .miss vas w => .next (s.outWaits die index m vas w)
      | .wait => .next s
      | .fail s c =>
        let c := ownerCause m.kind c
        .next ((s.endMsg die index c.1 c.2).recheckAll)
      | .done s bs =>
        let s := if m.kind = 0 then s.countPut s.devId die m.ctx m.rank m.fseq m.lead else s
        .next ((if m.kind = 2 then (if m.dst.isSome then s.keepBytes die index bs else s).endGet die index m bs else s.endMsg die index 0 0 (opValue m bs)).recheckAll)

end Sys2Proof.Machine
end

