-- ==== Sys2Proof/Machine/Link.lean ====
section
/-! DEFINITION. Messages as fragments (R354 to R378): sending, forwarding, reassembly, decode slots, acknowledgements and
retransmission, ordered flags at the destination, queue pairs, keys and sessions. -/

namespace Sys2Proof.Machine

/-- KINDs that a source retains until they are acknowledged (R372). -/
def retained (kind : Nat) : Bool := kind != 3 && kind != 5

/-! ### Queue pairs (R360 to R365) -/

def State.modQp (s : State) (io qp : Nat) (f : QPair → QPair) : State :=
  s.modIo io fun d => { d with qps := tblMod d.qps qp f }

/-- What a scale-out message finds: no queue pair that is READY, one that is not resident, or its number, I/O die and
narrowed mask. -/
inductive QpSays where
  | none_ | bad | fetch (io qp : Nat) | go (io qp : Nat) (e : List Nat) (lead : Nat)

/-- The queue pair of a scale-out message (R356 steps 2 and 3, R360, R362, R363): the one that its channel names, else that of
its context and device which serves no channel. -/
def State.qpFor (s : State) (die : Nat) (m : OutMsg) (e : List Nat) : QpSays :=
  let rotor := tblGetD (s.die die).rotors 2 15
  let lead (e : List Nat) : Nat := if m.kind < 2 then (if e.contains m.lead then m.lead else nextPath e m.lead) else nextPath e rotor
  let pick : Option (Nat × Nat) :=
    match m.qp with
    | some t => some (8 + t / 2 ^ 14 % 2, t % 2 ^ 14)
    | none =>
      let io := 8 + lead e / 4
      ((s.io io).qps.find? fun q => q.2.ctx == m.ctx && q.2.pdev == m.ddev && q.2.pchan == 0).map fun q => (io, q.1)
  match pick with
  | none => .bad
  | some (io, n) =>
    match tblGet (s.io io).qps n with
    | none => .bad
    | some q =>
      if q.st != 1 then .bad
      else if !q.resident then .fetch io n
      else
        let narrow := e.filter (ioPlane io)
        .go io n narrow (lead (if m.qp.isSome then narrow else e))

/-- R364, on acknowledgement of `f` fragment bytes with echo `e`. (DEDUCED, log entry 35; unsafe.) -/
def QPair.acked (q : QPair) (now f e : Nat) : QPair :=
  let rtt : Nat := (now + 2 ^ 32 - e % 2 ^ 32) % 2 ^ 32
  let srtt := ((q.srtt : Int) + Int.fdiv ((rtt : Int) - (q.srtt : Int)) 8).toNat
  let q : QPair := { q with infl := q.infl - f, srtt := srtt }
  if rtt ≤ q.tgt then { q with win := min (q.win + 256) (2 ^ 24) }
  else if (srtt : Int) ≤ (now : Int) - q.lastCut then
    { q with win := max 2048 (q.win - q.win * (rtt - q.tgt) / (2 * rtt)), lastCut := now }
  else q

/-- A message that counted in a queue pair's INFL has ended; an echo updates the window (R364).
(DEDUCED, log entry 35; unsafe.) -/
def State.qpEnd (s : State) (m : OutMsg) (echo : Option Nat) : State :=
  match m.qp with
  | none => s
  | some t =>
    let io := 8 + t / 2 ^ 14 % 2
    s.modQp io (t % 2 ^ 14) fun q => match echo with
      | some e => q.acked (s.io io).cycle m.infl e
      | none => { q with infl := q.infl - m.infl }

/-- The four words of a queue-pair state (R361). -/
def QPair.words (q : QPair) : List Word :=
  [q.st * 2 ^ 62 + q.ctx % 64 * 2 ^ 56 + q.pdev % 2 ^ 21 * 2 ^ 35 + q.pqp % 2 ^ 15 * 2 ^ 20 + q.pchan % 2 ^ 20,
   q.win % 2 ^ 32 * 2 ^ 32 + q.infl % 2 ^ 32, q.srtt % 2 ^ 32 * 2 ^ 32 + q.tgt % 2 ^ 32,
   q.back / 2 * 2 + if q.host then 1 else 0].map (BitVec.ofNat 64)

/-- The fields of a queue-pair state from its four words (R361). -/
def QPair.ofWords (q : QPair) (w : List Word) : QPair :=
  let f (i lo n : Nat) : Nat := ((w.getD i 0).extractLsb' lo n).toNat
  { q with st := f 0 62 2, ctx := f 0 56 6, pdev := f 0 35 21, pqp := f 0 20 15, pchan := f 0 0 20, win := f 1 32 32,
           infl := f 1 0 32, srtt := f 2 32 32, tgt := f 2 0 32, back := 2 * f 3 1 63, host := (w.getD 3 0).getLsbD 0 }

/-- The backing slot of a queue pair in device memory (R361). (DEDUCED, log entry 35; unsafe.) -/
def QPair.slot (q : QPair) : Nat := hbmPA (q.back / 2 ^ 40 % 8) (q.back / 64 * 64 % 2 ^ 37)

/-- A state is written whole to its backing slot (R360, R361). -/
def State.saveQp (s : State) (q : QPair) : State :=
  if q.host then
    { s with hostMem := q.words.zipIdx.foldl (fun (t : Tbl Word) x => tblSet t (q.back / 64 * 64 + 8 * x.2) x.1) s.hostMem }
  else s.write q.slot (q.words.flatMap fun w => natBytes 8 w.toNat)

/-- The words in the backing slot of a state (R363). -/
def State.savedQp (s : State) (q : QPair) : List Word :=
  (List.range 4).map fun i =>
    if q.host then tblGetD s.hostMem (q.back / 64 * 64 + 8 * i) 0 else BitVec.ofNat 64 (s.readNat (q.slot + 8 * i) 8)

/-- A queue pair becomes resident (R364): where the engine is full, the resident state longest unused with INFL zero
leaves (R363) for its backing slot. -/
def State.residentQp (s : State) (io qp : Nat) : State :=
  let d := s.io io
  let idle := d.qps.filter fun q => q.2.resident && q.2.infl == 0 && q.1 != qp
  let full := 16384 ≤ (d.qps.filter fun q => q.2.resident && q.1 != qp).length
  let oldest := idle.foldl (fun (b : Option (Nat × QPair)) q => match b with
    | some x => if q.2.used < x.2.used then some q else b
    | none => some q) none
  let s := match oldest with
    | some x => if full then (s.modQp io x.1 fun q => { q with resident := false }).saveQp x.2 else s
    | none => s
  if full && oldest.isNone then s
  else s.modQp io qp fun q => { q with resident := true, used := d.cycle, lastCut := (d.cycle : Int) - (q.srtt : Int) }

/-! ### Encoding and sending (R356, R366, R369, R373) -/

/-- The cycle count of a physical die, 8 and 9 the I/O dies. -/
def State.cycleAt (s : State) (phys : Nat) : Nat :=
  if 8 ≤ phys then (s.io phys).cycle
  else match s.liveDies.find? fun d => (s.die d).phys == phys with
    | some d => (s.die d).cycle
    | none => 0

/-- A fragment of a message at its source (R366), on a path. Its wait counts in the cycles of the die that it waits at
(R8, R378). -/
def State.fragOf (s : State) (die key : Nat) (m : OutMsg) (att idx path : Nat) (data : List Byte) : Frag :=
  let cls := s.classOf m.ddev
  let route := (ownInput, (s.die die).phys) :: s.pathRoute (s.die die).phys cls path (s.die m.ddie).phys
  { ddev := m.ddev, ddie := m.ddie, sdev := s.devId, sdie := die, cls := cls, att := att, msgid := m.msgid,
    epoch := m.epoch, k := m.k, m := m.m, idx := idx, slot := m.slot, ctxtag := s.tagOf m.ctx, ctx := some m.ctx, kind := m.kind,
    lead := m.lead, fseq := if m.kind < 2 then m.fseq else 0, len := m.payload.length, addr := m.addr, rank := m.rank,
    opw := m.opw, data := data, path := path, route := route, qp := m.qp, waited := (s.die die).cycle, ref := if m.kind = 2 || m.kind = 4 then key else m.ref, count := m.count,
    cause := m.cause, unit := m.unit, parts := m.parts, priv := m.priv, body := m.body }

/-- Fragment bytes count against the context's link budget (R379). -/
def State.countLk (s : State) (die ctx n : Nat) : State :=
  s.modDie die fun d => { d with lkUsed := tblSet d.lkUsed ctx (tblGetD d.lkUsed ctx 0 + n) }

/-- Fragments wait at the outputs of their source die. -/
def State.launch (s : State) (fs : List Frag) : State := { s with wire := s.wire ++ fs }

/-- A source asks a destination for decode slots (R370): as many as messages wait for it, within 64 grants. -/
def State.askSlots (s : State) (die dev ddie : Nat) : State :=
  let d := s.die die
  let key := destKey dev ddie
  let want := (d.out.filter fun m => m.2.st == .queued && m.2.ddev == dev && m.2.ddie == ddie).length
  let n := min (max 1 want) (64 - (tblGetD d.grants key []).length)
  (s.modDie die fun d => { d with asked := tblSet d.asked key (d.cycle + 256 * d.ackw) }).control
    { kind := 13, sdev := s.devId, sdie := die, ddev := dev, ddie := ddie, body := [n] }

/-- The message's first fragments are encoded and leave (R356 step 4, R369); a response is not retained (R372). A PUT whose
lead path has died since its issue places its fragments from the next live path, and keeps the lead under which its
source counts it (R164). (DEDUCED, log entry 33; safe.) -/
def State.encodeMsg (s : State) (die key : Nat) (m : OutMsg) (e : List Nat) (lead : Nat) (qp : Option Nat) : State :=
  let d := s.die die
  let cls := s.classOf m.ddev
  let kp := fragCount (d.rateK cls) m.payload.length
  let dest := destKey m.ddev m.ddie
  let gs := tblGetD d.grants dest []
  let data := encodeFrags kp (d.rateM cls) m.payload
  let at_ := (e.findIdx? (· == lead)).getD 0
  let paths := (List.range data.length).map fun i => e.getD ((at_ + i) % e.length) 0
  let m : OutMsg :=
    { m with st := .sent0, msgid := d.msgid, epoch := d.epoch, k := kp, m := d.rateM cls, slot := gs.headD 0,
             lead := if m.kind < 2 then m.lead else lead,
             paths := paths, qp := qp, window := d.cycle + 256 * d.ackw, emptyTill := none, keyTill := none,
             infl := 0 }
  let s := s.useEpoch die m.ddev
  let s := s.modDie die fun d =>
    { d with grants := tblSet d.grants dest gs.tail,
             rotors := if m.kind < 2 then d.rotors else tblSet d.rotors cls lead,
             out := if retained m.kind then tblSet d.out key m else tblErase d.out key }
  let fs := ((data.zip paths).zipIdx).map fun (x : (List Byte × Nat) × Nat) => s.fragOf die key m 0 x.2 x.1.2 x.1.1
  (s.nextId die).launch fs

/-- An earlier channel message of the process on the channel has not been delivered (R244), or an earlier GSEND of the
process has yet to be accepted or to land at the destination (R321), or an earlier message of its unit has yet to be sent
(R368). (DEDUCED, log entry 54; unsafe.) -/
def State.chanHeld (s : State) (die key : Nat) (m : OutMsg) : Bool :=
  (m.parts != 1 && (s.die die).out.any fun o => o.2.unit == m.unit && o.2.kind == m.kind && o.2.st == .queued && decide (o.2.off < m.off)) ||
  (m.kind == 8 && ((s.gpackets.any fun x => x.home.isNone && x.pid == m.pid && x.bytes.isNone && decide (x.tok < m.tok)) ||
    (s.die die).out.any fun o => o.1 < key && o.2.kind == 8 && o.2.pid == m.pid && o.2.tok != m.tok && o.2.ddev == m.ddev && o.2.ddie == m.ddie)) ||
  (m.kind == 6 || m.kind == 7) && (s.die die).out.any fun o =>
    o.1 < key && (o.2.kind == 6 || o.2.kind == 7) && o.2.pid == m.pid && o.2.ctx == m.ctx && o.2.unit != m.unit
      && (o.2.body.map (·.chan)) == (m.body.map (·.chan))

/-- Every message on a queue pair ends with delayed fault 48 (R362). -/
def State.qpError (s : State) (t : Nat) : State :=
  (List.range 8).foldl (fun (s : State) (die : Nat) =>
    ((s.die die).out.filter fun m => m.2.qp == some t).foldl (fun (s : State) (m : Nat × OutMsg) => s.endMsg die m.1 48 0) s) s

/-- A message with a lead path leaves once its key, window and slot allow. -/
def State.sendOn (s : State) (die key : Nat) (m : OutMsg) (e : List Nat) (lead : Nat) (qp : Option (Nat × Nat)) : State :=
  let d := s.die die
  let dest := destKey m.ddev m.ddie
  let till := d.cycle + 256 * d.ackw
  let first := 64 + fragSize (fragCount (d.rateK (s.classOf m.ddev)) m.payload.length) m.payload.length
  let room := match qp with
    | some (io, n) => (tblGet (s.io io).qps n).any fun q => q.infl + first ≤ q.win
    | none => true
  if !s.epochFree die m.ddev then
    s.modDie die fun d => { d with out := tblMod d.out key fun m => { m with keyTill := m.keyTill.or (some till) } }
  else if (tblGetD d.grants dest []).isEmpty then
    (if (tblGet d.asked dest).isSome then s else s.askSlots die m.ddev m.ddie)
  else if !room then s
  else s.encodeMsg die key m e lead (qp.map fun q => (q.1 - 8) * 2 ^ 14 + q.2)

/-- OUTBOUND_MESSAGE_SEND (R356, R370, R373): a queued message sends its fragments once a path lives, its key may be
used, it holds a grant and its window has room. -/
def execOutboundMessageSend (die index : Nat) (s : State) : Host.Outcome State Fault Refusal :=
  match tblGet (s.die die).out index with
  | none => .next s
  | some m =>
    let d := s.die die
    let cls := s.classOf m.ddev
    let e := s.effective die m.ddev m.ddie m.pmask
    let rotor := tblGetD d.rotors cls 15
    let set (f : OutMsg → OutMsg) : State := s.modDie die fun d => { d with out := tblMod d.out index f }
    let lead := if m.kind < 2 then (if e.contains m.lead then m.lead else nextPath e m.lead) else nextPath e rotor
    if m.st != .queued || (m.ddev = s.devId && m.ddie = die) || s.sameAddrHeld die index m || s.chanHeld die index m then .next s
    else if m.ddev != s.devId && !nsHas s.sessions m.ddev then .next ((s.endMsg die index 44 0).recheckAll)
    else if e.isEmpty then
      .next (set fun m => { m with emptyTill := m.emptyTill.or (some (d.cycle + 256 * d.ackw)) })
    else if cls = 2 then
      match s.qpFor die m e with
      | .bad => .next ((s.endMsg die index 48 0).recheckAll)
      | .go io n e lead =>
        if e.isEmpty then .next (set fun m => { m with emptyTill := m.emptyTill.or (some (d.cycle + 256 * d.ackw)) })
        else .next (s.sendOn die index m e lead (some (io, n)))
      | _ => .next s
    else .next (s.sendOn die index m e lead none)

/-- The effective mask of a message, narrowed to the planes of the queue pair that it is bound to (R356). -/
def State.narrowed (s : State) (die : Nat) (m : OutMsg) : List Nat :=
  let e := s.effective die m.ddev m.ddie m.pmask
  match m.qp with
  | some t => e.filter (ioPlane (8 + t / 2 ^ 14 % 2))
  | none => e

/-- EMPTY_MASK_EXPIRY (R356): a message whose mask is still empty ends never performed. -/
def execEmptyMaskExpiry (die index : Nat) (s : State) : Host.Outcome State Fault Refusal :=
  match tblGet (s.die die).out index with
  | some m =>
    if m.st == .queued && (m.emptyTill.any fun t => t ≤ (s.die die).cycle) then
      if (s.narrowed die m).isEmpty then .next ((s.endMsg die index 42 0).recheckAll)
      else .next (s.modDie die fun d => { d with out := tblMod d.out index fun m => { m with emptyTill := none } })
    else .next s
  | none => .next s

/-- KEY_HOLD_EXPIRY (R375): a message held for a key as long as the acknowledgement window ends with fault 44. -/
def execKeyHoldExpiry (die index : Nat) (s : State) : Host.Outcome State Fault Refusal :=
  match tblGet (s.die die).out index with
  | some m =>
    if m.st == .queued && (m.keyTill.any fun t => t ≤ (s.die die).cycle) then .next ((s.endMsg die index 44 0).recheckAll)
    else .next s
  | none => .next s

/-! ### On the way (R355, R376, R378) -/

/-- The logical die at a physical place. -/
def State.logicalAt (s : State) (phys : Nat) : Option Nat :=
  (List.range 8).find? fun d => (s.die d).present && (s.die d).phys == phys

/-- A fragment is counted lost at a die, and as a tag failure (R366, R376, R382). -/
def State.countLost (s : State) (phys : Nat) (tag : Bool) : State :=
  let n (x : Nat) : Nat := (x + 1) % 2 ^ 64
  if 8 ≤ phys then s.modIo phys fun d => { d with lostCnt := n d.lostCnt, tagf := if tag then n d.tagf else d.tagf }
  else match s.logicalAt phys with
    | some l => s.modDie l fun d => { d with lostCnt := n d.lostCnt, tagf := if tag then n d.tagf else d.tagf }
    | none => s

/-- The mode of a class at a forwarding die (R376): a compute die's own rate register; at an I/O die that of the
fragment's compute die in this device. -/
def State.containAt (s : State) (phys : Nat) (f : Frag) : Bool :=
  match s.logicalAt phys with
  | some l => (s.die l).contain f.cls
  | none => (s.die (if f.sdev = s.devId then f.sdie else f.ddie)).contain f.cls

/-- The context here of a message from another device, by its handle tag: first among those that name the device as a peer.
(DEDUCED, log entry 71; unsafe.) -/
def State.ctxOfTag (s : State) (sdev tag : Nat) : Option Nat :=
  let live (c : Nat × Ctx) : Bool := c.2.tag == tag && c.2.st != .empty
  ((s.ctxs.find? fun c => live c && c.2.peers.contains sdev).or (s.ctxs.find? live)).map (·.1)

/-- The context of a fragment: its own where it is of this device, whatever the tag that a restore has kept (R178, R183). -/
def State.ctxOf (s : State) (f : Frag) : Option Nat :=
  match f.ctx with
  | some c => if f.sdev = s.devId then (if (s.ctx c).st == .empty then none else some c) else s.ctxOfTag f.sdev f.ctxtag
  | none => s.ctxOfTag f.sdev f.ctxtag

/-- A fragment's context has used its soft link budget at a compute die (R379); control messages have none. (DEDUCED, log
entry 32; unsafe.) -/
def State.overAt (s : State) (phys : Nat) (f : Frag) : Bool :=
  match s.logicalAt phys, s.ctxOf f with
  | some die, some c => !ctlKind f.kind && !(s.ctx c).lkHard && s.lkOut die c
  | _, _ => false

/-- How many inputs of a die have their turn at an output before `input`, after the one that won last (R378).
(DESIGN CHOICE, log entry 74; unsafe.) -/
def State.turnOf (s : State) (phys out input : Nat) : Nat := (input + 63 - tblGetD s.turns (64 * phys + out) 63) % 64

/-- The window of its queue pair holds a fragment back at its port (R365). -/
def State.windowHolds (s : State) (phys out : Nat) (f : Frag) : Bool :=
  portLink 0 ≤ out && match f.qp with
    | none => false
    | some t => (tblGet (s.io phys).qps (t % 2 ^ 14)).any fun q => decide (q.win < q.infl + (64 + f.data.length))

/-- Another fragment at the same output goes first (R378): one of greater age, of equal age at an input whose turn comes
sooner. One that its queue pair's window holds back takes no part, and holds back every later one of the queue pair, at whichever
port of the I/O die (R365). -/
def State.behindOther (s : State) (index phys out : Nat) (f : Frag) : Bool :=
  let turn (g : Frag) : Nat := s.turnOf phys out ((g.route.head?.map (·.1)).getD 0)
  s.wire.zipIdx.any fun (x : Frag × Nat) =>
    let to_ := (x.1.route.tail.head?.map (·.1)).getD 255
    x.2 != index && (x.1.route.head?.map (·.2)) == some phys && to_ != 255 && !s.overAt phys x.1
      && (if s.windowHolds phys to_ x.1 then x.2 < index && portLink 0 ≤ out && x.1.qp == f.qp
        else to_ == out && (decide (f.age < x.1.age) || (f.age == x.1.age && decide (turn x.1 < turn f))))

/-- The fragment is one of the message. -/
def Frag.of (f : Frag) (dev die : Nat) (m : OutMsg) : Bool :=
  f.sdev == dev && f.sdie == die && f.msgid == m.msgid && f.epoch == m.epoch

/-- A fragment leaves its queue pair's I/O die: the window's room, INFL and the stamp (R364, R365). It counts, there and in its
message, where its source still retains the message. (DEDUCED, log entry 35; unsafe.) -/
def State.stampQp (s : State) (io : Nat) (f : Frag) : Option (Frag × State) :=
  match f.qp with
  | none => some (f, s)
  | some t =>
    match tblGet (s.io io).qps (t % 2 ^ 14) with
    | none => some (f, s)
    | some q =>
      let mine (m : OutMsg) : Bool := m.st != .queued && f.of s.devId f.sdie m
      let n := if (s.die f.sdie).out.any fun m => mine m.2 then 64 + f.data.length else 0
      if !q.resident || s.windowHolds io (portLink 0) f then none
      else
        let s := s.modDie f.sdie fun d => { d with out := d.out.map fun (m : Nat × OutMsg) =>
          (m.1, if mine m.2 then { m.2 with infl := m.2.infl + n } else m.2) }
        some ({ f with stamp := (s.io io).cycle % 2 ^ 32 },
          s.modQp io (t % 2 ^ 14) fun q => { q with infl := q.infl + n, used := (s.io io).cycle })

/-- The attempt that a message is at (R372). -/
def OutMsg.attempt (m : OutMsg) : Nat := if m.st == .sent1 then 1 else 0

/-- The acknowledgement window of a message starts as a fragment of its latest attempt leaves its source (R372). -/
def State.startWindow (s : State) (f : Frag) : State :=
  if f.sdev != s.devId then s
  else s.modDie f.sdie fun d => { d with out := d.out.map fun (m : Nat × OutMsg) =>
    (m.1, if m.2.st != .queued && f.of s.devId f.sdie m.2 && f.att == m.2.attempt then { m.2 with window := d.cycle + 256 * d.ackw } else m.2) }

/-- A fragment of the message's latest attempt waits at its source for a link that is not LOST: it has not been sent whole (R372).
(DEDUCED, log entry 76; unsafe.) -/
def State.unsent (s : State) (die : Nat) (m : OutMsg) : Bool :=
  s.wire.any fun f => f.of s.devId die m && f.att == m.attempt && (match f.route with
    | (l, _) :: (l2, _) :: _ => l == ownInput && (s.link l2).st != 3
    | _ => false)

/-- FRAGMENT_FORWARD (R376, R378): the die that a fragment has come to checks its tag under containment, raises its AGE and
sends it on, its bytes counted (R379), those of a group copy beyond its source, where its packet's have been; one that has
come in for a queue pair first passes its engine, which holds it where the state is not resident (R363); one for another
device leaves. The source sends its own with their AGE, and the acknowledgement window of their message starts with the last
(R372). (DESIGN CHOICE, log entry 74; unsafe.) -/
def execFragmentForward (index : Nat) (s : State) : Host.Outcome State Fault Refusal :=
  match s.wire[index]? with
  | none => .next s
  | some f =>
    match f.route with
    | (l, d) :: (l2, d2) :: rest =>
      let gone : State := { s with wire := s.wire.eraseIdx index }
      let ctx := s.ctxOf f
      if s.containAt d f && !f.tagOk then .next (gone.countLost d true)
      else if portLink 0 ≤ l && l != ownInput && f.qp.isSome then
        match f.qp.bind fun t => tblGet (s.io d).qps (t % 2 ^ 14) with
        | none => .next (gone.countLost d false)
        | some q =>
          if q.resident then .next { s with wire := s.wire.set index { f with qp := none, via := f.qp } }
          else if 64 ≤ (s.io d).held.length then .next (gone.countLost d false)
          else .next (gone.modIo d fun i => { i with held := i.held ++ [f] })
      else if !s.linkUp l2 || s.overAt d f || s.behindOther index d l2 f then .next s
      else match if portLink 0 ≤ l2 then s.stampQp d f else some (f, s) with
        | none => .next s
        | some (f, s) =>
          let s := match s.logicalAt d, ctx with
            | some die, some c => if ctlKind f.kind || (l = ownInput && f.kind = 8) then s else s.countLk die c (64 + f.data.length)
            | _, _ => s
          let f : Frag := { f with route := (l2, d2) :: rest, age := if l = ownInput then f.age else min 255 (f.age + 1),
                                   waited := s.cycleAt d2 }
          let s := if l = ownInput then s.startWindow f else s
          .next { s with turns := tblSet s.turns (64 * d + l2) l, wire := if d2 = 255 then s.wire.eraseIdx index else s.wire.set index f }
    | _ => .next s

/-- A fragment from another device comes in at the station or port of its path. -/
def State.wireIn (s : State) (f : Frag) : State :=
  let io := if f.cls = 1 then 8 + f.path / 8 else 8 + f.path / 4
  let f : Frag := { f with route := s.inRoute f.cls f.path (s.die f.ddie).phys, waited := s.cycleAt io }
  { s with wire := s.wire ++ [f] }

/-- AGE_INCREMENT (R378): for each 256 die cycles that a fragment waits in a queue of a die. -/
def execAgeIncrement (index : Nat) (s : State) : Host.Outcome State Fault Refusal :=
  match s.wire[index]? with
  | none => .next s
  | some f =>
    match f.route with
    | (_, d) :: _ =>
      if f.waited + 256 ≤ s.cycleAt d then
        .next { s with wire := s.wire.set index { f with age := min 255 (f.age + 1), waited := f.waited + 256 } }
      else .next s
    | [] => .next s

/-! ### At the destination (R370, R371, R374) -/

/-- A response to a GET or RAMO, as messages of one unit (R367, R368): bytes, or the owner-side cause. -/
def State.respond (s : State) (die : Nat) (c : Commit) (bytes : List Byte) (cause : Nat) : State :=
  let s := (s.freeSlot die c.slot).modDie die fun d => { d with commits := d.commits.filter fun x => x.slot != c.slot }
  let f := c.frag
  let bytes := if bytes.isEmpty then natBytes 8 0 else bytes
  let size := s.unitSize die f.sdev
  let offs := unitOffsets bytes.length size
  let k := s.seq
  offs.foldl (fun (s : State) (o : Nat) => (s.outbound die
    { kind := f.kind + 1, pid := 0, ctx := (s.ctxOf f).getD 0, rank := f.rank, tok := 0, off := o, ddev := f.sdev,
      ddie := f.sdie, addr := f.addr, opw := f.opw, payload := (bytes.drop o).take size, ref := f.ref, cause := cause,
      unit := k, parts := offs.length }).2) { s with seq := k + 1 }

/-- How the source process of a message at this device is known here, where it is of this device. -/
def State.fragPid (s : State) (ctx : Nat) (f : Frag) : Option Nat :=
  if f.sdev = s.devId then s.rankHolder ctx f.rank else none

/-- A committed PUT, GET or RAMO performs, or waits, or is refused (R371 step 3); its owner die is absent only where it comes
from another device (R166). -/
def State.performCommit (s : State) (die : Nat) (c : Commit) : State :=
  let f := c.frag
  match s.ctxOf f with
  | none => (s.freeSlot die c.slot).modDie die fun d => { d with commits := d.commits.filter fun x => x.slot != c.slot }
  | some ctx =>
    let refuse (s : State) (cause : Nat) : State :=
      if f.kind < 2 then s.ackCommit die c cause else s.respond die c [] cause
    if !s.dieLive die then refuse s 20
    else if c.declined then refuse s 21
    else if f.kind = 1 && !((s.flagSrc f.sdev ctx f.rank).past f.fseq) then
      s.modFlag f.sdev f.sdie ctx f.rank f.fseq fun i =>
        { i with flag := some (die, some c.slot, c.slot, (List.range 16).map fun j => bytesNat ((c.payload.drop (8 + 4 * j)).take 4)) }
    else if f.kind = 1 then (s.freeSlot die c.slot).modDie die fun d => { d with commits := d.commits.filter fun x => x.slot != c.slot }
    else match s.atOwner die ctx f.priv none (s.fragPid ctx f) f.kind f.opw f.addr c.payload f.count with
      | .miss vas w =>
        let r := s.missAll die ctx vas w false (.remote f.rank (2 * c.slot + 1))
        r.2.modDie die fun d => { d with commits := d.commits.map fun x => if x.slot = c.slot then { x with miss := r.1 } else x }
      | .wait => s
      | .fail s cause => refuse s cause
      | .done s bs =>
        if f.kind = 0 then (s.countPut f.sdev f.sdie ctx f.rank f.fseq f.lead).ackCommit die c 0 else s.respond die c bs 0

/-- Parts of a channel message, from its bytes (R240, R368). -/
def partsOf (size : Nat) (bs : List Byte) : Nat → List (List Byte)
  | 0 => []
  | n + 1 => if bs.isEmpty then [] else bs.take size :: partsOf size (bs.drop size) n

/-- A channel message or tile that another device has sent, from its fragments (R412): part of a packet of its sender that is
open here, or a message of its own. -/
def State.foreignWire (s : State) (ctx : Nat) (f : Frag) (bs : List Byte) : ChanWire :=
  let i := hIndex f.addr
  let t := (s.chan ctx i).type
  let e := s.chanEnd ctx i
  let tile : TileEnd := { area := {}, ea := 0, n := bs.length, tok := 0, bytes := some bs }
  let src := some (f.sdev, f.rank)
  let open_ := (e.held ++ e.sends ++ e.matched.map (·.1)).find? fun m => m.src == src && !m.closed
  { ctx := ctx, chan := i,
    msg := { ticket := (open_.map (·.ticket)).getD s.seq, pid := 0, parts := partsOf (if t = 1 then 128 else 8) bs 17,
             tile := if f.kind = 7 then some tile else none, link := some (f.sdev, f.sdie), src := src,
             closed := f.body.all fun w => w.msg.closed, drop := f.body.any fun w => w.msg.drop } }

/-- A token record (R332, R324, R258): an arrival at or a completion of a group barrier, or a contribution
to a collective, of another device's Diffuser; the deadlock token, from a die of this device or from another's. -/
def State.takeToken (s : State) (ctx dev : Nat) : List Nat → State
  | [0, entry, b, core] => { s with gArrive := s.gArrive ++ [(ctx, entry, b, farCore dev core)] }
  | [1, entry, b, core] => { s with gDone := s.gDone ++ [(ctx, entry, b, core)] }
  | [3] => s.tokenHere ctx
  | 4 :: sent :: delivered :: clean :: recs => s.tokenBack ctx sent delivered (clean == 1) (recsOf recs)
  | [2, entry, n, op, ty, rm, payl, rank, value] =>
    { s with gContrib := s.gContrib ++ [(ctx, entry, n, { op := op, ty := ty, rm := rm, payl := payl == 1 }, ⟨0, rank, BitVec.ofNat 64 value⟩)] }
  | _ => s

/-- A whole unit of commits is handed on (R368): group copies and tokens go to the Diffuser (R320, R332); accesses perform;
channel messages, tiles and notices are delivered and acknowledged (R412). -/
def State.handOn (s : State) (die : Nat) (cs : List Commit) : State :=
  match cs with
  | [] => s
  | c :: _ =>
    let f := c.frag
    let all (s : State) : State := cs.foldl (fun (s : State) (c : Commit) => s.ackCommit die c 0) s
    let bytes := (cs.map (·.payload)).flatten
    if f.kind = 6 || f.kind = 7 then
      match s.ctxOf f with
      | none => all s
      | some ctx =>
        let w := if f.sdev = s.devId then f.body.getD (s.foreignWire ctx f bytes) else s.foreignWire ctx f bytes
        { s with chanIn := s.chanIn ++ [{ w with home := some (die, cs.map (·.slot)) }], seq := s.seq + 1 }
    else if f.kind = 17 then
      match f.body with
      | some w => all { s with notices := s.notices ++ [w] }
      | none => all s
    else if f.kind = 8 then
      match s.ctxOf f, f.body.bind (·.copy) with
      | some ctx, some g =>
        if (s.ctx ctx).st == .draining then all s
        else
          { s with seq := s.seq + 1, gpackets := s.gpackets ++
            [{ ctx := ctx, pid := 0, tok := s.seq, entry := 0, die := die, core := 0, space := 0, src := 0, count := bytes.length, sb := 0,
               toks := [], off := g.off, dsp := g.dsp, bar := g.bar, bytes := some bytes, first := g.first, stride := g.stride,
               members := g.members, dies := if f.sdev = s.devId then [die] else s.liveDies, home := some (die, cs.map (·.slot)) }] }
      | _, _ => all s
    else if f.kind = 9 then
      match s.ctxOf f, f.body.map (·.token) with
      | some ctx, some r => all (s.takeToken ctx f.sdev r)
      | _, _ => all s
    else cs.foldl (fun (s : State) (c : Commit) => s.performCommit die c) s

/-- Insertion of a commit into a list by MSGID, past its wrap (R366). -/
def insertCommit (c : Commit) : List Commit → List Commit
  | [] => [c]
  | d :: t => if (d.frag.msgid + 2 ^ 32 - c.frag.msgid) % 2 ^ 32 < 2 ^ 31 then c :: d :: t else d :: insertCommit c t

/-- The commits of one unit in the order of its consecutive messages (R368). -/
def unitOf (f : Frag) (cs : List Commit) : List Commit :=
  let mine := cs.filter fun c => c.frag.sdev == f.sdev && c.frag.sdie == f.sdie && c.frag.unit == f.unit && c.frag.kind == f.kind
    && (f.parts != 1 || c.frag.msgid == f.msgid)
  mine.foldr insertCommit []

/-- A message commits at its destination die (R371 step 3). -/
def State.commit (s : State) (die slot : Nat) (f : Frag) (payload : List Byte) : State :=
  let c : Commit := { slot := slot, frag := f, payload := payload }
  if f.kind = 3 || f.kind = 5 then { s with responses := s.responses ++ [(die, c)] }
  else
    let s := s.modDie die fun d => { d with commits := d.commits ++ [c] }
    let us := unitOf f (s.die die).commits
    if us.length = f.parts then
      let s := s.modDie die fun d => { d with commits := d.commits.map fun x =>
        if (us.any fun u => u.slot == x.slot) then { x with whole := true } else x }
      s.handOn die us
    else s

/-- The header fields of a fragment agree (R366, R369). -/
def Frag.agrees (f : Frag) : Bool :=
  f.reserved == 0 && f.kind ≤ 17 && !ctlKind f.kind && f.cls < 3 && 1 ≤ f.len && f.len ≤ 4096
    && f.k == max 1 ((f.len + 255) / 256) && f.m ≤ 8 && f.idx < f.k + f.m && f.data.length == fragSize f.k f.len
    && f.slot < 1024

/-- The header fields of a control fragment agree (R366, R367). -/
def Frag.agreesCtl (f : Frag) : Bool :=
  f.reserved == 0 && f.cls < 3 && f.k == 1 && f.m ≤ 8 && f.idx < 1 + f.m && 1 ≤ f.len && f.len ≤ 256
    && f.data.length == fragSize 1 f.len && f.slot == 0

/-- The identity of a fragment's message (R371). -/
def Frag.ident (f : Frag) : Nat × Nat × Nat × Nat := (f.sdev, f.sdie, f.msgid, f.epoch)

/-- The fragment belongs to the message that the slot holds or last held. -/
def DSlot.holds (x : DSlot) (f : Frag) : Bool :=
  x.first.any fun g => g.ident == f.ident

/-- The slot holds the fragment's message, or has held it. -/
def DSlot.held (x : DSlot) (f : Frag) : Bool := x.holds f || x.past.contains f.ident

/-- Messages for a die are taken in: those for a live die, and those from another device for an absent one, which are
answered (R166). (DEDUCED, log entry 69; unsafe.) -/
def State.takesFor (s : State) (sdev die : Nat) : Bool := s.dieLive die || sdev != s.devId

/-- The first good fragment of a control message acts, and the rest are discarded (R367). -/
def State.takeCtlFrag (s : State) (die : Nat) (f : Frag) : State :=
  match f.ctl with
  | some c =>
    if (s.die die).ctlGot.contains f.ident then s
    else { s.modDie die fun d => { d with ctlGot := f.ident :: d.ctlGot } with
      ctl := s.ctl ++ [{ c with kind := f.kind, sdev := f.sdev, sdie := f.sdie, ddev := f.ddev, ddie := f.ddie, qp := f.via }] }
  | none => s

/-- FRAGMENT_ARRIVAL (R367, R371). A fragment of a message that a slot has held never opens it (R374).
(DEDUCED, log entry 57; unsafe.) -/
def execFragmentArrival (index : Nat) (s : State) : Host.Outcome State Fault Refusal :=
  match s.wire[index]? with
  | none => .next s
  | some f =>
    if 2 ≤ f.route.length || f.ddev != s.devId || !s.takesFor f.sdev f.ddie then .next s
    else
      let die := f.ddie
      let s : State := { s with wire := s.wire.eraseIdx index }
      let phys := (s.die die).phys
      let late : State := s.modDie die fun d => { d with late := (d.late + 1) % 2 ^ 64 }
      if !f.tagOk then .next (s.countLost phys true)
      else if !(if ctlKind f.kind then f.agreesCtl && f.ctl.isSome else f.agrees) then .next (s.countLost phys false)
      else if ctlKind f.kind then .next (s.takeCtlFrag die f)
      else
        let x := tblGetD (s.die die).dslots f.slot {}
        let put (x : DSlot) : State := s.modDie die fun d => { d with dslots := tblSet d.dslots f.slot x }
        let close (x : DSlot) : State :=
          if x.frags.length = f.k then
            ((put { x with st := 4 }).commit die f.slot (x.first.getD f) (rebuild f.k f.len x.frags)).recheckAll
          else put x
        if x.st = 1 && x.sdev = f.sdev && x.sdie = f.sdie && !x.held f then
          .next (close { x with st := 2, first := some f, frags := [(f.idx, f.data)], window := (s.die die).cycle + (s.die die).win })
        else if (x.st = 2 || x.st = 3) && x.holds f && (tblGet x.frags f.idx).isNone then
          .next (close { x with frags := tblSet x.frags f.idx f.data })
        else .next late

/-- The bitmap of the IDX that a slot has not received. -/
def missingBits (f : Frag) (got : Tbl (List Byte)) : Nat :=
  ((List.range (f.k + f.m)).map fun i => if (tblGet got i).isSome then 0 else 2 ^ i).sum

/-- DECODE_WINDOW_EXPIRY (R371 steps 5 and 6): a negative acknowledgement, then a final failure; a slot that holds a
response sends neither. -/
def execDecodeWindowExpiry (die slot : Nat) (s : State) : Host.Outcome State Fault Refusal :=
  match tblGet (s.die die).dslots slot with
  | none => .next s
  | some x =>
    match x.first with
    | none => .next s
    | some f =>
      let silent := f.kind == 3 || f.kind == 5
      let ctl (kind : Nat) (body : List Nat) (s : State) : State :=
        if silent then s
        else s.control { kind := kind, sdev := s.devId, sdie := die, ddev := f.sdev, ddie := f.sdie, msgid := f.msgid,
                         epoch := f.epoch, body := body, qp := f.via }
      if (s.die die).cycle < x.window then .next s
      else if x.st = 2 then
        let s := s.modDie die fun d =>
          { d with dslots := tblSet d.dslots slot { x with st := 3, window := d.cycle + d.win },
                   nak := if silent then d.nak else (d.nak + 1) % 2 ^ 64 }
        .next (ctl 11 [missingBits f x.frags] s)
      else if x.st = 3 then .next ((ctl 12 [] s).freeSlot die slot)
      else .next s

/-! ### Decode slots (R370) -/

/-- Removes a control message, where it has the kind and its die lives. -/
def State.takeCtl (s : State) (index kind : Nat) : Option (Ctl × State) :=
  match s.ctl[index]? with
  | some c => if c.kind = kind && s.takesFor c.sdev c.ddie then some (c, { s with ctl := s.ctl.eraseIdx index }) else none
  | none => none

/-- SLOT_REQUEST (R370): the destination grants free slots, in order of arrival of the requests. -/
def execSlotRequest (index : Nat) (s : State) : Host.Outcome State Fault Refusal :=
  match s.takeCtl index 13 with
  | none => .next s
  | some (c, t) =>
    let die := c.ddie
    let earlier := (s.ctl.take index).any fun x => x.kind == 13 && x.ddie == die
    let free := ((List.range 1024).filter fun i => (tblGetD (s.die die).dslots i {}).st == 0).take (c.body.headD 0)
    if earlier || free.isEmpty then .next s
    else
      let give (t : Tbl DSlot) (i : Nat) : Tbl DSlot :=
        let x := tblGetD t i ({} : DSlot)
        tblSet t i { x with st := 1, sdev := c.sdev, sdie := c.sdie, frags := [], first := none, past := x.first.toList.map Frag.ident ++ x.past }
      let t := t.modDie die fun d => { d with dslots := free.foldl give d.dslots }
      .next (t.control { kind := 14, sdev := s.devId, sdie := die, ddev := c.sdev, ddie := c.sdie, body := free })

/-- SLOT_GRANT (R370): grants past 64 go back. -/
def execSlotGrant (index : Nat) (s : State) : Host.Outcome State Fault Refusal :=
  match s.takeCtl index 14 with
  | none => .next s
  | some (c, s) =>
    let key := destKey c.sdev c.sdie
    let all := tblGetD (s.die c.ddie).grants key [] ++ c.body
    let s := s.modDie c.ddie fun d => { d with grants := tblSet d.grants key (all.take 64), asked := tblErase d.asked key }
    .next (if all.length ≤ 64 then s
      else s.control { kind := 15, sdev := s.devId, sdie := c.ddie, ddev := c.sdev, ddie := c.sdie, body := all.drop 64 })

/-- SLOT_RELEASE (R370): granted slots come back. -/
def execSlotRelease (index : Nat) (s : State) : Host.Outcome State Fault Refusal :=
  match s.takeCtl index 15 with
  | none => .next s
  | some (c, s) =>
    let back (t : Tbl DSlot) (i : Nat) : Tbl DSlot :=
      tblMod t i fun x => if x.st = 1 && x.sdev = c.sdev && x.sdie = c.sdie then { x with st := 0 } else x
    .next (s.modDie c.ddie fun d => { d with dslots := c.body.foldl back d.dslots })

/-- SLOT_REQUEST_REPEAT (R370): a request that has no answer within the acknowledgement window. -/
def execSlotRequestRepeat (die index : Nat) (s : State) : Host.Outcome State Fault Refusal :=
  match tblGet (s.die die).asked index with
  | some t => .next (if t ≤ (s.die die).cycle then s.askSlots die (index / 8) (index % 8) else s)
  | none => .next s

/-! ### Answers at the source (R372, R373) -/

/-- The message that a control message names, sent and not ended. -/
def State.sentMsg (s : State) (c : Ctl) : Option (Nat × OutMsg) :=
  (s.die c.ddie).out.find? fun m => m.2.st != .queued && m.2.msgid == c.msgid && m.2.epoch == c.epoch
    && m.2.ddev == c.sdev && m.2.ddie == c.sdie

/-- ACK_ARRIVAL (R364, R372). -/
def execAckArrival (index : Nat) (s : State) : Host.Outcome State Fault Refusal :=
  match s.takeCtl index 10 with
  | none => .next s
  | some (c, s) =>
    match s.sentMsg c with
    | none => .next s
    | some (k, m) =>
      let cause := c.body.headD 0
      let e := if cause = 0 then (0, 0) else if m.kind = 8 then (cause, 0) else ownerCause m.kind cause
      .next (((s.qpEnd m (some (c.body.getD 1 0))).endMsg c.ddie k e.1 e.2).recheckAll)

/-- NAK_ARRIVAL (R356, R372): the listed fragments are sent once more; a second negative acknowledgement is ignored. -/
def execNakArrival (index : Nat) (s : State) : Host.Outcome State Fault Refusal :=
  match s.takeCtl index 11 with
  | none => .next s
  | some (c, s) =>
    match s.sentMsg c with
    | none => .next s
    | some (k, m) =>
      if m.st != .sent0 then .next s
      else
        let die := c.ddie
        let e := s.narrowed die m
        let data := encodeFrags m.k m.m m.payload
        let want := (List.range data.length).filter fun i => (c.body.headD 0).testBit i
        let fs := if e.isEmpty then [] else want.map fun i =>
          s.fragOf die k m 1 i (nextPath e (m.paths.getD i 0)) (data.getD i [])
        let s := s.modDie die fun d => { d with out := tblMod d.out k fun m =>
          { m with st := .sent1, window := d.cycle + 256 * d.ackw } }
        .next (s.launch fs)

/-- FINAL_FAILURE_ARRIVAL (R372). -/
def execFinalFailureArrival (index : Nat) (s : State) : Host.Outcome State Fault Refusal :=
  match s.takeCtl index 12 with
  | none => .next s
  | some (c, s) =>
    match s.sentMsg c with
    | none => .next s
    | some (k, m) => .next (((s.qpEnd m none).endMsg c.ddie k 42 0).recheckAll)

/-- ACK_WINDOW_EXPIRY (R372). -/
def execAckWindowExpiry (die index : Nat) (s : State) : Host.Outcome State Fault Refusal :=
  match tblGet (s.die die).out index with
  | some m =>
    if m.st != .queued && !(m.ddev = s.devId && m.ddie = die) && m.window ≤ (s.die die).cycle && !s.unsent die m then
      .next (((s.qpEnd m none).endMsg die index (if m.kind = 0 || m.kind = 1 || m.kind = 4 then 43 else 42) 0).recheckAll)
    else .next s
  | none => .next s

/-- The commits of a response's unit are discarded and their slots free. -/
def State.dropResponses (s : State) (die : Nat) (us : List Commit) : State :=
  let s : State := { s with responses := s.responses.filter fun r => !(r.1 == die && us.any fun u => u.slot == r.2.slot) }
  us.foldl (fun (s : State) (u : Commit) => s.freeSlot die u.slot) s

/-- A response whose unit is whole ends its GET or RAMO (R171, R173, R372). One that answers nothing held is
discarded. -/
def State.takeResponse (s : State) (index kind : Nat) : State :=
  match s.responses[index]? with
  | none => s
  | some (die, c) =>
    let us := unitOf c.frag ((s.responses.filter fun r => r.1 == die).map (·.2))
    if c.frag.kind != kind || us.length != c.frag.parts then s
    else match tblGet (s.die die).out c.frag.ref with
      | none => s.dropResponses die us
      | some m =>
        let waits := m.miss.any fun t => (s.die die).misses.any fun x => x.ticket == t
        let done (s : State) : State := (s.dropResponses die us).qpEnd m (some c.frag.echo)
        if m.kind + 1 != kind then s.dropResponses die us
        else if waits then s
        else if m.declined then (done s).endMsg die c.frag.ref 21 0
        else if c.frag.cause != 0 then
          let e := ownerCause m.kind c.frag.cause
          (done s).endMsg die c.frag.ref e.1 e.2
        else
          let s' := s.endGet die c.frag.ref m (us.map (·.payload)).flatten
          if (tblGet (s'.die die).out c.frag.ref).isSome then s' else done s'

/-- A word of the GET.blk that a whole unit of responses answers lands before the others (R171). -/
def State.blockWord (s : State) (index i : Nat) : State :=
  match s.responses[index]? with
  | none => s
  | some (die, c) =>
    let us := unitOf c.frag ((s.responses.filter fun r => r.1 == die).map (·.2))
    if c.frag.kind != 3 || us.length != c.frag.parts || c.frag.cause != 0 then s
    else match tblGet (s.die die).out c.frag.ref with
      | some m => if m.kind = 2 then s.landWord die c.frag.ref m (us.map (·.payload)).flatten i else s
      | none => s

/-- GET_RESPONSE_ARRIVAL (R171). -/
def execGetResponseArrival (index : Nat) (s : State) : Host.Outcome State Fault Refusal :=
  .next (s.takeResponse index 3).recheckAll

/-- RAMO_RESPONSE_ARRIVAL (R173). -/
def execRamoResponseArrival (index : Nat) (s : State) : Host.Outcome State Fault Refusal :=
  .next (s.takeResponse index 5).recheckAll

/-! ### Ordered flags at the destination (R164) -/

/-- Every count of the interval has reached its flag's. -/
def FlagIv.reached (i : FlagIv) (counts : List Nat) : Bool :=
  counts.zipIdx.all fun (c : Nat × Nat) => c.1 ≤ tblGetD i.counts c.2 0

/-- PUT_FLAG_PERFORM (R164 step 4): the flag of the next interval performs as STF once its counts are reached. -/
def execPutFlagPerform (index : Nat) (s : State) : Host.Outcome State Fault Refusal :=
  match s.flags[index]? with
  | none => .next s
  | some i =>
    match i.flag with
    | none => .next s
    | some (die, slot, key, counts) =>
      let ended (s : State) : State := s.closeFlag i.sdev i.ctx i.rank i.fseq
      if (s.flagSrc i.sdev i.ctx i.rank).next != i.fseq || !i.reached counts then .next s
      else match slot with
        | some sl =>
          match (s.die die).commits.find? fun c => c.slot == sl with
          | none => .next s
          | some c =>
            let ctx := i.ctx
            if (s.ctx ctx).st == .empty then .next s
            else
              if c.miss.any fun t => (s.die die).misses.any fun x => x.ticket == t then .next s
              else if c.declined then .next ((ended s).ackCommit die c 21).recheckAll
              else match s.atOwner die ctx c.frag.priv none none 1 c.frag.opw c.frag.addr c.payload 8 with
                | .miss vas w =>
                  let r := s.missAll die ctx vas w false (.remote i.rank (2 * sl + 1))
                  .next (r.2.modDie die fun d =>
                    { d with commits := d.commits.map fun x => if x.slot = sl then { x with miss := r.1 } else x })
                | .wait => .next s
                | .fail s cause => .next ((ended s).ackCommit die c cause).recheckAll
                | .done s _ => .next ((ended s).ackCommit die c 0).recheckAll
        | none =>
          match tblGet (s.die die).out key with
          | none => .next (ended s)
          | some m =>
            if m.miss.any fun t => (s.die die).misses.any fun x => x.ticket == t then .next s
            else if m.declined then .next ((ended s).endMsg die key 46 21).recheckAll
            else match s.atOwner die m.ctx m.priv ((s.proc m.pid).map (·.core)) none 1 m.opw m.addr m.payload 8 with
              | .miss vas w => .next (s.outWaits die key m vas w)
              | .wait => .next s
              | .fail s cause => .next ((ended s).endMsg die key 46 cause).recheckAll
              | .done s _ => .next ((ended s).endMsg die key 0 0).recheckAll

/-- FLAG_CANCEL (R164 step 5). -/
def execFlagCancel (index : Nat) (s : State) : Host.Outcome State Fault Refusal :=
  match s.takeCtl index 16 with
  | none => .next s
  | some (c, s) =>
    let ctx := if c.sdev = s.devId then c.body[3]? else s.ctxOfTag c.sdev (c.body.getD 0 0)
    .next (match ctx with
      | some k => s.cancelAt c.sdev k (c.body.getD 1 0) (c.body.getD 2 0)
      | none => s)

/-! ### Queue-pair, key and session events -/

/-- A READY queue pair becomes ERROR (R362), in its backing slot where it is not resident; every message on it ends. -/
def State.failQp (s : State) (io qp : Nat) : State :=
  let s := s.modQp io qp fun q => { q with st := 2 }
  let q := tblGetD (s.io io).qps qp {}
  ((if q.resident then s else s.saveQp q).qpError ((io - 8) * 2 ^ 14 + qp)).recheckAll

/-- QP_STATE_FETCH_COMPLETE (R362, R363): the state is read from its backing slot and becomes resident, and what waited for it
goes on; a backing slot that holds an uncorrectable word makes a READY one ERROR, and its held fragments are lost. -/
def execQpStateFetchComplete (ioDie qp : Nat) (s : State) : Host.Outcome State Fault Refusal :=
  match tblGet (s.io ioDie).qps qp with
  | none => .next s
  | some q =>
    let mine (f : Frag) : Bool := f.qp == some ((ioDie - 8) * 2 ^ 14 + qp)
    if q.resident then .next s
    else if !q.host && (s.badWord q.slot 32).isSome then
      let s := ((s.io ioDie).held.filter mine).foldl (fun (s : State) _ => s.countLost ioDie false) s
      let s := s.modIo ioDie fun d => { d with held := d.held.filter fun f => !mine f }
      .next (if q.st = 1 then s.failQp ioDie qp else s)
    else
      let ws := s.savedQp q
      let s := s.residentQp ioDie qp
      if (tblGet (s.io ioDie).qps qp).any (·.resident) then
        let s := s.modQp ioDie qp fun r =>
          let r := r.ofWords ws
          { r with lastCut := ((s.io ioDie).cycle : Int) - (r.srtt : Int) }
        let out := ((s.io ioDie).held.filter mine).map fun (f : Frag) => { f with qp := none, via := f.qp }
        let s : State := { s with wire := s.wire ++ out }
        .next (s.modIo ioDie fun d => { d with held := d.held.filter fun f => !mine f })
      else .next s

/-- QP_STATE_WRITE (R361, R362): firmware writes a state; RESET becomes READY, and ERROR becomes RESET. A state that is not
resident then stands in its backing slot. -/
def execQpStateWrite (ioDie qp : Nat) (words : List Word) (s : State) : Host.Outcome State Fault Refusal :=
  let old := tblGetD (s.io ioDie).qps qp {}
  let want := ((words.getD 0 0).extractLsb' 62 2).toNat
  let st := if old.st = 0 then (if want = 1 then 1 else 0) else if old.st = 2 && want = 0 then 0 else old.st
  let s := s.modIo ioDie fun d => { d with qps := tblSet d.qps qp { old.ofWords words with st := st } }
  let s := if old.st = 0 && st = 1 then s.residentQp ioDie qp else s
  let q := tblGetD (s.io ioDie).qps qp {}
  .next (if q.resident then s else s.saveQp q)

/-- QP_PEER_ERROR (R362): every message on the queue pair ends with delayed fault 48. -/
def execQpPeerError (ioDie qp : Nat) (s : State) : Host.Outcome State Fault Refusal :=
  match tblGet (s.io ioDie).qps qp with
  | some q =>
    .next (if q.st = 1 then s.failQp ioDie qp else s)
  | none => .next s

/-- KEY_UPDATE (R375): the key to a device is renewed, for this device the in-package key; messages held for it may
leave, and identities of messages under the old key are forgotten. -/
def execKeyUpdate (peer : Nat) (s : State) : Host.Outcome State Fault Refusal :=
  let s : State := { s with epochs := (List.range 8).foldl (fun t d => tblErase t (destKey peer d)) s.epochs }
  .next ((List.range 8).foldl (fun (s : State) (die : Nat) => s.modDie die fun d =>
    { d with ctlGot := d.ctlGot.filter fun x => x.1 != peer,
             dslots := d.dslots.map fun (x : Nat × DSlot) => (x.1, { x.2 with past := x.2.past.filter fun y => y.1 != peer }),
             out := d.out.map fun (m : Nat × OutMsg) => (m.1, if m.2.ddev = peer then { m.2 with keyTill := none } else m.2) }) s)

/-- SPDM_SESSION_CLOSE (R377). -/
def execSpdmSessionClose (peer : Nat) (s : State) : Host.Outcome State Fault Refusal :=
  .next { s with sessions := nsDel s.sessions peer }

/-- LK_RATE_WRITE (R382). -/
def execLkRateWrite (die index : Nat) (value : Word) (s : State) : Host.Outcome State Fault Refusal :=
  if 3 ≤ index || !s.dieLive die then .next s
  else .next (s.modDie die fun d => { d with rate := tblSet d.rate index (rateWrite (d.rateWord index) value) })

end Sys2Proof.Machine
end

