-- ==== Sys2Proof/Machine/Page.lean ====
section
/-! DEFINITION. The fault buffer and replay, invalidation, hotness and migration (R343 to R353): TLBI, FBRD, RPLY, PHOT,
PMIG and their events. -/

namespace Sys2Proof.Machine

/-! ### Records (R343, R345) -/

/-- The lowest free fault-buffer slot (R345). -/
def Die.freeFbuf (d : Die) : Option Nat := (List.range 8).find? fun k => (tblGet d.fbuf k).isNone

/-- Requesters that wait on one entry of a die's miss table wait on another instead (R343). -/
def State.retarget (s : State) (die old new : Nat) : State :=
  let f (t : Nat) : Nat := if t = old then new else t
  let park (st : PState) : PState := match st with
    | .parked r (.miss d ts) c => .parked r (.miss d (if d = die then ts.map fun t => (f t.1, t.2) else ts)) c
    | st => st
  let s : State := { s with
    procs := s.procs.map fun p => (p.1, { p.2 with st := park p.2.st }),
    clusters := s.clusters.map fun c => if c.1 / 16 = die then
      (c.1, { c.2 with engine := c.2.engine.map fun e => { e with miss := e.miss.map f } }) else c,
    pipes := s.pipes.map fun q => if coreDie (q.1 / 2) = die then
      (q.1, q.2.map fun (t : TileOp) => { t with miss := t.miss.map fun x => (f x.1, x.2) }) else q,
    responses := s.responses.map fun r => if r.1 = die then (r.1, { r.2 with miss := r.2.miss.map f }) else r }
  s.modDie die fun d =>
    { d with servers := d.servers.map fun q => (q.1, q.2.map fun (m : MsReq) => { m with miss := m.miss.map f }),
             out := d.out.map fun m => (m.1, { m.2 with miss := m.2.miss.map f }),
             commits := d.commits.map fun c => { c with miss := c.miss.map f } }

/-- A walk has found the page of a miss-table entry not present or BAD: the entry is recorded or dropped, or joins the one
whose extent holds it, and is freed (R343, R345, R346). -/
def State.notPresent (s : State) (die : Nat) (m : Miss) (bits : Nat) (bad : Bool) : State :=
  let base := m.base / 2 ^ bits * 2 ^ bits
  let holds (n : Miss) : Bool := n.ticket != m.ticket && n.ctx == m.ctx && n.bits ≥ bits && n.base / 2 ^ n.bits == base / 2 ^ n.bits
    && (match n.st with
      | .recorded _ | .dropped => true
      | _ => false)
  let set (s : State) (f : Miss → Miss) : State :=
    s.modDie die fun d => { d with misses := d.misses.map fun n => if n.ticket = m.ticket then f n else n }
  let drops (rs : List Requester) (s : State) : State := rs.foldl (fun s r => s.dropReq die m.ctx m.va r) s
  match (s.die die).misses.find? holds with
  | some n =>
    let more := m.reqs.filter fun r => !n.reqs.contains r
    let s := (s.retarget die m.ticket n.ticket).modDie die fun d =>
      { d with misses := (d.misses.filter fun x => x.ticket != m.ticket).map fun x =>
          if x.ticket = n.ticket then { x with reqs := x.reqs ++ more } else x }
    match n.st with
    | .recorded k => s.modDie die fun d =>
        { d with fbuf := tblMod d.fbuf k fun f => { f with nreq := min 65535 (f.nreq + more.length) } }
    | _ => drops more s
  | none =>
    match (s.die die).freeFbuf with
    | none => drops m.reqs (set s fun x => { x with st := .dropped, base := base, bits := bits })
    | some k =>
      let first := m.reqs.headD (.remote 0 0)
      let b := s.behind first
      let s := set s fun x => { x with st := .recorded k, base := base, bits := bits }
      let s := s.modDie die fun d =>
        let n := (d.fseq + 1) % 2 ^ 32
        { d with fseq := n,
                 fbuf := tblSet d.fbuf k { ctx := m.ctx, write := m.write, fetch := m.fetch, nonproc := b.2.2, bad := bad,
                                           nreq := min 65535 m.reqs.length, va := m.va, rank := b.1, core := b.2.1, seq := n } }
      s.notice die m.ctx b.1 b.2.1 (die * 2 ^ 8 + k) m.va

/-- PAGE_WALK (R343): the walk of a miss-table entry ends: its translation enters the TLB, or the page is recorded or
dropped. A migration holds the requests of its page (R353). -/
def execPageWalk (die index : Nat) (s : State) : Host.Outcome State Fault Refusal :=
  match (s.die die).misses[index]? with
  | none => .next s
  | some m =>
    if m.st != .walking || s.migrating die m.ctx m.base then .next s
    else match s.walk die m.ctx m.base with
      | .leaf bits _ l =>
        .next ((s.tlbFill die m.ctx m.base bits l).modDie die fun d =>
          { d with misses := d.misses.map fun n => if n.ticket = m.ticket then { n with st := .released false } else n })
      | .stop bits bad => .next (s.notPresent die m bits bad)

/-- A requester goes on, or ends, when its entry is released (R344, R347). (DEDUCED, log entry 36; unsafe.) -/
def State.releaseReq (s : State) (die ticket : Nat) (declined : Bool) (r : Requester) : State :=
  match r with
  | .proc pid =>
    if !declined then s
    else match s.proc pid with
      | some p =>
        match p.st with
        | .parked _ (.miss _ ts) _ =>
          match ts.lookup ticket with
          | some a => s.wakeWith pid { cause := 21, faddr := a }
          | none => s
        | _ => s
      | none => s
  | .engine c => s.modCluster c fun q =>
      { q with engine := match q.engine with
        | e :: t =>
          if !e.miss.contains ticket then e :: t
          else if declined then { e with stalled := false, miss := [], cause := 21, finished := true } :: t
          else { e with miss := e.miss.filter (· != ticket), stalled := e.miss.any (· != ticket) } :: t
        | [] => [] }
  | .tile c =>
    { s with pipes := tblMod s.pipes (2 * c) fun q => match q with
      | t :: l =>
        match t.miss.lookup ticket with
        | none => t :: l
        | some va =>
          if declined then { t with stalled := false, miss := [], cause := 21, bad := va } :: l
          else { t with miss := t.miss.filter fun x => x.1 != ticket, stalled := t.miss.any fun x => x.1 != ticket } :: l
      | [] => [] }
  | .server d n => s.modDie d fun x =>
      { x with servers := tblMod x.servers n fun q => match q with
        | m :: t =>
          if !m.miss.contains ticket then m :: t
          else if declined then { m with stalled := false, miss := [], cause := 21 } :: t
          else { m with miss := m.miss.filter (· != ticket), stalled := m.miss.any (· != ticket) } :: t
        | [] => [] }
  | .remote .. =>
    if !declined then s
    else
      let s := s.modDie die fun d =>
        { d with out := d.out.map fun (m : Nat × OutMsg) => (m.1, if m.2.miss.contains ticket then { m.2 with declined := true } else m.2),
                 commits := d.commits.map fun c => if c.miss.contains ticket then { c with declined := true } else c }
      { s with responses := s.responses.map fun r => if r.1 = die && r.2.miss.contains ticket then (r.1, { r.2 with declined := true }) else r }

/-- Accesses from other dies that waited on an entry which is gone perform, or end where the page service has declined
(R344, R347); an ordered flag waits for its turn besides (R164). -/
def State.commitsAgain (s : State) (die ticket : Nat) : State :=
  let free (c : Commit) : Bool := c.whole && c.frag.kind != 1 && c.miss.contains ticket &&
    (c.declined || c.miss.all fun t => (s.die die).misses.all fun n => n.ticket != t)
  ((s.die die).commits.filter free).foldl (fun s c => s.performCommit die { c with miss := [] }) s

/-- REQUESTER_RETRANSMIT (R344, R347): the requesters of a released entry retransmit, or end where the page service has
declined. -/
def execRequesterRetransmit (die index : Nat) (s : State) : Host.Outcome State Fault Refusal :=
  match (s.die die).misses[index]? with
  | none => .next s
  | some m =>
    match m.st with
    | .released declined =>
      let s := m.reqs.foldl (fun s r => s.releaseReq die m.ticket declined r) s
      let s := s.modDie die fun d => { d with misses := d.misses.filter fun n => n.ticket != m.ticket }
      .next (s.commitsAgain die m.ticket).recheckAll
    | _ => .next s

/-! ### Operands (R351) -/

/-- A die operand (R351): the image die and the logical die, or a fault. -/
def Env.dieOperand (e : Env) (v : Word) (go : Nat → Nat → Act) : Act :=
  if 8 ≤ v.toNat then e.trap 14 0 v
  else
    let d := (e.s0.ctx e.p.ctx).mapDie v.toNat
    if e.s0.dieLive d then go v.toNat d else e.trap 20 0 v

/-- An address operand (R351): the logical die of its owner, or a fault. -/
def Env.addrOperand (e : Env) (v : Word) (go : Nat → Act) : Act :=
  if v.toNat / 2 ^ 43 != e.s0.devId then e.trap 18 0 v
  else
    let d := (e.s0.ctx e.p.ctx).mapDie (v.toNat / 2 ^ 40 % 8)
    if e.s0.dieLive d then go d else e.trap 20 0 v

/-- The address lies in die scratch or the table window. -/
def inWindows (v : Word) : Bool := windowOff ≤ v.toNat % 2 ^ 40

/-- The wait of a FENCE.rel.device (R352). -/
def Env.quiet (e : Env) (go : Act) : Act := e.released 3 go

/-! ### TLBI (R349, R352) -/

/-- An invalidation reaches its die; the process parks until it completes there. -/
def Env.invalidate (e : Env) (die : Nat) (all : Bool) (va : Word) : Act :=
  let s := e.s.modDie die fun d => { d with invals := d.invals ++ [{ pid := e.pid, ctx := e.p.ctx, all := all, va := va }] }
  .parkNext s .memoryServer (.answer 0)

def execTlbiPg (x : Args) (s : State) : Host.Outcome State Fault Refusal :=
  perform eTlbi x s fun e => e.addrOperand e.a fun die =>
    e.quiet (if inWindows e.a then .next e.s else e.invalidate die false e.a)

def execTlbiAll (x : Args) (s : State) : Host.Outcome State Fault Refusal :=
  perform eTlbi x s fun e => e.dieOperand e.a fun img die =>
    e.quiet (e.invalidate die true (BitVec.ofNat 64 (img * 2 ^ 40)))

/-- The translation is named by the invalidation. (DEDUCED, log entry 37; safe.) -/
def Inval.names (i : Inval) (t : TlbEnt) : Bool :=
  t.ctx == i.ctx && (if i.all then t.base / 2 ^ 40 == i.va.toNat / 2 ^ 40 % 8
    else t.base / 2 ^ t.bits == i.va.toNat % 2 ^ 43 / 2 ^ t.bits)

/-- A store-buffer entry has translated an address that satisfies `f`; of a CLN or INV only the lines are known, and it may have.
(DEDUCED, log entry 37; safe.) -/
def SbWhat.translated (f : Nat → Bool) : SbWhat → Bool
  | .clean _ | .inval _ => true
  | w => w.stores.any fun x => f x.1

/-- A request of the context that was translated for addresses that satisfy `f` has not performed (R349): it stands in a store
buffer of the die, or is an engine's chunk of which some words have landed. (DEDUCED, log entry 37; safe.) -/
def State.storesWait (s : State) (die ctx : Nat) (f : Nat → Bool) : Bool :=
  (s.cores.any fun c => coreDie c.1 == die && c.2.sb.any fun e => e.ctx == ctx && e.what.translated f)
    || s.clusters.any fun c => c.1 / 16 == die && c.2.engine.any fun e => e.ctx == ctx && !e.early.isEmpty
      && (e.aim.getD []).any fun p => p.leaf.isSome && f p.va

/-- A synchronising access of the context at an address that satisfies `f` waits at its word (R137, R349).
(DEDUCED, log entry 37; safe.) -/
def State.wordsWait (s : State) (die ctx : Nat) (f : Nat → Bool) : Bool :=
  s.waiters.any fun w => 8 * w.1 / 2 ^ 37 == die && w.2.any fun x =>
    (s.proc x.pid).any fun p => p.ctx == ctx && f x.ea.toNat

/-- TLBI_COMPLETE (R349): the die's oldest invalidation completes once every request that was translated has performed;
L1 lines and TLB entries of the pages go. Where no translation is held, the page of A may have had any size, and stores
in its 1 GiB are waited for. (DEDUCED, log entry 37; safe.) -/
def execTlbiComplete (die : Nat) (s : State) : Host.Outcome State Fault Refusal :=
  match (s.die die).invals with
  | [] => .next s
  | i :: rest =>
    let ts := (s.die die).tlb.filter i.names
    let named (va : Nat) : Bool :=
      (if i.all then va / 2 ^ 40 % 8 == i.va.toNat / 2 ^ 40 % 8 else va / 65536 == i.va.toNat / 65536)
      || (!i.all && ts.isEmpty && va / 2 ^ 30 == i.va.toNat / 2 ^ 30)
      || ts.any fun t => t.base / 2 ^ t.bits == va % 2 ^ 43 / 2 ^ t.bits
    let moving := if i.all then (s.die die).migrs.any fun g => g.ctx == i.ctx && g.base / 2 ^ 40 == i.va.toNat / 2 ^ 40 % 8
      else s.migrating die i.ctx i.va.toNat
    if s.storesWait die i.ctx named || s.wordsWait die i.ctx named || moving then .next s
    else
      let s := ts.foldl (fun (s : State) (t : TlbEnt) => s.dropL1 die (leafPA die t t.base) (2 ^ t.bits)) s
      let s := s.modDie die fun d => { d with invals := rest, tlb := d.tlb.filter fun t => !i.names t }
      .next (s.wake i.pid)

/-! ### The fault buffer (R345, R352) -/

/-- Word N of a record (R345). -/
def FBuf.word (f : FBuf) (n : Nat) : Word :=
  let b (x : Bool) (i : Nat) : Nat := if x then 2 ^ i else 0
  match n with
  | 0 => BitVec.ofNat 64 (2 ^ 63 + b f.write 62 + b f.fetch 61 + b f.nonproc 60 + b f.bad 59 + f.ctx * 2 ^ 53 + f.nreq)
  | 1 => f.va
  | 2 => BitVec.ofNat 64 (f.rank * 2 ^ 32 + f.core * 2 ^ 21)
  | _ => BitVec.ofNat 64 f.seq

/-- The status word of FBRD (R345). -/
def State.fbufStatus (s : State) (die ctx : Nat) : Word :=
  let d := s.die die
  let held := (d.fbuf.map fun f => if f.2.ctx = ctx then 2 ^ (56 + f.1) else 0).sum
  BitVec.ofNat 64 (held + (if (tblGet d.drop ctx).isSome then 2 ^ 55 else 0) + tblGetD d.drop ctx 0)

/-- FBRD (R352). A slot held by another context reads as zero. -/
def execFbrd (x : Args) (s : State) : Host.Outcome State Fault Refusal :=
  perform eFbrd x s fun e => e.dieOperand e.a fun _ die =>
    let n := mN e.x % 4
    if 8 < e.b.toNat then e.trap 14 0 e.b
    else if e.b = 8 && n != 0 then e.trap 2
    else e.asked (
      if e.b = 8 then e.ret (e.s0.fbufStatus die e.p.ctx)
      else match tblGet (e.s0.die die).fbuf e.b.toNat with
        | some f => e.ret (if f.ctx = e.p.ctx then f.word n else 0)
        | none => e.ret 0)

/-- Entries of a die are released (R347, R352); the recorded ones leave their slots. -/
def State.releaseMisses (s : State) (die : Nat) (declined : Bool) (which : Miss → Bool) : State :=
  let slots := ((s.die die).misses.filter which).filterMap fun m => match m.st with
    | .recorded k => some k
    | _ => none
  s.modDie die fun d =>
    { d with fbuf := slots.foldl tblErase d.fbuf,
             misses := d.misses.map fun m => if which m then { m with st := .released declined } else m }

/-- The entry is recorded in a slot, for the context. -/
def Miss.inSlot (m : Miss) (ctx k : Nat) : Bool := m.ctx == ctx && m.st == .recorded k

/-- The entry waits for the page service of the context. -/
def Miss.unserved (m : Miss) (ctx : Nat) : Bool :=
  m.ctx == ctx && (match m.st with
    | .recorded _ | .dropped | .orphan => true
    | _ => false)

/-- RPLY.one and RPLY.decl (R352). -/
def replySlot (e : Env) (declined : Bool) : Act :=
  e.dieOperand e.a fun _ die =>
    if 8 ≤ e.b.toNat then e.trap 14 0 e.b
    else e.quiet (e.asked (.next (e.s.releaseMisses die declined fun m => m.inSlot e.p.ctx e.b.toNat)))

def execRplyOne (x : Args) (s : State) : Host.Outcome State Fault Refusal := perform eRply x s fun e => replySlot e false
def execRplyDecl (x : Args) (s : State) : Host.Outcome State Fault Refusal := perform eRply x s fun e => replySlot e true

/-- RPLY.all (R352): DROP and DROPN clear. (DEDUCED, log entry 36; unsafe.) -/
def execRplyAll (x : Args) (s : State) : Host.Outcome State Fault Refusal :=
  perform eRply x s fun e => e.dieOperand e.a fun _ die =>
    e.quiet (e.asked (.next ((e.s.releaseMisses die false fun m => m.unserved e.p.ctx).modDie die fun d =>
      { d with drop := tblErase d.drop e.p.ctx })))

/-! ### Hotness and migration (R350, R352, R353) -/

/-- PHOT (R352): MOD[0] is .clr. -/
def execPhot (x : Args) (s : State) : Host.Outcome State Fault Refusal :=
  perform ePhot x s fun e => e.addrOperand e.a fun die => e.asked (
    match if inWindows e.a then none else e.s0.tlbFind die e.p.ctx e.a.toNat with
    | none => e.ret 0
    | some t =>
      let v := (t.hot.zipIdx.map fun (h : Nat × Nat) => h.1 * 2 ^ (16 * h.2)).sum
      let s := if (mN e.x).testBit 0 then
          e.s.modDie die fun d => { d with tlb := d.tlb.map fun u =>
            if u.ctx = t.ctx && u.base = t.base && u.bits = t.bits then { u with hot := [0, 0, 0, 0] } else u }
        else e.s
      .next (s.modProc e.pid fun p => p.wrOp e.x.d.toNat (BitVec.ofNat 64 v)))

/-- A leaf with the PA and SLICE of PMIG's operand (R353). -/
def moveLeaf (l b : Word) : Word := (l &&& ~~~0x0001E01FFFFF0000) ||| (b &&& 0x0001E01FFFFF0000)

/-- The new frames of a migration overlap the old. -/
def framesOverlap (a b bits : Nat) : Bool := a < b + 2 ^ (bits - 16) && b < a + 2 ^ (bits - 16)

/-- PMIG (R353): the page becomes MIGRATING, and the process waits for its copy to end. -/
def execPmig (x : Args) (s : State) : Host.Outcome State Fault Refusal :=
  perform ePmig x s fun e =>
    match e.p.wakeVal with
    | some v => e.ret v
    | none => e.addrOperand e.a fun die =>
      if e.b &&& ~~~0x0001E01FFFFF0000 != 0 then e.trap 14 0 e.b
      else e.quiet (e.asked (
        let moving := (e.s0.die die).misses.find? fun m => m.st == .migrating && m.ctx == e.p.ctx
          && m.base / 2 ^ m.bits == e.a.toNat % 2 ^ 43 / 2 ^ m.bits
        match moving with
        | some m => .park e.s0 .memoryServer (.miss die [(m.ticket, e.a)])
        | none =>
          if inWindows e.a then e.ret 0
          else match e.s0.walk die e.p.ctx (e.a.toNat % 2 ^ 43) with
            | .stop _ _ => e.ret 0
            | .leaf bits at_ l =>
              let f := leafFrame e.b
              if f % 2 ^ (bits - 16) != 0 then e.trap 16 0 e.a
              else if framesOverlap f (leafFrame l) bits || !e.s0.ownsFrames die e.p.ctx f bits then e.trap 22 0 e.a
              else
                let base := e.a.toNat % 2 ^ 43 / 2 ^ bits * 2 ^ bits
                let k := e.s0.seq
                let g : Migr :=
                  { pid := e.pid, ctx := e.p.ctx, base := base, bits := bits, leafAt := at_, leaf := l,
                    newLeaf := moveLeaf l e.b, ticket := k }
                let m : Miss :=
                  { ticket := k, ctx := e.p.ctx, base := base, bits := bits, st := .migrating, va := e.a, write := false,
                    fetch := false, reqs := [] }
                let s : State := { e.s0 with seq := k + 1 }
                let s := s.modDie die fun d =>
                  { d with migrs := d.migrs ++ [g], misses := d.misses ++ [m] }
                .park s .memoryServer (.answer k)))

/-- Entries of a table in [src, src + n) copied to [dst, dst + n), which they replace. -/
def tblCopy {α : Type} (t : Tbl α) (src dst n : Nat) : Tbl α :=
  (t.filter fun e => decide (e.1 < dst))
    ++ ((t.filter fun e => decide (src ≤ e.1 ∧ e.1 < src + n)).map fun e => (e.1 - src + dst, e.2))
    ++ t.filter fun e => decide (dst + n ≤ e.1)

/-- Entries of a table outside [src, src + n). -/
def tblCut {α : Type} (t : Tbl α) (src n : Nat) : Tbl α := t.filter fun e => !decide (src ≤ e.1 ∧ e.1 < src + n)

/-- MIGRATION_COPY_DONE (R353): the die's oldest migration ends once every store translated under the old leaf has
performed and its context's soft budget lasts: the words move with their full-empty bits and with what waits at them, PA and
SLICE of the leaf as it then stands are written, the TLB entry goes, and held requesters retransmit.
(DEDUCED, log entry 37; safe.) -/
def execMigrationCopyDone (die : Nat) (s : State) : Host.Outcome State Fault Refusal :=
  match (s.die die).migrs with
  | [] => .next s
  | g :: rest =>
    let size := 2 ^ g.bits
    let old := hbmPA die (leafFrame g.leaf * 2 ^ 16)
    let new := hbmPA die (leafFrame g.newLeaf * 2 ^ 16)
    let inPage (va : Nat) : Bool := va % 2 ^ 43 / 2 ^ g.bits == g.base / 2 ^ g.bits
    if s.storesWait die g.ctx inPage || (!(s.ctx g.ctx).msHard && s.msOut die g.ctx) then .next s
    else
      let lines := ((s.die die).cache.map (·.1)).filter fun l => decide (old / 64 ≤ l ∧ l < (old + size) / 64 ∨ new / 64 ≤ l ∧ l < (new + size) / 64)
      let s := lines.foldl (fun s l => s.cacheDrop die l) (s.dropL1 die old size)
      let s : State := { s with mem := tblCopy s.mem old new size, empty := tblCopy s.empty (old / 8) (new / 8) (size / 8),
                                ecc := tblCopy s.ecc (old / 8) (new / 8) (size / 8),
                                waiters := tblCut (tblCopy s.waiters (old / 8) (new / 8) (size / 8)) (old / 8) (size / 8) }
      let tab := tblGetD (s.ctx g.ctx).tables (g.base / 2 ^ 40) 0
      let leafAt := hbmPA die (tab + g.leafAt)
      let s := s.write leafAt (natBytes 8 (moveLeaf (BitVec.ofNat 64 (s.readNat leafAt 8)) g.newLeaf).toNat)
      let s := (s.countMs die g.ctx size).modDie die fun d =>
        { d with migrs := rest, tlb := d.tlb.filter fun t => !(t.ctx == g.ctx && t.base == g.base && t.bits == g.bits),
                 misses := d.misses.map fun m => if m.ticket = g.ticket then { m with st := .released false } else m }
      .next ((s.modProc g.pid fun p => { p with wakeVal := some 1 }).wake g.pid)

end Sys2Proof.Machine
end

