-- ==== Sys2Proof/Machine/Process.lean ====
section
/-! DEFINITION. Creating and ending processes (R207 to R218, R233 to R236): set-up, recruitment, SPAWN, FORKR, join
cells, PUSHK, STOP, YIELD, SPRI, SLEEP, and the events of scheduling. -/

namespace Sys2Proof.Machine

/-! ### Set-up (R209) -/

/-- What a creator asks for. -/
structure Seed where
  ctx : Nat
  core : Nat
  kernel : Nat
  entry : Nat
  rank : Nat
  start : Word
  prio : Nat
  floor : Nat
  priv : Bool := false
  vclass : Bool := false
  fpc : Word := 0
  deriving DecidableEq, Repr

/-- Descriptor-pool bytes of a process (R220, R268). -/
def procRoom (depth : Nat) (vclass : Bool) : Nat := 576 + 192 * depth + if vclass then 29056 else 0

/-- Every process that holds a descriptor, and every child that a FORKR holds room for. -/
def State.occupants (s : State) : List Proc := s.procs.map (·.2) ++ s.forks.flatMap fun f => f.kids ++ f.pads

/-- A free run of `n` 192-byte units, the nearest to the pool's top (R209). (DESIGN CHOICE, log entry 43; unsafe.) -/
def spillPlace (pool : Nat) (areas : List (Nat × Nat)) (n : Nat) : Option Nat :=
  let fits (u : Nat) : Bool := u + n ≤ pool && areas.all fun a => u + n ≤ a.1 || a.1 + a.2 ≤ u
  ((0 :: areas.map fun a => a.1 + a.2).filter fits).foldl (fun (m : Option Nat) u => some (min u (m.getD u))) none

/-- CR.SPILL of an area of a pool whose top is the LOCAL offset `top` (R88, R209).
(DESIGN CHOICE, log entry 43; unsafe.) -/
def spillWord (top u n : Nat) : Word := BitVec.ofNat 64 ((top - 192 * u) * 2 ^ 32 + (top - 192 * (u + n)))

/-- a14 or a13 at set-up (R209): a section that the image omits gives length 0. -/
def State.sectionReg (s : State) (ctx core : Nat) (ps : BitVec 8) (off len : Nat) : AReg :=
  let va := BitVec.ofNat 64 (s.devId * 2 ^ 43 + (s.ctx ctx).imageDie (coreDie core) * 2 ^ 40 + off)
  if len = 0 then { ps := ps } else { ps := ps, len := BitVec.ofNat 40 len, base := va, ptr := va }

/-- The process that a creation makes, beside the processes `occ` (R209): none where the core is not live or lacks
room. -/
def State.newProc (s : State) (occ : List Proc) (q : Seed) : Option Proc :=
  let c := s.ctx q.ctx
  match tblGet c.kernels q.kernel with
  | none => none
  | some k =>
    match k.entries[q.entry]? with
    | none => none
    | some en =>
      let vclass := en.vclass || q.vclass
      let here := occ.filter fun p => p.core == q.core
      let mine := here.filter fun p => p.ctx == q.ctx
      let pool := (mine.map fun p => procRoom p.depth p.vclass).sum + procRoom en.depth vclass
      match spillPlace (c.spool / 192) (mine.map (·.area)) en.spillf with
      | none => none
      | some u =>
        if (s.core q.core).live && here.length < 1024 && pool ≤ c.dpool then
          some { ctx := q.ctx, rank := q.rank, core := q.core, kernel := q.kernel, entry := q.entry, priv := q.priv,
                 vclass := vclass, depth := en.depth, prio := q.prio, floor := q.floor, pc := q.start,
                 fpc := q.fpc &&& 0xBF00, spill := spillWord c.tlen u en.spillf, area := (u, en.spillf),
                 areg := [(13, s.sectionReg q.ctx q.core 0xBE k.dataOff k.dataLen),
                          (14, s.sectionReg q.ctx q.core 0xB0 k.constOff k.constLen)],
                 pool := [(0, ())] }
        else none

/-- Several processes at once, or none. -/
def State.newProcs (s : State) (occ : List Proc) : List Seed → Option (List Proc)
  | [] => some []
  | q :: t =>
    match s.newProc occ q with
    | none => none
    | some p => (s.newProcs (p :: occ) t).map (p :: ·)

/-- A new process takes its descriptor, its place in its kernel's count and its ready queue (R208, R218); one whose position
has lost its core since room was held for it is FAULTED at once (R387). -/
def State.enrol (s : State) (p : Proc) : State :=
  let pid := s.seq
  let s : State := { s with seq := pid + 1, procs := tblSet s.procs pid { p with wakeFault := none } }
  let s := s.modCtx p.ctx fun c => { c with kernels := tblMod c.kernels p.kernel fun k => { k with n := k.n + 1 } }
  match p.wakeFault with
  | some f => s.fail pid f p.pc false false false
  | none => s.makeReady pid

/-- A live process, or a child that a FORKR holds room for, holds the rank, here or on another module (R209, R411). -/
def State.rankHeld (s : State) (ctx rank : Nat) : Bool :=
  (s.rankHolder ctx rank).isSome || (s.forks.any fun f => f.kids.any fun k => k.ctx == ctx && k.rank == rank)
    || (tblGet (s.ctx ctx).farRanks rank).isSome

/-- The core can hold `n` more children of the seed (R211, R213). (DEDUCED, log entry 42; unsafe.) -/
def State.hasRoom (s : State) (q : Seed) (core n : Nat) : Bool :=
  (s.newProcs s.occupants (List.replicate n { q with core := core })).isSome

/-! ### Recruitment (R213) -/

/-- The walk of R213 from a core; `scope` 0 .cl, 1 .die, 2 .ctx. -/
def State.walkOrder (s : State) (core scope : Nat) : List Nat :=
  let d := coreDie core
  let row (d c : Nat) : List Nat := (List.range 16).map fun p => 256 * d + 16 * c + p
  ((List.range 15).map fun i => core / 16 * 16 + (corePos core + 1 + i) % 16)
    ++ (if 1 ≤ scope then (List.range 15).flatMap fun i => row d ((coreClu core + 1 + i) % 16) else [])
    ++ (if 2 ≤ scope then (((List.range 7).map fun i => (d + 1 + i) % 8).filter s.dieLive).flatMap fun d =>
          (List.range 16).flatMap (row d)
        else [])

/-- A core that recruitment may take. -/
def State.idleCore (s : State) (q : Seed) (core : Nat) : Bool :=
  (s.core core).live && (s.procs.all fun e => e.2.core != core || (e.2.st != .ready && e.2.st != .running))
    && s.hasRoom q core 16

/-- The shares of `w` children settle: a core that lacks room for its share leaves, and the shares grow, at most `fuel`
times. -/
def State.settleShares (s : State) (q : Seed) (w : Nat) (S : List Nat) : Nat → List Nat
  | 0 => S.take 1
  | fuel + 1 =>
    let share := (w + S.length - 1) / S.length
    let keep := S.take 1 ++ (S.drop 1).filter fun c => s.hasRoom q c share
    if keep.length = S.length then S else s.settleShares q w keep fuel

/-- recruit(ceil(w / 16)) of R213: the issuing core and the idle cores taken. -/
def State.recruit (s : State) (q : Seed) (core scope w : Nat) : List Nat :=
  let idle := ((s.walkOrder core scope).filter (s.idleCore q)).take ((w + 15) / 16 - 1)
  s.settleShares q w (core :: idle) (idle.length + 1)

/-! ### SPAWN and FORKR (R211, R212) -/

/-- The target of SPAWN and FORKR: p + 4 · sext(IMM32, 32). -/
def spawnTarget (x : Args) (p : Word) : Word := p + 4 * sextN x.ext.toNat 32

/-- A child's seed: its creator's kernel entry, priority, floor, class and CR.FPC fields. -/
def Env.childSeed (e : Env) (core rank : Nat) : Seed :=
  { ctx := e.p.ctx, core := core, kernel := e.p.kernel, entry := e.p.entry, rank := rank,
    start := spawnTarget e.x e.p.pc, prio := e.p.prio, floor := e.p.floor, vclass := e.p.vclass, fpc := e.p.fpc }

/-- Registers w`i`, w`i+1`, … of a new process. -/
def Proc.putW (p : Proc) (i : Nat) (vs : List Word) : Proc :=
  (vs.zipIdx i).foldl (fun p (v : Word × Nat) => p.put (.w v.2) v.1) p

/-- The creator's registers wF … w(F+n−1). -/
def Env.copied (e : Env) : List Word := (List.range (spawnN e.x)).map fun i => e.p.scalar (spawnF e.x + i)

/-- SPAWN (R211): its creator waits for the child with park reason join (R219). (DEDUCED, log entry 42; unsafe.) -/
def execSpawn (x : Args) (s : State) : Host.Outcome State Fault Refusal :=
  perform eSpawn x s fun e =>
    let srcs := (List.range (spawnN e.x)).filterMap fun i => e.p.name (spawnF e.x + i)
    let late := srcs.filter e.p.pending.contains
    if !late.isEmpty then .park e.s0 .fullBit (.landed late)
    else e.released 3 (
      let rank := e.b.toNat % 2 ^ 32
      let q := e.childSeed e.p.core rank
      let cands := match spawnPlace e.x with
        | 0 => [e.p.core]
        | 1 => if 2048 ≤ e.a.toNat then [] else [e.a.toNat]
        | _ => e.p.core :: e.s0.walkOrder e.p.core 2
      match cands.find? fun c => e.s0.hasRoom q c 1 with
      | none => e.trap 57 0
      | some c =>
        if e.s0.rankHeld e.p.ctx rank then e.trap 57 1
        else match e.s0.newProc e.s0.occupants { q with core := c } with
          | none => e.trap 57 0
          | some k => .parkNext ((e.s.enrol (k.putW 0 e.copied)).modProc e.pid fun p => p.wrOp e.x.d.toNat (BitVec.ofNat 64 c))
              .join .children)

/-- An operation on a REMOTE join cell (R214): the process parks until its response. `kind` 0 is JINIT's PUT. -/
def Env.remoteCell (e : Env) (a : AReg) (ea : Word) (kind opw : Nat) (v : Word) (perms : BitVec 8)
    (hold : State → State) : Act :=
  match e.s0.rcheck e.p.ctx a ea.toNat 8 perms 8 with
  | some c => e.trap c 0 ea
  | none => e.toOwner ea 0 fun dev die owner =>
      if 2048 ≤ (e.s0.die e.p.die).entries || 65535 ≤ e.p.cLoad || 65535 ≤ e.p.cStore then .stall e.s0
      else
        let k := e.s0.seq
        let op : Op := { kind := if kind = 0 then .put else .ramo, owner := owner, ea := ea, left := 1, precise := true }
        let s := { e.s0 with seq := k + 1 }.modProc e.pid fun p =>
          let p := if kind = 0 then { p with cStore := p.cStore + 1 } else { p with cLoad := p.cLoad + 1 }
          { p with ops := tblSet p.ops k op, phase := 1 }
        let m : OutMsg := { kind := kind, pid := e.pid, ctx := e.p.ctx, rank := e.p.rank, tok := k, ddev := dev, ddie := die,
                            addr := ea, opw := opw, payload := natBytes 8 v.toNat, priv := e.p.priv }
        let s := if kind = 0 then s.putMsg e.p.die e.pid owner m else (s.outbound e.p.die m).2
        .park (hold s) .memoryServer (.answer k)

/-- FORKR once its cell and ranks are checked (R212): its children with their registers, or none. -/
def Env.children (e : Env) (S : List Nat) (w N g rb : Nat) : Option (List Proc) :=
  let kid (k : Nat) : Seed := e.childSeed (S.getD (k % S.length) 0) (rb + k)
  (e.s0.newProcs e.s0.occupants ((List.range w).map kid)).map fun ps =>
    ps.zipIdx.map fun (p : Proc × Nat) =>
      let k := p.2
      let q := p.1.putW 0 ([k * g, min N ((k + 1) * g), k, w].map (BitVec.ofNat 64) ++ e.copied)
      { q with areg := tblSet q.areg 0 (e.areg (cOf .modw e.x)) }

/-- The rest of the room that a FORKR holds on its cores beside its children: each core's share is held whole (R213). -/
def Env.shareRest (e : Env) (S : List Nat) (w : Nat) (kids : List Proc) : List Proc :=
  let rest := (List.range ((w + S.length - 1) / S.length * S.length - w)).map fun i =>
    e.childSeed (S.getD ((w + i) % S.length) 0) 0
  (e.s0.newProcs (kids ++ e.s0.occupants) rest).getD []

/-- The children are created, D takes their number, and the creator waits for them with park reason join (R212, R219). -/
def Env.forked (e : Env) (s : State) (kids : List Proc) : Act :=
  .parkNext ((kids.foldl State.enrol s).modProc e.pid fun p => p.wrOp e.x.d.toNat (BitVec.ofNat 64 kids.length))
    .join .children

/-- FORKR (R212, R213). It wakes, with phase 1, when a REMOTE cell has answered; its children take their CR.FPC fields as they
are created (R38). -/
def execForkr (x : Args) (s : State) : Host.Outcome State Fault Refusal :=
  perform eForkr x s fun e =>
    let N := e.a.toNat
    let rb := e.b.toNat / 2 ^ 32
    let g := e.b.toNat % 2 ^ 32
    let w := (N + g - 1) / g
    let a := e.areg (cOf .modw e.x)
    let scope := spawnPlace e.x
    if e.p.phase = 1 then
      let kids := ((e.s0.forks.filter fun f => f.pid == e.pid).flatMap (·.kids)).map fun k => { k with fpc := e.p.fpc &&& 0xBF00 }
      e.forked { e.s with forks := e.s.forks.filter fun f => f.pid != e.pid } kids
    else if g = 0 || 65536 < w then e.trap 57 2
    else if w = 0 then e.ret 0
    else if a.space = spLocal || (a.space = spCluster && scope != 0) || (a.space = spGlobal && scope = 2) then
      e.trap 15 0 a.ptr
    else
      let make (go : List Proc → List Proc → Act) : Act :=
        e.released 3 (
          if 2 ^ 32 < rb + w || (List.range w).any fun k => e.s0.rankHeld e.p.ctx (rb + k) then e.trap 57 1
          else
            let S := e.s0.recruit (e.childSeed 0 0) e.p.core scope w
            match e.children S w N g rb with
            | none => e.trap 57 0
            | some kids => go kids (e.shareRest S w kids))
      if a.space = spRemote then
        match e.s0.rcheck e.p.ctx a a.ptr.toNat 8 (pRD ||| pWR ||| pAT) 8 with
        | some c => e.trap c 0 a.ptr
        | none => make fun kids pads =>
            e.remoteCell a a.ptr 4 0 (BitVec.ofNat 64 w) (pRD ||| pWR ||| pAT) fun s =>
              { s with forks := s.forks ++ [{ pid := e.pid, kids := kids, pads := pads }] }
      else e.access a a.ptr 8 a.space (pRD ||| pWR ||| pAT) 8 { rd := true, wr := true, at_ := true } fun ps =>
        if a.space = spGlobal && e.p.packet.isSome then e.trap 33
        else make fun kids _ => e.loadBytes ps fun old =>
          e.forked (e.count ps (e.s.spaceWrite e.p.core a.space ps (natBytes 8 (bytesNat old + w)))) kids

/-! ### Join cells (R214, R215) -/

/-- JINIT (R214): in LOCAL, CLUSTER and GLOBAL space as STF; in REMOTE space as PUT.g with the full bit set.
(DEDUCED, log entry 40; unsafe.) -/
def execJinit (x : Args) (s : State) : Host.Outcome State Fault Refusal :=
  perform eJinit x s fun e =>
    let a := e.areg e.x.a
    if e.p.phase = 1 then .next e.s
    else if a.space = spRemote then e.remoteCell a e.ea 0 (16 + 512) e.b pWR id
    else e.access a e.ea 8 a.space pWR 8 { wr := true } fun ps =>
      e.afterStores a.space (.next ((pieceWords ps).foldl (fun s w => s.setWord w true)
        (e.count ps (e.s.spaceWrite e.p.core a.space ps (lowBytes 8 e.b)))))

/-- The end of a JOIN whose cell held `old` (R215). -/
def joined (e : Env) (s : State) (old : Nat) : Act :=
  if old = 0 then e.trap 41 else if old = 1 then .next s else .stop s

/-- JOIN (R215). (DEDUCED, log entry 40; unsafe.) -/
def execJoin (x : Args) (s : State) : Host.Outcome State Fault Refusal :=
  perform eJoin x s fun e =>
    let a := e.areg e.x.a
    let perms := pRD ||| pWR ||| pAT
    if e.p.phase = 1 then joined e e.s (e.p.wakeVal.getD 0).toNat
    else e.released 4 (
      if a.space = spRemote then e.ramoTurn e.ea false (e.remoteCell a e.ea 4 (16 * 9) 0 perms id)
      else e.access a e.ea 8 a.space perms 8 { rd := true, wr := true, at_ := true } fun ps =>
        e.loadBytes ps fun bs =>
          let old := bytesNat bs
          e.ordered (logged ps) e.ea fun s =>
            if old = 0 then e.trap 41
            else joined e (e.count ps (s.spaceWrite e.p.core a.space ps (natBytes 8 (old - 1)))) old)

/-! ### Work deques (R216, R217) -/

/-- PUSHK (R216). -/
def execPushk (x : Args) (s : State) : Host.Outcome State Fault Refusal :=
  perform ePushk x s fun e =>
    e.access (e.areg e.x.a) e.ea 32 spLocal pRD 8 { rd := true } fun ps =>
      e.released 2 (
        if 256 ≤ (e.s0.core e.p.core).deque.length then e.trap 58
        else e.loadBytes ps fun bs =>
          let word (i : Nat) : Word := BitVec.ofNat 64 (bytesNat ((bs.drop (8 * i)).take 8))
          let t : TaskRec :=
            { ctx := e.p.ctx, kernel := e.p.kernel, entry := e.p.entry, start := word 0, rank := (word 1).toNat / 2 ^ 32,
              arg0 := word 2, arg1 := word 3, prio := e.p.prio, floor := e.p.floor, fpc := e.p.fpc &&& 0xBF00 }
          .next (e.s.modCore e.p.core fun c => { c with deque := c.deque ++ [t] }))

/-- A process from a task record, or the record of its failure (R217). -/
def State.fromTask (s : State) (core : Nat) (t : TaskRec) : State :=
  let lost (info : Nat) : State := s.holdRecord core
    { rank := t.rank, core := core, ctx := t.ctx, create := true, code := 57, info := info, epc := t.start }
  if s.rankHeld t.ctx t.rank then lost 1
  else match s.newProc s.occupants { ctx := t.ctx, core := core, kernel := t.kernel, entry := t.entry, rank := t.rank,
                                     start := t.start, prio := t.prio, floor := t.floor, fpc := t.fpc } with
    | none => lost 0
    | some p => s.enrol (p.putW 0 [t.arg0, t.arg1])

/-- The core has fewer than 8 READY or RUNNING processes (R217). -/
def State.underloaded (s : State) (core : Nat) : Bool :=
  (s.core core).live &&
    (s.procs.filter fun e => e.2.core == core && (e.2.st == .ready || e.2.st == .running)).length < 8

/-- Records of a context that is not RUNNING are neither taken nor stolen. -/
def State.taskReady (s : State) (t : TaskRec) : Bool := (s.ctx t.ctx).st == .running

/-- TASK_RECORD_TAKE (R217): the youngest record of the core's own deque. (DEDUCED, log entry 44; unsafe.) -/
def execTaskRecordTake (core : Nat) (s : State) : Host.Outcome State Fault Refusal :=
  match pickFirst s.taskReady (s.core core).deque.reverse with
  | none => .next s
  | some (t, rest) =>
    .next (if s.underloaded core then
        (s.modCore core fun c => { c with deque := rest.reverse }).fromTask core t
      else s)

/-- The deques that a core steals from, in order (R217). -/
def stealOrder (core : Nat) : List Nat :=
  (List.range 8).flatMap fun i =>
    [core / 16 * 16 + (corePos core + i + 1) % 16] ++ (if i < 7 then [core / 16 * 16 + (corePos core + 15 - i) % 16] else [])

/-- A deque has a record for a thief (R196): the only one is its owner's, where the owner asks for it too. -/
def State.stealable (s : State) (v : Nat) : Bool :=
  let n := ((s.core v).deque.filter s.taskReady).length
  if s.underloaded v then 2 ≤ n else 1 ≤ n

/-- TASK_RECORD_STEAL (R217): the oldest record of the first neighbour that holds one.
(DEDUCED, log entry 44; unsafe.) -/
def execTaskRecordSteal (core : Nat) (s : State) : Host.Outcome State Fault Refusal :=
  if !s.underloaded core || !(s.core core).deque.isEmpty then .next s
  else match (stealOrder core).find? s.stealable with
    | none => .next s
    | some v =>
      match pickFirst s.taskReady (s.core v).deque with
      | none => .next s
      | some (t, rest) => .next ((s.modCore v fun c => { c with deque := rest }).fromTask core t)

/-! ### STOP, YIELD, SPRI, SLEEP (R233 to R236) -/

/-- STOP (R233). -/
def execStop (x : Args) (s : State) : Host.Outcome State Fault Refusal :=
  perform eStop x s fun e =>
    if !e.s0.drained e.pid e.p then .park e.s0 .memoryServer .drained
    else match e.p.overflow, e.p.delayed with
      | some f, _ =>
        .raw ((e.s0.modProc e.pid fun p => { p with delayed := [], overflow := none }).fail e.pid f e.p.pc false false true)
      | none, f :: t => .fault (e.s0.modProc e.pid fun p => { p with delayed := t }) f
      | none, [] => .stop e.s

/-- YIELD (R234): it acts at the next boundary. -/
def execYield (x : Args) (s : State) : Host.Outcome State Fault Refusal :=
  perform eYield x s fun e => .next (e.upd fun p => { p with yielded := true })

/-- SPRI (R235). -/
def execSpri (x : Args) (s : State) : Host.Outcome State Fault Refusal :=
  perform eSpri x s fun e =>
    let n := e.a.toNat % 4
    if !e.p.priv && n < e.p.floor then e.trap 4 e.p.floor
    else .next (e.upd fun p => { p.wrOp e.x.d.toNat (BitVec.ofNat 64 e.p.prio) with prio := n, lowered := true })

/-- The tick target of SLEEP (R236). -/
def sleepTarget (x : Args) (now a : Nat) : Nat := if (mN x).testBit 0 then a else min (now + a) (2 ^ 64 - 1)

/-- SLEEP (R236). -/
def execSleep (x : Args) (s : State) : Host.Outcome State Fault Refusal :=
  perform eSleep x s fun e =>
    let now := (e.s.core e.p.core).tick
    let t := sleepTarget e.x now e.a.toNat
    if now < t then .parkNext e.s .sleep (.tick t) else .next e.s

/-! ### Events of scheduling -/

/-- FAULT_DELIVERY (R94, R229): a fault held for its slide, the fault with which a process woke, or a firmware cause
is taken at the boundary of a process that holds a slot. -/
def execFaultDelivery (pid : Nat) (s : State) : Host.Outcome State Fault Refusal :=
  match s.proc pid with
  | none => .next s
  | some p => .next (if p.st == .running then (s.before pid p).getD s else s)

/-- DELAYED_FAULT_DELIVERY (R166). -/
def execDelayedFaultDelivery (pid : Nat) (s : State) : Host.Outcome State Fault Refusal := .next (s.deliverDelayed pid)

/-- SLOT_TAKE (R223). -/
def execSlotTake (core : Nat) (s : State) : Host.Outcome State Fault Refusal := .next (s.slotTake core)

/-- PREEMPTION (R223), after what stands before it at the boundary (R226). -/
def execPreemption (core : Nat) (s : State) : Host.Outcome State Fault Refusal := .next ((s.dueFirst core).preempt core)

/-- QUANTUM_EXPIRY (R223), after what stands before it at the boundary (R226); READY processes take the free slots first, so
that one of the same priority waits only where it finds none. -/
def execQuantumExpiry (core slot : Nat) (s : State) : Host.Outcome State Fault Refusal :=
  .next (((List.range 8).foldl (fun s _ => s.slotTake core) (s.dueFirst core)).rotate core slot)

/-- PROCESS_FILL (R220). -/
def execProcessFill (core : Nat) (s : State) : Host.Outcome State Fault Refusal := .next (s.fillAll core)

/-- SLEEP_WAKE (R236). -/
def execSleepWake (pid : Nat) (s : State) : Host.Outcome State Fault Refusal :=
  match s.proc pid with
  | none => .next s
  | some p =>
    match p.st with
    | .parked .sleep _ _ => .next (s.recheck pid)
    | _ => .next s

/-- The process no longer waits at any word. -/
def State.leaveWords (s : State) (pid : Nat) : State :=
  { s with waiters := (s.waiters.map fun w => (w.1, w.2.filter fun x => x.pid != pid)).filter fun w => !w.2.isEmpty }

/-- The waits that the synchronising wait limit bounds: every park with reason full-bit (R137), those of BWT and BAW
(R336), and a GRED's wait for its result (R324). -/
def waitBounded : Reason → Wait → Bool
  | .fullBit, _ => true
  | _, .generation _ _ => true
  | _, .collective _ _ => true
  | _, _ => false

/-- WAIT_LIMIT_EXPIRY (R137): a bounded wait has lasted longer than the context's limit. A delivery that
waits for its slide ends as R94 and R229 give. -/
def execWaitLimitExpiry (pid : Nat) (s : State) : Host.Outcome State Fault Refusal :=
  match s.proc pid with
  | none => .next s
  | some p =>
    match p.st with
    | .parked r w since =>
      let limit := (s.ctx p.ctx).waitlim
      if !waitBounded r w || limit = 0 || (s.core p.core).cycle - since ≤ limit then .next s
      else match p.held with
        | some (f, epc) => .next (s.fail pid f epc true false false)
        | none => .next ((s.leaveWords pid).wakeWith pid { cause := 27 })
    | _ => .next s

/-- PROCESS_FREE (R218): a STOPPED process with nothing outstanding releases its descriptor, and what it held at flag
counters of this device. (DEDUCED, log entry 62; safe.) -/
def execProcessFree (pid : Nat) (s : State) : Host.Outcome State Fault Refusal :=
  match s.proc pid with
  | none => .next s
  | some p =>
    let mine (dev ctx rank : Nat) : Bool := dev == s.devId && ctx == p.ctx && rank == p.rank
    .next (if p.st == .stopped && !s.procBusy pid p then
        { s with procs := tblErase s.procs pid,
                 flags := s.flags.filter fun f => !mine f.sdev f.ctx f.rank,
                 flagSrcs := s.flagSrcs.filter fun f => !mine f.sdev f.ctx f.rank }
      else s)

end Sys2Proof.Machine
end

