-- ==== Sys2Proof/Machine/Queue.lean ====
section
/-! DEFINITION. Host work queues (R194 to R201), launches (R199, R210), QPOST (R205), and the host's accesses to device
memory (R201). -/

namespace Sys2Proof.Machine

/-! ### The queue object (R194, R195) -/

/-- Places of a queue: the 16 inner ones and the spill ring. -/
def HQueue.cap (q : HQueue) : Nat := 16 + q.quota

/-- QSTAT.STATE (R195, R197): 0 EMPTY, 1 HOLDING, 2 SPILLED, 3 FULL, 4 CLOSED. -/
def HQueue.state (q : HQueue) : Nat :=
  if q.closed then 4 else if q.recs.isEmpty then 0 else if q.cap ≤ q.recs.length then 3
  else if 16 < q.recs.length then 2 else 1

/-- QCFG and QSTAT as the host reads them (R197). -/
def HQueue.qcfg (q : HQueue) : Word :=
  BitVec.ofNat 64 ((if q.en then 2 ^ 63 else 0) + (if q.priv then 2 ^ 62 else 0) + q.ctx % 64 * 2 ^ 56
    + q.quota % 2 ^ 16 * 2 ^ 32 + (if q.ien then 2 ^ 15 else 0) + q.vec % 2048)
def HQueue.qstat (q : HQueue) : Word :=
  BitVec.ofNat 64 (q.accepted % 2 ^ 32 * 2 ^ 32 + q.refused % 2 ^ 20 * 2 ^ 12 + q.state)

/-- QCMPL and QCHEAD as the host reads them (R197). -/
def HQueue.qcmpl (q : HQueue) : Word := BitVec.ofNat 64 (q.base / 4096 % 2 ^ 52 * 4096 + q.log2n % 16)
def HQueue.qchead (q : HQueue) : Word := BitVec.ofNat 64 (q.head % 2 ^ 32)

/-- Eight bytes of a queue's page (R197): the post window is write-only, and what no register names reads as zero. -/
def HQueue.page (q : HQueue) (off : Nat) : Word :=
  match off with
  | 0x40 => q.qcfg
  | 0x48 => q.qstat
  | 0x50 => q.qcmpl
  | 0x58 => q.qchead
  | _ => 0

/-- The queue takes fault records in place of launch records (R240). -/
def State.faultSink (s : State) (n : Nat) : Bool :=
  n != 0 && (s.ctx (s.queue n).ctx).chans.any fun c => c.2.kind == 4 && c.2.type == 4 && c.2.target == n

/-- A completion entry joins those that wait for the ring (R200); a queue that takes fault records writes none, and a host's
record that enters it stays. (DESIGN CHOICE, log entry 80; unsafe.) -/
def State.complete (s : State) (n : Nat) (tag : Word) (seq status cause : Nat) : State :=
  if s.faultSink n then s
  else s.modQueue n fun q =>
    { q with waiting := q.waiting ++ [(tag, BitVec.ofNat 64 (seq % 2 ^ 32 * 2 ^ 32 + status * 256 + cause))] }

/-- The completion ring has a place beyond the entries that wait (R200). (DEDUCED, log entry 39; unsafe.) -/
def HQueue.ringFree (q : HQueue) : Bool :=
  ((q.written + q.waiting.length + 2 ^ 32 - q.head) % 2 ^ 32) < 2 ^ (q.log2n + 4)

/-- The queue's I/O die can be reached (R26). -/
def State.queueUp (s : State) (n : Nat) : Bool :=
  n < 4096 && (s.io (8 + n / 2048)).present && !(s.io (8 + n / 2048)).lost

/-- The oldest record leaves a CLOSED queue, discarded (R195, R200, R202); once none is left the queue is EMPTY and
unassigned. -/
def State.leaveClosed (s : State) (n : Nat) : State :=
  let q := s.queue n
  let s := match q.recs with
    | [] => s
    | r :: t => (s.modQueue n fun q => { q with recs := t }).complete n (r.getD 3 0) q.accepted 5 0
  if (s.queue n).recs.isEmpty then s.modQueue n fun q => { q with closed := false, priv := false } else s

/-- Eight bytes of BAR 0 (R197): a page for each queue. -/
def State.barWord (s : State) (a : Nat) : Word :=
  if s.funcUp && s.queueUp (a / 4096) then (s.queue (a / 4096)).page (a % 4096) else 0

/-- A record enters (R195): none where the queue is FULL. -/
def State.enterQueue (s : State) (n : Nat) (rec_ : List Word) : Option State :=
  let q := s.queue n
  if q.cap ≤ q.recs.length then none
  else
    let s := s.modQueue n fun q => { q with recs := q.recs ++ [rec_], accepted := (q.accepted + 1) % 2 ^ 32 }
    some (s.complete n (rec_.getD 3 0) (s.queue n).accepted 1 0)

/-- A record is refused on entry (R200). -/
def State.refuseEntry (s : State) (n : Nat) (tag : Word) (cause : Nat) : State :=
  let s := s.modQueue n fun q => { q with refused := (q.refused + 1) % 2 ^ 20 }
  s.complete n tag (s.queue n).refused 2 cause

/-! ### What the host does (R197, R201) -/

/-- WORK_QUEUE_POST (R201): a write to a post window; one that is not of 64 bytes has another number of words. -/
def execWorkQueuePost (queue : Nat) (words : List Word) (s : State) : Host.Outcome State Fault Refusal :=
  let q := s.queue queue
  if !s.funcUp || !s.queueUp queue then .next s
  else if words.length != 8 then .next (s.refuseEntry queue 0 1)
  else if !q.en || q.closed then .next (s.refuseEntry queue (words.getD 3 0) 30)
  else match s.enterQueue queue words with
    | some t => .next t
    | none => .next (s.refuseEntry queue (words.getD 3 0) 47)

/-- The registers take writes of QUOTA and QCMPL while the queue is EMPTY or CLOSED (R197). -/
def HQueue.idle (q : HQueue) : Bool := q.state == 0 || q.state == 4

/-- QCFG_WRITE (R197, R199): firmware grants a quota up to the request; how much its reserve allows is free. -/
def execQcfgWrite (queue : Nat) (value : Word) (s : State) : Host.Outcome State Fault Refusal :=
  if !s.funcUp || !s.queueUp queue then .next s
  else
    let want := (value.extractLsb' 32 16).toNat
    let grant := (Config.freeWord s.fresh).toNat % (want + 1)
    let idle := (s.queue queue).idle
    .next ({ s with fresh := s.fresh + 1 }.modQueue queue fun q =>
      { q with quota := if idle then grant else q.quota, ien := value.getLsbD 15, vec := (value.extractLsb' 0 11).toNat })

/-- QCMPL_WRITE (R197). -/
def execQcmplWrite (queue : Nat) (value : Word) (s : State) : Host.Outcome State Fault Refusal :=
  .next (if s.funcUp && s.queueUp queue && (s.queue queue).idle then
      s.modQueue queue fun q => { q with base := value.toNat / 4096 * 4096, log2n := value.toNat % 16 }
    else s)

/-- QCHEAD_WRITE (R197): HEAD always takes effect. -/
def execQcheadWrite (queue : Nat) (value : Word) (s : State) : Host.Outcome State Fault Refusal :=
  .next (if s.funcUp && s.queueUp queue then s.modQueue queue fun q => { q with head := value.toNat % 2 ^ 32 } else s)

/-- COMPLETION_ENTRY_WRITE (R200): the oldest waiting entry goes to the ring, never beyond its end, with its MSI-X
vector. -/
def execCompletionEntryWrite (queue : Nat) (s : State) : Host.Outcome State Fault Refusal :=
  let q := s.queue queue
  let size := 2 ^ (q.log2n + 4)
  match q.waiting with
  | [] => .next s
  | (a, b) :: rest =>
    if !s.funcUp || !s.queueUp queue || size ≤ (q.written + 2 ^ 32 - q.head) % 2 ^ 32 then .next s
    else
      let at_ := q.base + 16 * (q.written % size)
      let s := s.modQueue queue fun q => { q with waiting := rest, written := (q.written + 1) % 2 ^ 32 }
      .next { s with hostMem := tblSet (tblSet s.hostMem at_ a) (at_ + 8) b,
                     msix := if q.ien then s.msix ++ [q.vec] else s.msix }

/-- Every die that the host offsets name is live. -/
def State.hostSpan (s : State) (offset count : Nat) : Bool :=
  offset + count ≤ 2 ^ 40 && ((unitsOf (2 ^ 37) offset count).all s.dieLive)

/-- CXL_MEM_READ (R201, R135): the bytes and whether they carry poison; none where a die is absent. -/
def execCxlMemRead (offset count : Nat) (s : State) : Host.Outcome State Fault Refusal :=
  .next (if !s.funcUp then s
    else { s with cxlReply :=
      (if s.hostSpan offset count then some (s.read offset count, (s.badWord offset count).isSome) else none) })

/-- CXL_MEM_WRITE (R201, R169): at the owner die's home slice; to an absent die it completes with Unsupported Request. -/
def execCxlMemWrite (offset : Nat) (bytes : List Byte) (s : State) : Host.Outcome State Fault Refusal :=
  .next (if !s.funcUp then s
    else if s.hostSpan offset bytes.length then
      let die := offset / 2 ^ 37
      { (s.dropCopies die none (unitsOf 64 offset bytes.length)).write offset bytes (s.homeOf die offset) with
        cxlReply := some ([], false) }
    else { s with cxlReply := none })

/-! ### Host memory that the device reads (R201) and writes (R200, R182) -/

/-- A byte of host memory: the words that nobody has written read as zero. (DESIGN CHOICE, log entry 10; unsafe.) -/
def State.hostByte (s : State) (a : Nat) : Byte := (tblGetD s.hostMem (a / 8 * 8) 0).extractLsb' (8 * (a % 8)) 8

/-- Bytes and words of host memory (R201: kernel images, command parameters and context images). -/
def State.hostBytes (s : State) (a n : Nat) : List Byte := (List.range n).map fun i => s.hostByte (a + i)
def State.hostWord (s : State) (a : Nat) : Word := BitVec.ofNat 64 (bytesNat (s.hostBytes a 8))
def State.hostWords (s : State) (a n : Nat) : List Word := (List.range n).map fun i => s.hostWord (a + 8 * i)

/-- A byte and a word written to host memory. -/
def State.putHostByte (s : State) (a : Nat) (b : Byte) : State :=
  let w := tblGetD s.hostMem (a / 8 * 8) 0
  let k := 8 * (a % 8)
  { s with hostMem := tblSet s.hostMem (a / 8 * 8) ((w &&& ~~~((0xFF : Word) <<< k)) ||| (b.setWidth 64 <<< k)) }
def State.putHostWord (s : State) (a : Nat) (v : Word) : State :=
  ((natBytes 8 v.toNat).zipIdx).foldl (fun s x => s.putHostByte (a + x.2) x.1) s

/-! ### Launches (R199, R210) -/

/-- Live cores of the module, and of a die, in core-number order. -/
def State.liveCores (s : State) : List Nat := (List.range 2048).filter fun c => (s.core c).live && s.dieLive (c / 256)
def State.liveCoresOf (s : State) (die : Nat) : List Nat :=
  ((List.range 256).map (256 * die + ·)).filter fun c => (s.core c).live && s.dieLive (c / 256)

/-- The core of each instance under the PLACE word (R210): none where the placement names no live core. -/
def State.placement (s : State) (place : Word) (count : Nat) : Option (List Nat) :=
  let core := (place.extractLsb' 0 11).toNat
  let per := (place.extractLsb' 32 16).toNat
  let live := s.liveCores
  let cores : List (Option Nat) :=
    match (place.extractLsb' 62 2).toNat with
    | 0 => (List.range count).map fun i => live[i % live.length]?
    | 1 => List.replicate count (some core)
    | 2 => (List.range count).map fun i => (s.liveCoresOf (core / 256))[i % 256]?
    | _ => (List.range count).map fun i => if per = 0 then none else some (core + i / per)
  let got := cores.filterMap id
  if got.length = count && (got.all fun c => c < 2048 && (s.core c).live && s.dieLive (c / 256)) then some got else none

/-- Reserved fields of a launch record and its PLACE word are zero (R198, R210). -/
def launchShape (w : List Word) : Bool :=
  let a := w.getD 0 0
  let p := w.getD 2 0
  (a.extractLsb' 56 8) == 1 && (a.extractLsb' 52 3) == 0 && (a.extractLsb' 32 18) == 0
    && (p.extractLsb' 48 14) == 0 && (p.extractLsb' 11 21) == 0

/-- The seed of instance `i` of a launch record. -/
def launchSeed (ctx : Nat) (w : List Word) (start : Word) (i core : Nat) : Seed :=
  let a := w.getD 0 0
  let prio := (a.extractLsb' 50 2).toNat
  { ctx := ctx, core := core, kernel := (a.extractLsb' 16 16).toNat, entry := (a.extractLsb' 0 16).toNat,
    rank := ((w.getD 1 0).extractLsb' 32 32).toNat + i, start := start, prio := prio, floor := prio,
    priv := a.getLsbD 55 }

/-- A launch record taken by a context (R199, R210): its processes, or the cause that refuses it. -/
def State.unpackLaunch (s : State) (ctx : Nat) (qpriv : Bool) (w : List Word) : Nat ⊕ List Proc :=
  let a := w.getD 0 0
  let count := ((w.getD 1 0).extractLsb' 0 32).toNat
  let rank0 := ((w.getD 1 0).extractLsb' 32 32).toNat
  if !launchShape w then .inl 2
  else if a.getLsbD 55 && !qpriv then .inl 4
  else match tblGet (s.ctx ctx).kernels (a.extractLsb' 16 16).toNat with
    | none => .inl 28
    | some k =>
      match k.entries[(a.extractLsb' 0 16).toNat]? with
      | none => .inl 28
      | some en =>
        if count = 0 then .inl 28
        else if 2 ^ 21 < count || 2 ^ 32 < rank0 + count then .inl 51
        else match s.placement (w.getD 2 0) count with
          | none => .inl 51
          | some cores =>
            if (List.range count).any fun i => s.rankHeld ctx (rank0 + i) then .inl 51
            else
              let start : Word := BitVec.ofNat 64 (k.codeOff + en.codeOff)
              match s.newProcs s.occupants (cores.zipIdx.map fun (c : Nat × Nat) => launchSeed ctx w start c.2 c.1) with
              | none => .inl 51
              | some ps => .inr (ps.zipIdx.map fun (p : Proc × Nat) =>
                  p.1.putW 0 ((w.drop 4).take 4 ++ [BitVec.ofNat 64 p.2, BitVec.ofNat 64 count]))

/-- The group entries of a kernel become usable at its first launch (R318). -/
def State.activate (s : State) (ctx kernel : Nat) : State :=
  s.modCtx ctx fun c => { c with groups := c.groups.map fun g =>
    if g.2.kslot = kernel && g.2.state = 1 then (g.1, { g.2 with state := 2 }) else g }

/-- LAUNCH_RECORD_TAKE (R199): the oldest record of a queue whose context is BOUND or RUNNING. From a CLOSED queue it is
discarded (R195). On the management queue, a
record that is no command is refused. -/
def execLaunchRecordTake (queue : Nat) (s : State) : Host.Outcome State Fault Refusal :=
  let q := s.queue queue
  match q.recs with
  | [] => .next s
  | w :: rest =>
    let taken := s.modQueue queue fun q => { q with recs := rest }
    let kind := ((w.getD 0 0).extractLsb' 56 8).toNat
    if !s.queueUp queue || !q.ringFree then .next s
    else if q.closed then .next (s.leaveClosed queue)
    else if !q.en || s.faultSink queue then .next s
    else if queue = 0 then
      .next (if 0x10 ≤ kind && kind ≤ 0x18 then s else taken.complete 0 (w.getD 3 0) q.accepted 4 2)
    else if (s.ctx q.ctx).st != .bound && (s.ctx q.ctx).st != .running then .next s
    else match s.unpackLaunch q.ctx q.priv w with
      | .inl c => .next (taken.complete queue (w.getD 3 0) q.accepted 4 c)
      | .inr ps =>
        let t := ps.foldl State.enrol (taken.modCtx q.ctx fun c => { c with st := .running })
        .next ((t.activate q.ctx ((w.getD 0 0).extractLsb' 16 16).toNat).complete queue (w.getD 3 0) q.accepted 3 0)

/-! ### QPOST (R205) -/

/-- QPOST and QPOST.try: the process parks until the queue unit answers (R205). (DEDUCED, log entry 28; unsafe.) One that is
not accepted is no entry that QSTAT.REFUSED counts, and writes none. (DESIGN CHOICE, log entry 80; unsafe.) -/
def execQpost (x : Args) (s : State) : Host.Outcome State Fault Refusal :=
  perform eQpost x s fun e =>
    match e.s0.hcheck e.p.ctx e.p.rank e.a false [3] [4] with
    | some c => e.trap c
    | none =>
      let a := e.areg e.x.b
      e.access a a.ptr 64 spLocal pRD 8 { rd := true } fun ps => e.loadBytes ps fun bs =>
        let rec_ : List Word := (List.range 8).map fun i => BitVec.ofNat 64 (bytesNat ((bs.drop (8 * i)).take 8))
        if (rec_.getD 0 0).getLsbD 55 then e.trap 4
        else if e.p.packet.isSome then e.trap 33
        else e.released 4 (e.asked (
          let n := (e.s0.chan e.p.ctx (hIndex e.a)).target
          let q := e.s0.queue n
          if !q.en || q.closed || q.ctx != e.p.ctx then e.trap 30
          else match e.s.enterQueue n rec_ with
            | some t => .next (t.modProc e.pid fun p => p.wrOp e.x.d.toNat 1)
            | none => if (mN e.x).testBit 0 then e.ret 0 else e.trap 47))

end Sys2Proof.Machine
end

