-- ==== Sys2Proof/Machine/Loader.lean ====
section
/-! DEFINITION. The management commands create, kernel load and bind (R180, R202, R203), the loader (R206, R207, R317) and
the kernel's page tables (R207, R339). -/

namespace Sys2Proof.Machine

/-! ### Commands of queue 0 (R202) -/

/-- The oldest command record, where its KIND is the one named and the consumer may take it (R200, R202).
(DESIGN CHOICE, log entry 8; safe.) -/
def State.command (s : State) (kind : Nat) : Option (List Word) :=
  let q := s.queue 0
  match q.recs with
  | w :: _ =>
    if q.en && s.queueUp 0 && q.ringFree && ((w.getD 0 0).extractLsb' 56 8).toNat == kind then some w
    else none
  | [] => none

/-- The context that a command names. -/
def commandCtx (w : List Word) : Nat := ((w.getD 0 0).extractLsb' 48 8).toNat

/-- The command at the head of queue 0 is done: its record leaves and its entry is written, with SEQ. -/
def State.answer (s : State) (w : List Word) (seq : Option Nat) (cause : Nat) : State :=
  let s := s.modQueue 0 fun q => { q with recs := q.recs.tail }
  s.complete 0 (w.getD 3 0) (seq.getD (s.queue 0).accepted) (if cause = 0 then 3 else 4) cause

/-- CREATE (R180): the lowest number that no context holds. -/
def execCreate (s : State) : Host.Outcome State Fault Refusal :=
  match s.command 0x10 with
  | none => .next s
  | some w =>
    match (List.range 64).find? fun n => (s.ctx n).st == .empty with
    | none => .next (s.answer w none 51)
    | some n =>
      let c : Ctx := { st := .loading, tag := n, chans := [(0, { assigned := true, type := 4 })] }
      .next ({ s with ctxs := tblSet s.ctxs n c }.answer w (some n) 0)

/-! ### Memory that firmware prepares (R136, R338, R341) -/

/-- A range of memory made zero, full and correctable. -/
def State.clearRange (s : State) (a n : Nat) : State :=
  let out (k : Nat) : Bool := k < a || a + n ≤ k
  { s with mem := s.mem.filter fun c => out c.1, empty := s.empty.filter fun w => out (8 * w.1),
           ecc := s.ecc.filter fun w => out (8 * w.1),
           dies := s.dies.map fun (d : Nat × Die) => (d.1, { d.2 with cache := d.2.cache.filter fun l => out (64 * l.1) }) }

/-- Frames [f, f + n) of a die's HBM exist, belong to no context and hold no table area. -/
def State.framesFree (s : State) (die f n : Nat) : Bool :=
  f + n ≤ 2 ^ 21 && ((s.die die).frames.all fun x => x.1 < f || f + n ≤ x.1)
    && s.ctxs.all fun c => c.2.tables.all fun t =>
      c.2.mapDie t.1 != die || (f + n) * 65536 ≤ t.2 || t.2 + c.2.tabLen ≤ f * 65536

/-- Firmware gives frames to a context (R341). -/
def State.giveFrames (s : State) (ctx die f n : Nat) : State :=
  (s.clearRange (hbmPA die (65536 * f)) (65536 * n)).modDie die fun d =>
    { d with frames := (List.range n).foldl (fun t i => tblSet t (f + i) (ctx + 1)) d.frames }

/-! ### Kernel images (R206, R207) -/

/-- The fields of a kernel image. -/
structure KImage where
  code : List Byte
  const : List Byte
  data : List Byte
  entries : List KEntry
  /-- HOFF, TYPE, DEPTH -/
  chans : List (Nat × Nat × Nat)
  /-- FIRST, COUNT, STRIDE -/
  groups : List (Nat × Nat × Nat)
  deriving DecidableEq, Repr

/-- `n` bytes of an image from an offset as a number. -/
def imgNat (b : List Byte) (off n : Nat) : Nat := bytesNat ((b.drop off).take n)

/-- Records of `n` bytes. -/
def recordsOf (n : Nat) (b : List Byte) : List (List Byte) := (List.range (b.length / n)).map fun i => (b.drop (n * i)).take n

/-- An entry record, none where R207 refuses it. -/
def entryOf (codeLen : Nat) (r : List Byte) : Option KEntry :=
  let off := imgNat r 0 4
  let depth := imgNat r 4 1
  let cls := imgNat r 5 1
  let spill := imgNat r 6 2
  if off % 32 = 0 ∧ off < codeLen ∧ 1 ≤ depth ∧ depth ≤ 64 ∧ cls ≤ 1 ∧ spill ≠ 0 ∧ imgNat r 8 8 = 0 then
    some { codeOff := off, depth := depth, vclass := cls = 1, spillf := spill }
  else none

/-- The greatest depth of each channel type (R240). -/
def depthMax (type : Nat) : Nat := [65535, 4096, 16, 0, 65535].getD type 0

/-- A channel record, none where R207 refuses it. -/
def chanOf (r : List Byte) : Option (Nat × Nat × Nat) :=
  let type := imgNat r 4 1
  let depth := imgNat r 6 2
  if type ≤ 4 ∧ depth ≤ depthMax type ∧ imgNat r 5 1 = 0 ∧ imgNat r 8 8 = 0 then some (imgNat r 0 4, type, depth) else none

/-- A group template, none where R207 refuses it. -/
def groupOf (r : List Byte) : Option (Nat × Nat × Nat) :=
  let first := imgNat r 0 4
  let count := imgNat r 4 4
  let stride := imgNat r 8 4
  if imgNat r 12 4 = 0 ∧ 1 ≤ count ∧ first + (count - 1) * stride < 2 ^ 32 then some (first, count, stride) else none

/-- The section descriptors: KIND, OFFSET, LEN; none where one is refused. (DEDUCED, log entry 46; unsafe.) -/
def sectionsOf (b : List Byte) (n : Nat) : Option (List (Nat × Nat × Nat)) :=
  let ss := (List.range n).map fun i => (imgNat b (64 + 16 * i) 4, imgNat b (72 + 16 * i) 4, imgNat b (76 + 16 * i) 4)
  let zero := (List.range n).all fun i => imgNat b (68 + 16 * i) 4 == 0
  let inside := ss.all fun x => 1 ≤ x.1 && x.1 ≤ 6 && x.2.1 + x.2.2 ≤ b.length
  let apart := ss.zipIdx.all fun x => ss.zipIdx.all fun y =>
    x.2 == y.2 || (x.1.1 != y.1.1 && (x.1.2.1 + x.1.2.2 ≤ y.1.2.1 || y.1.2.1 + y.1.2.2 ≤ x.1.2.1))
  if zero && inside && apart && 64 + 16 * n ≤ b.length then some ss else none

/-- A kernel image read under R206, refused under R207. (DEDUCED, log entry 46; unsafe.) -/
def parseImage (mrev : Nat) (b : List Byte) : Option KImage :=
  let n := imgNat b 8 2
  let rev := imgNat b 6 1
  if imgNat b 0 4 != 0x4B394B49 || imgNat b 4 2 != 1 || (rev != 0 && rev != mrev) || imgNat b 7 1 != 0
      || imgNat b 10 54 != 0 || n < 2 || 6 < n then none
  else match sectionsOf b n with
    | none => none
    | some ss =>
      let sect (k : Nat) : Option (List Byte) := (ss.find? fun x => x.1 == k).map fun x => (b.drop x.2.1).take x.2.2
      match sect 1, sect 4 with
      | some code, some ents =>
        match (recordsOf 16 ents).mapM (entryOf code.length), (recordsOf 16 ((sect 5).getD [])).mapM chanOf,
            (recordsOf 16 ((sect 6).getD [])).mapM groupOf with
        | some es, some cs, some gs =>
          if code.length % 32 != 0 then none
          else some { code := code, const := (sect 2).getD [], data := (sect 3).getD [], entries := es, chans := cs,
                      groups := gs }
        | _, _, _ => none
      | _, _ => none

/-! ### The loader (R207, R317) -/

/-- The lowest `n` channel indices above 0 that are not assigned: none where the table has no room. -/
def freeChans (chans : Tbl Chan) (n : Nat) : Option (List Nat) :=
  let used := (chans.filter fun c => c.2.assigned).length
  if 2 ^ 20 < used + n then none
  else some (((List.range (used + n + 1)).filter fun i => i != 0 && !(tblGetD chans i {}).assigned).take n)

/-- The loader assigns a channel (R207, R237): its generation rises by one. -/
def State.assignChan (s : State) (ctx i type depth : Nat) : State :=
  s.modCtx ctx fun c =>
    let old := tblGetD c.chans i {}
    { c with chans := tblSet c.chans i { assigned := true, type := type, depth := depth, gen := (old.gen + 1) % 2 ^ 16 },
             ends := tblErase c.ends i }

/-- Group templates take a run of FREE entries from `base` (R317): none where a set breaks R316. -/
def State.addGroups (s : State) (ctx kslot base : Nat) : List (Nat × Nat × Nat) → Option State
  | [] => some s
  | (first, count, stride) :: t =>
    if s.legalSet ctx base first stride count then
      (s.modGroup ctx base fun _ =>
        { first := first, stride := stride, state := 1, kslot := kslot, count := count }).addGroups ctx kslot (base + 1) t
    else none

/-- The lowest run of `n` FREE group entries. -/
def State.groupRun (s : State) (ctx n : Nat) : Option Nat :=
  if n = 0 then some 0
  else (List.range (257 - n)).find? fun b => (List.range n).all fun i => (s.group ctx (b + i)).state == 0

/-- Bytes written over part of a list. -/
def patch (b : List Byte) (off : Nat) (v : List Byte) : List Byte :=
  if off + v.length ≤ b.length then b.take off ++ v ++ b.drop (off + v.length) else b

/-- Frames that a section takes. -/
def sectionFrames (len : Nat) : Nat := (len + 65535) / 65536

/-- Firmware's choice of a section's place (R207): its die offset lies in the kernel region on a 64 KiB boundary. -/
def regionOk (off len : Nat) : Bool :=
  off % 65536 == 0 && 0xFF00000000 ≤ off && off + 65536 * sectionFrames len ≤ 0xFFF8000000

def apart (a n b m : Nat) : Bool := n == 0 || m == 0 || a + n ≤ b || b + m ≤ a

/-- The ranges of die offsets that a kernel's sections take. -/
def Kernel.ranges (k : Kernel) : List (Nat × Nat) :=
  [(k.codeOff, 65536 * sectionFrames k.codeLen), (k.constOff, 65536 * sectionFrames k.constLen),
   (k.dataOff, 65536 * sectionFrames k.dataLen)]

/-- The frames that a kernel's sections take on each die: first and number. -/
def Kernel.framesOf (k : Kernel) : List (Nat × Nat) :=
  [(k.codeFrame, sectionFrames k.codeLen), (k.constFrame, sectionFrames k.constLen),
   (k.dataFrame, sectionFrames k.dataLen)]

/-- A kernel record with firmware's choice: die offsets and first frames of code, constants and data, and a slice. -/
def kernelOf (m : KImage) (offsets frames : List Nat) : Kernel :=
  { codeOff := offsets.getD 0 0, codeLen := m.code.length, constOff := offsets.getD 1 0, constLen := m.const.length,
    dataOff := offsets.getD 2 0, dataLen := m.data.length, entries := m.entries, codeFrame := frames.getD 0 0,
    constFrame := frames.getD 1 0, dataFrame := frames.getD 2 0, slice := frames.getD 3 0 % 16 }

/-- Firmware's choice can be taken. -/
def State.placeOk (s : State) (ctx : Nat) (k : Kernel) : Bool :=
  let all := ((s.ctx ctx).kernels.flatMap fun o => o.2.ranges)
  let own := k.ranges.zipIdx
  regionOk k.codeOff k.codeLen && regionOk k.constOff k.constLen && regionOk k.dataOff k.dataLen
    && (own.all fun x => (all.all fun y => apart x.1.1 x.1.2 y.1 y.2)
      && own.all fun y => x.2 == y.2 || apart x.1.1 x.1.2 y.1.1 y.1.2)
    && (k.framesOf.zipIdx.all fun x => (s.liveDies.all fun d => x.1.2 == 0 || s.framesFree d x.1.1 x.1.2)
      && k.framesOf.zipIdx.all fun y => x.2 == y.2 || apart x.1.1 x.1.2 y.1.1 y.1.2)

/-- An accepted image is installed in a slot (R207). -/
def State.install (s : State) (ctx slot : Nat) (m : KImage) (k : Kernel) (idx : List Nat) : State :=
  let s := (m.chans.zip idx).foldl (fun s (x : (Nat × Nat × Nat) × Nat) => s.assignChan ctx x.2 x.1.2.1 x.1.2.2) s
  let const := (m.chans.zip idx).foldl (fun b (x : (Nat × Nat × Nat) × Nat) =>
    patch b x.1.1 (natBytes 8 (s.handleOf ctx x.2 x.2).toNat)) m.const
  let s := s.liveDies.foldl (fun s d =>
    let s := k.framesOf.foldl (fun s f => s.giveFrames ctx d f.1 f.2) s
    let s := s.write (hbmPA d (65536 * k.codeFrame)) m.code
    let s := s.write (hbmPA d (65536 * k.constFrame)) const
    s.write (hbmPA d (65536 * k.dataFrame)) m.data) s
  s.modCtx ctx fun c => { c with kernels := tblSet c.kernels slot k }

/-- KERNEL_LOAD (R180, R202, R207): the image in host memory that words 1 and 2 name, and what firmware chooses. A context that
is not LOADING is refused with 2. (DESIGN CHOICE, log entry 79; unsafe.) -/
def execKernelLoad (offsets frames : List Nat) (s : State) : Host.Outcome State Fault Refusal :=
  match s.command 0x11 with
  | none => .next s
  | some w =>
    let ctx := commandCtx w
    let c := s.ctx ctx
    if c.st != .loading then .next (s.answer w none 2)
    else match parseImage (s.mrev.toNat % 256) (s.hostBytes (w.getD 1 0).toNat (w.getD 2 0).toNat) with
      | none => .next (s.answer w none 28)
      | some m =>
        let k := kernelOf m offsets frames
        match (List.range 64).find? fun n => (tblGet c.kernels n).isNone, freeChans c.chans m.chans.length,
            s.groupRun ctx m.groups.length with
        | some slot, some idx, some base =>
          match s.addGroups ctx slot base m.groups with
          | none => .next (s.answer w none 28)
          | some t => .next (if s.placeOk ctx k then (t.install ctx slot m k idx).answer w (some slot) 0 else s)
        | _, _, _ => .next (s.answer w none 28)

/-! ### The kernel's leaves (R207, R339, R340) -/

/-- A table area being filled: the top of what is free. -/
def State.entryAt (s : State) (die tab at_ : Nat) : Nat := s.readNat (hbmPA die (tab + at_)) 8

/-- The node that a pointer entry at `at_` leads to, taken from the top of the area where there is none. -/
def State.nodeAt (s : State) (die tab top at_ size : Nat) : Nat × Nat × State :=
  let e := s.entryAt die tab at_
  if e / 2 ^ 63 = 1 then (e / 256 % 2 ^ 18 * 256, top, s)
  else
    let node := (top - size) / size * size
    (node, node, s.write (hbmPA die (tab + at_)) (natBytes 8 (2 ^ 63 + node)))

/-- One 64 KiB leaf is written at a die offset, with the nodes that it needs. -/
def State.mapPage (s : State) (die tab top off leaf : Nat) : Nat × State :=
  let a := s.nodeAt die tab top (8 * levelIndex 1 off) 4096
  let b := a.2.2.nodeAt die tab a.2.1 (a.1 + 8 * levelIndex 2 off) 256
  (b.2.1, b.2.2.write (hbmPA die (tab + b.1 + 8 * levelIndex 3 off)) (natBytes 8 leaf))

/-- A kernel leaf (R207): P, LEAF, permissions, FMT 15. -/
def kernelLeaf (perm slice frame : Nat) : Nat := (0xC0 + perm) * 2 ^ 56 + 15 * 2 ^ 52 + slice * 2 ^ 45 + frame * 2 ^ 16

/-- The leaves of a section. -/
def State.mapSection (s : State) (die tab top off len frame perm slice : Nat) : Nat × State :=
  (List.range (sectionFrames len)).foldl (fun (a : Nat × State) i =>
    a.2.mapPage die tab a.1 (off + 65536 * i) (kernelLeaf perm slice (frame + i))) (top, s)

/-- Firmware maps the loaded kernels in a context's table area on a die: RD and XF, RD, RD WR AT. -/
def State.mapKernels (s : State) (ctx die tab len : Nat) : State :=
  ((s.ctx ctx).kernels.foldl (fun (a : Nat × State) k =>
    let k := k.2
    let a := a.2.mapSection die tab a.1 k.codeOff k.codeLen k.codeFrame 0x24 k.slice
    let a := a.2.mapSection die tab a.1 k.constOff k.constLen k.constFrame 0x20 k.slice
    a.2.mapSection die tab a.1 k.dataOff k.dataLen k.dataFrame 0x38 k.slice) (len, s)).2

/-! ### Bind (R203) -/

/-- Reserved fields and ranges of a bind block (R203). -/
def bindShape (b : List Word) : Bool :=
  let w (i : Nat) : Word := b.getD i 0
  let dmode := ((w 0).extractLsb' 54 2).toNat
  let tlen := ((w 1).extractLsb' 48 16).toNat
  let dpool := ((w 1).extractLsb' 32 16).toNat
  let spool := ((w 1).extractLsb' 16 16).toNat
  let slen := ((w 1).extractLsb' 0 16).toNat
  let logsz := ((w 7).extractLsb' 32 32).toNat
  let tabsz := ((w 7).extractLsb' 0 32).toNat
  let skind := ((w 41).extractLsb' 61 3).toNat
  let target := ((w 41).extractLsb' 17 40).toNat
  let npeer := ((w 41).extractLsb' 0 16).toNat
  b.length == 42 + npeer && (w 0).extractLsb' 0 54 == 0 && dmode != 3
    && 1 ≤ tlen && tlen ≤ 128 && 1 ≤ dpool && dpool ≤ 127 && tlen + dpool ≤ 128 && 1 ≤ spool && spool ≤ tlen && slen ≤ 1024
    && (w 4).extractLsb' 51 13 == 0 && (w 4).extractLsb' 17 15 == 0 && ((w 4).extractLsb' 0 17).toNat ≤ 65536
    && (dmode == 0) == (logsz == 0) && 1 ≤ tabsz && tabsz ≤ 64 && (dmode == 2 || w 8 == 0)
    && (w 41).extractLsb' 57 4 == 0 && !(w 41).getLsbD 16
    && (skind == 0 || skind == 1 || skind == 4 || skind == 6) && target ≤ targetMask skind
    && (skind != 4 || 1 ≤ target)
    && (b.drop 42).all fun p => p.extractLsb' 21 43 == 0

/-- The dies and positions of the planned map are live, and its peers have sessions (R203). -/
def State.planned (s : State) (b : List Word) : Bool :=
  let ldies := ((b.getD 0 0).extractLsb' 56 8).toNat
  ((List.range 8).all fun l => !ldies.testBit l || s.dieLive l)
    && ((List.range 2048).all fun n =>
      !(b.getD (9 + n / 64) 0).getLsbD (n % 64) || (s.dieLive (n / 256) && (s.core n).live))
    && (b.drop 42).all fun p => nsHas s.sessions p.toNat

/-- Die-scratch slices named are assigned to scratch and to no other context (R203); one of an absent die is refused too.
(DESIGN CHOICE, log entry 79; unsafe.) -/
def State.scratchOk (s : State) (ctx : Nat) (scr : BitVec 128) : Bool :=
  (List.range 128).all fun i => !scr.getLsbD i || (s.dieLive (i / 16) && !(s.sldc (i / 16)).getLsbD (i % 16)
    && s.ctxs.all fun c => c.1 == ctx || !c.2.scr.getLsbD i)

/-- A range of TCM or scratchpad lies beside those of the contexts already bound (R127). -/
def fits (used : List (Nat × Nat)) (total base n : Nat) : Bool :=
  base + n ≤ total && used.all fun u => apart base n u.1 u.2

/-- Some place of `n` bytes is free. -/
def hasGap (used : List (Nat × Nat)) (total n : Nat) : Bool :=
  (0 :: used.map fun u => u.1 + u.2).any fun b => fits used total b n

/-- TCM and scratchpad allotments of the other contexts. -/
def State.tcmUsed (s : State) (ctx : Nat) : List (Nat × Nat) :=
  (s.ctxs.filter fun c => c.1 != ctx && c.2.tlen != 0).map fun c => (c.2.tbase, c.2.tlen + c.2.dpool)
def State.padUsed (s : State) (ctx : Nat) : List (Nat × Nat) :=
  (s.ctxs.filter fun c => c.1 != ctx && c.2.tlen != 0).map fun c => (c.2.sbase, c.2.slen)

/-- A log that replay loads from host memory (R203, R190): the entries that the host has written there.
(DEDUCED, log entry 48; unsafe.) -/
def State.hostLog (s : State) (addr entries : Nat) : List LogEntry :=
  ((s.hostMem.filter fun w => addr ≤ w.1 + 7 && w.1 < addr + 32 * entries).map fun w => (w.1 - addr) / 32).eraseDups.map fun i =>
    let w (j : Nat) : Word := s.hostWord (addr + 32 * i + 8 * j)
    { rank := (w 0).toNat / 2 ^ 32, ord := (w 0).toNat % 2 ^ 32, kind := (w 1).toNat / 2 ^ 60,
      guard := (w 1).toNat % 8, value := w 2, seq := (w 3).toNat }

/-- Frames, as die, first frame and number, are given one grant at a time: none where one is not free. (DESIGN CHOICE, log entry 9; safe.) -/
def State.grant (s : State) (ctx : Nat) : List (Nat × Nat × Nat) → Option State
  | [] => some s
  | (d, f, n) :: t =>
    if s.dieLive d && s.framesFree d f n then (s.giveFrames ctx d f n).grant ctx t else none

/-- The context with the values of a bind block and firmware's bases (R178, R180, R203). -/
def State.bound (s : State) (c : Ctx) (b : List Word) (tbase sbase tab : Nat) : Ctx :=
  let w (i : Nat) : Word := b.getD i 0
  let f (i at_ n : Nat) : Nat := ((w i).toNat / 2 ^ at_) % 2 ^ n
  let dmode := f 0 54 2
  let entries := f 7 32 32 * 2048
  { c with
    st := .bound, tlen := 4096 * f 1 48 16, dpool := 4096 * f 1 32 16, spool := 4096 * f 1 16 16, slen := 4096 * f 1 0 16,
    tbase := tbase, sbase := sbase, wdLimit := f 2 32 32, wdCeil := f 2 32 32, waitlim := f 2 0 32, msb := f 3 32 32,
    lkb := f 3 0 32, iss := f 4 0 17, issHard := f 4 32 1 = 1, msHard := f 4 33 1 = 1, lkHard := f 4 34 1 = 1,
    scr := BitVec.ofNat 128 ((w 5).toNat + 2 ^ 64 * (w 6).toNat), dmode := dmode, logCap := entries,
    log := if dmode = 2 then s.hostLog (w 8).toNat entries else [],
    tabLen := 2 ^ 20 * f 7 0 32, tables := s.liveDies.map fun d => (d, tab),
    ack := s.liveDies.map fun d => (d, s.curVersion d), peers := (b.drop 42).map (·.toNat),
    token := { die := 0, away := (b.drop 42).any fun p => p.toNat < s.devId },
    chans := tblSet c.chans 0
      { tblGetD c.chans 0 {} with kind := f 41 61 3, target := f 41 17 40, depth := f 4 35 16 } }

/-- The bind block at an address of host memory (R203): its length stands in its word 41. -/
def State.bindBlock (s : State) (a : Nat) : List Word := s.hostWords a (42 + ((s.hostWord (a + 328)).extractLsb' 0 16).toNat)

/-- BIND (R180, R202, R203): the bind block in host memory that word 1 names, and what firmware chooses: TBASE, SBASE, the
HBM offset of the table area on every die, and grants of frames. Fewer than three bases: the areas cannot be given. A context
that is not LOADING is refused with 2. (DESIGN CHOICE, log entry 79; unsafe.) -/
def execBind (bases : List Nat) (grants : List (Nat × Nat × Nat)) (s : State) : Host.Outcome State Fault Refusal :=
  match s.command 0x12 with
  | none => .next s
  | some w =>
    let block := s.bindBlock (w.getD 1 0).toNat
    let ctx := commandCtx w
    let c := s.ctx ctx
    let tbase := bases.getD 0 0
    let sbase := bases.getD 1 0
    let tab := bases.getD 2 0
    let n := s.bound c block tbase sbase tab
    let skind := ((block.getD 41 0).extractLsb' 61 3).toNat
    let target := ((block.getD 41 0).extractLsb' 17 40).toNat
    let sinkOk := skind != 4 || ((s.queue target).en && (s.queue target).ctx == ctx)
    if c.st != .loading then .next (s.answer w none 2)
    else if !bindShape block then .next (s.answer w none 2)
    else if !s.planned block || !s.scratchOk ctx n.scr || !sinkOk || bases.length < 3
        || !hasGap (s.tcmUsed ctx) (2 ^ 19) (n.tlen + n.dpool) || !hasGap (s.padUsed ctx) (2 ^ 22) n.slen then
      .next (s.answer w none 51)
    else if tbase % 4096 = 0 && sbase % 4096 = 0 && tab % 65536 = 0 && fits (s.tcmUsed ctx) (2 ^ 19) tbase (n.tlen + n.dpool)
        && fits (s.padUsed ctx) (2 ^ 22) sbase n.slen
        && s.liveDies.all fun d => s.framesFree d (tab / 65536) (n.tabLen / 65536) then
      let t := { s with ctxs := tblSet s.ctxs ctx n }
      let t := t.liveDies.foldl (fun t d => (t.clearRange (hbmPA d tab) n.tabLen).mapKernels ctx d tab n.tabLen) t
      match t.grant ctx grants with
      | some t => .next (t.answer w none 0)
      | none => .next s
    else .next s

end Sys2Proof.Machine
end

