-- ==== Sys2Proof/Machine/Commands.lean ====
section
/-! DEFINITION. The management commands suspend, resume, save, restore, destroy and queue assign (R180 to R184, R202,
R204), and the writing of a context image. -/

namespace Sys2Proof.Machine

/-- SUSPEND (R180, R181). -/
def execSuspend (s : State) : Host.Outcome State Fault Refusal :=
  match s.command 0x13 with
  | none => .next s
  | some w =>
    let c := s.ctx (commandCtx w)
    .next (if c.st == .bound || c.st == .running then (s.suspendCtx (commandCtx w) 0).answer w none 0 else s.answer w none 2)

/-- Each version still unacknowledged gets a fresh window on each die (R188). -/
def State.freshWindows (s : State) (ctx : Nat) : State :=
  s.liveDies.foldl (fun s d =>
    let low := tblGetD (s.ctx ctx).ack d 0
    let new := (List.range (s.curVersion d - low)).map fun i => (ctx, low + 1 + i, ackWindow)
    s.modDie d fun x => { x with windows := (x.windows.filter fun w => w.1 != ctx) ++ new }) s

/-- Resumption (R180, R181). -/
def State.resumeCtx (s : State) (ctx : Nat) : State :=
  let s := s.modCtx ctx fun c => { c with st := if c.resumeBound then .bound else .running, causes := [] }
  let s := (s.procs.filter fun e => e.2.ctx == ctx && e.2.st == .suspended && e.2.halt.isNone).foldl
    (fun s e => s.makeReady e.1) s
  s.freshWindows ctx

/-- RESUME (R180, R181, R188). -/
def execResume (s : State) : Host.Outcome State Fault Refusal :=
  match s.command 0x14 with
  | none => .next s
  | some w =>
    .next (if (s.ctx (commandCtx w)).st == .suspended then (s.resumeCtx (commandCtx w)).answer w none 0
      else s.answer w none 2)

/-- QUEUE_ASSIGN (R202): the privileged mark is bit 0 of word 2. A queue that no page has, one still CLOSED, and a context that
is EMPTY or DRAINING are refused with 2. (DESIGN CHOICE, log entry 79; unsafe.) -/
def execQueueAssign (s : State) : Host.Outcome State Fault Refusal :=
  match s.command 0x18 with
  | none => .next s
  | some w =>
    let ctx := commandCtx w
    let n := (w.getD 1 0).toNat
    let st := (s.ctx ctx).st
    .next (if n = 0 || 4096 ≤ n || (s.queue n).en || (s.queue n).closed || st == .empty || st == .draining then s.answer w none 2
      else (s.modQueue n fun q =>
        { q with en := true, priv := (w.getD 2 0).getLsbD 0, ctx := ctx, closed := false, recs := [] }).answer w none 0)

/-! ### Destroy (R184) -/

/-- A queue closes (R195, R202): its records leave one at a time with STATUS 0x05, and it becomes EMPTY and unassigned at
once where it holds none. -/
def State.closeQueue (s : State) (n : Nat) : State :=
  s.modQueue n fun q => if q.recs.isEmpty then { q with en := false, priv := false } else { q with en := false, closed := true }

/-- Destroy (R184): processes stop, channels close, queues close. -/
def State.destroyCtx (s : State) (ctx : Nat) : State :=
  let s := s.modCtx ctx fun c => { c with st := .draining }
  let pids := (s.procs.filter fun e => e.2.ctx == ctx && e.2.st != .stopped).map (·.1)
  let s := { s with forks := s.forks.filter fun f => !pids.contains f.pid }
  let s := pids.foldl (fun s pid => ((s.leaveWords pid).modProc pid fun p =>
    { p with delayed := [], overflow := none, held := none, wakeFault := none, firm := [] }).stopProc pid) s
  let s := (s.ctx ctx).chans.foldl (fun s c => if c.2.assigned then s.closeChan ctx c.1 34 else s) s
  (s.queues.filter fun q => q.1 != 0 && q.2.en && q.2.ctx == ctx).foldl (fun s q => s.closeQueue q.1) s

/-- DESTROY (R180, R184, R202). -/
def execDestroy (s : State) : Host.Outcome State Fault Refusal :=
  match s.command 0x17 with
  | none => .next s
  | some w =>
    let st := (s.ctx (commandCtx w)).st
    .next (if st == .empty || st == .draining then s.answer w none 2
      else (s.destroyCtx (commandCtx w)).answer w none 0)

/-! ### Save (R182, R204) -/

/-- The contents of a piece of memory. -/
def State.region (s : State) (kind unit base n : Nat) : Region :=
  let at_ {α : Type} (g : Nat) (t : Tbl α) : Tbl α :=
    (t.filter fun c => base ≤ g * c.1 && g * c.1 < base + n).map fun c => (c.1 - base / g, c.2)
  { kind := kind, unit := unit, cells := at_ 1 s.mem, empty := at_ 8 s.empty, ecc := at_ 8 s.ecc,
    waits := at_ 8 s.waiters }

/-- The base of a piece of memory that a region names, for a context. -/
def State.regionBase (s : State) (c : Ctx) (kind unit : Nat) : Nat :=
  match kind with
  | 0 => tcmPA (coreCluster unit) (s.core unit).slot c.tbase
  | 1 => padPA unit c.sbase
  | 2 => hbmPA (unit / 2 ^ 21) (unit % 2 ^ 21 * 65536)
  | 3 => hbmPA (c.mapDie unit) (tblGetD c.tables unit 0)
  | _ => dieMemPA (unit / 16) (unit % 16 * 2 ^ 22)

/-- The pieces of memory that a context can address (R182): kind, unit and length. -/
def State.ctxRegions (s : State) (ctx : Nat) : List (Nat × Nat × Nat) :=
  let c := s.ctx ctx
  (s.liveCores.map fun n => (0, n, c.tlen))
    ++ (s.liveDies.flatMap fun d => (List.range 16).map fun k => (1, 16 * d + k, c.slen))
    ++ (s.liveDies.flatMap fun d => ((s.die d).frames.filter fun f => f.2 == ctx + 1).map fun f => (2, d * 2 ^ 21 + f.1, 65536))
    ++ (c.tables.map fun t => (3, t.1, c.tabLen))
    ++ ((List.range 128).filter fun i => c.scr.getLsbD i).map fun i => (4, i, 2 ^ 22)

/-- The image of a context. -/
def State.imageOf (s : State) (ctx : Nat) : Image :=
  let c := s.ctx ctx
  let mine (pid : Nat) : Bool := (s.proc pid).any fun p => p.ctx == ctx
  -- a fault record that waits at its endpoint is still its process's own (R230)
  let sent (m : Msg) : Bool := s.cores.any fun k => m.pid == 0 && k.2.recFlight != 0 && k.2.recFlight == m.ticket
  { ctx := { c with saveTo := none, causes := [], ends := c.ends.map fun e => (e.1, { e.2 with sends := e.2.sends.filter fun m => !sent m }) },
    procs := s.procs.filter fun e => e.2.ctx == ctx, seq := s.seq,
    regions := (s.ctxRegions ctx).map fun r => s.region r.1 r.2.1 (s.regionBase c r.1 r.2.1) r.2.2,
    bars := s.cores.flatMap fun k => (k.2.bars.filter fun b => b.2.state != 0 && b.2.owner == ctx).map fun b => (k.1, b.1, b.2),
    dies := s.liveDies, fwrev := (tblGetD s.map 1 0).toNat / 2 ^ 32, mrev := s.mrev.toNat % 256, dev := s.devId,
    forks := s.forks.filter fun f => mine f.pid,
    records := s.cores.flatMap fun k => (k.2.records.filter fun r => r.1.ctx == ctx).map fun r => (k.1, r.1, r.2),
    tasks := s.cores.flatMap fun k => (k.2.deque.filter fun t => t.ctx == ctx).map fun t => (k.1, t),
    flags := s.flags.filter fun f => f.ctx == ctx, flagSrcs := s.flagSrcs.filter fun f => f.ctx == ctx }

/-- The header and the section table of an image (R204): one section of each kind, in order, their lengths firmware's own.
(DESIGN CHOICE, log entry 75; unsafe.) -/
def headerOf (fwrev mrev : Nat) (dies : List Nat) (lens : List Nat) : List Word :=
  let offs := lens.zipIdx.map fun x => (x.1, 3 + (lens.take x.2).sum)
  [64 * (3 + lens.sum), fwrev % 2 ^ 32 + mrev % 256 * 2 ^ 32 + (dies.map (2 ^ ·)).sum * 2 ^ 40 + lens.length * 2 ^ 48,
   0, 0, 0, 0, 0, 0].map (BitVec.ofNat 64)
    ++ (offs.zipIdx.flatMap fun x => [x.2 + 1, x.1.2 % 2 ^ 32 + x.1.1 % 2 ^ 32 * 2 ^ 32]).map (BitVec.ofNat 64)

/-- SAVE (R180, R182): the command stays at the head of its queue until the image is written. A context that is not SUSPENDED
is refused with 2. (DESIGN CHOICE, log entry 79; unsafe.) -/
def execSave (s : State) : Host.Outcome State Fault Refusal :=
  match s.command 0x15 with
  | none => .next s
  | some w =>
    let ctx := commandCtx w
    .next (if (s.ctx ctx).st != .suspended then s.answer w none 2
      else s.modCtx ctx fun c => { c with saveTo := some ((w.getD 1 0).toNat, (w.getD 2 0).toNat) })

/-- CONTEXT_IMAGE_WRITE (R182): no operation of the context is outstanding. The lengths of an image's sections are firmware's
own (R204), hence free; an image that does not fit refuses the save. -/
def execContextImageWrite (ctx : Nat) (s : State) : Host.Outcome State Fault Refusal :=
  match (s.ctx ctx).saveTo, s.command 0x15 with
  | some (addr, len), some w =>
    if s.ctxBusy ctx || commandCtx w != ctx then .next s
    else
      let lens := (List.range 7).map fun i => (Config.freeWord (s.fresh + i)).toNat % 2 ^ 28
      let t := { s with fresh := s.fresh + 7 }.modCtx ctx fun c => { c with saveTo := none }
      let m := s.imageOf ctx
      let t' := (headerOf m.fwrev m.mrev m.dies lens).zipIdx.foldl (fun t x => t.putHostWord (addr + 8 * x.2) x.1) t
      .next (if len < 64 * (3 + lens.sum) then t.answer w none 14
        else { t' with images := tblSet t'.images addr m }.answer w none 0)
  | _, _ => .next s

/-! ### Restore (R183) -/

/-- Frames that the image holds on a source die. -/
def Image.framesOn (m : Image) (die : Nat) : List Nat :=
  (m.regions.filter fun r => r.kind == 2 && r.unit / 2 ^ 21 == die).map fun r => r.unit % 2 ^ 21

/-- Firmware's place for the frames of source dies on their target dies: a shift in units of 1 GiB for each, the least
that finds every frame free beside those already placed. -/
def State.shifts (s : State) (m : Image) (table : List Nat) :
    List Nat → List (Nat × Nat) → List (Nat × Nat × Nat) → Option (List (Nat × Nat))
  | [], done, _ => some done
  | d :: t, done, taken =>
    let to_ := table.getD d 255
    let fs := m.framesOn d
    let ok (k : Nat) : Bool := fs.all fun f => s.framesFree to_ (f + k * 2 ^ 14) 1
      && taken.all fun x => x.1 != to_ || x.2.1 + x.2.2 ≤ f + k * 2 ^ 14 || f + k * 2 ^ 14 < x.2.1
    match (List.range 128).find? ok with
    | none => none
    | some k => s.shifts m table t (done ++ [(d, k)]) (taken ++ fs.map fun f => (to_, f + k * 2 ^ 14, 1))

/-- Positions from that of a source core on, on its die, in the order of R183. -/
def placesFrom (core die : Nat) : List Nat :=
  let c := coreClu core
  ((List.range 16).map fun i => 256 * die + 16 * c + (corePos core + i) % 16)
    ++ (List.range 15).flatMap fun i => (List.range 16).map fun p => 256 * die + 16 * ((c + 1 + i) % 16) + p

/-- Descriptor, token and ticket numbers of an image are moved beyond those in use. -/
def moveId (k n : Nat) : Nat := if n = 0 then 0 else n + k

def Msg.moved (k : Nat) (m : Msg) : Msg := { m with ticket := moveId k m.ticket, pid := moveId k m.pid, rsv := m.rsv.map (moveId k) }
def Rcv.moved (k : Nat) (r : Rcv) : Rcv := { r with ticket := moveId k r.ticket, pid := moveId k r.pid, rsv := r.rsv.map (moveId k) }
def ChanEnd.moved (k : Nat) (e : ChanEnd) : ChanEnd :=
  { sends := e.sends.map (Msg.moved k), rcvs := e.rcvs.map (Rcv.moved k), held := e.held.map (Msg.moved k),
    matched := e.matched.map fun x => (x.1.moved k, x.2.moved k), rebind := e.rebind.map (moveId k),
    far := 0 }
def Collective.moved (k : Nat) (c : Collective) : Collective :=
  { c with parts := c.parts.map fun p => { p with pid := moveId k p.pid } }
/-- A process's counts of PUTs and flags at its own device go with it to another (R164). -/
def Proc.onDevice (old new : Nat) (p : Proc) : Proc :=
  if old = new then p
  else
    let key (d : Nat) : Nat := if d = old then new else d
    { p with putCount := p.putCount.foldl (fun t x => tblSet t (16 * key (x.1 / 16) + x.1 % 16) x.2) [],
             fseq := p.fseq.foldl (fun t x => tblSet t (key x.1) x.2) [],
             spoiled := p.spoiled.foldl (fun t x => nsAdd t (key x.1)) [] }
def Proc.moved (k cycle : Nat) (p : Proc) : Proc :=
  { p with token := moveId k p.token, resume := p.resume.map fun g => { g with token := moveId k g.token }, st := match p.st with
      | .parked r (.chan t) _ => .parked r (.chan (moveId k t)) cycle
      | .parked r (.answer t) _ => .parked r (.answer (moveId k t)) cycle
      | .parked r w _ => .parked r w cycle
      | st => st }

/-- The processes of an image at their new places, with new spill areas (R183, R209): the same position of the target die
where it is live, else the first live one with room that follows; none where one finds no place. -/
def State.placeProcs (s : State) (ctx : Nat) (c : Ctx) (table : List Nat) : List (Nat × Proc) →
    List (Nat × Proc × Proc) → Option (List (Nat × Proc × Proc))
  | [], done => some done
  | (pid, p) :: t, done =>
    let die := table.getD (coreDie p.core) 255
    let here (core : Nat) : List Proc := s.occupants.filter (fun q => q.core == core) ++
      (done.map (·.2.2)).filter fun q => q.core == core
    let room (core : Nat) : Option Nat :=
      let mine := (here core).filter fun q => q.ctx == ctx
      let pool := (mine.map fun q => procRoom q.depth q.vclass).sum + procRoom p.depth p.vclass
      if (s.core core).live && (here core).length < 1024 && pool ≤ c.dpool then
        spillPlace (c.spool / 192) (mine.map (·.area)) p.area.2
      else none
    let home := 256 * die + p.core % 256
    match (if (s.core home).live then [home] else placesFrom p.core die).findSome? fun k => (room k).map fun u => (k, u) with
    | none => none
    | some (k, u) =>
      let moved := p.spill == spillWord c.tlen p.area.1 p.area.2
      let q : Proc := { p.moved s.seq (s.core k).cycle with
        ctx := ctx, core := k, area := (u, p.area.2),
        spill := if moved then spillWord c.tlen u p.area.2 else p.spill,
        resident := false, halt := none, haltDue := false,
        pool := (List.range p.res).foldl (fun t i => nsAdd t (p.oldest + i)) p.pool }
      s.placeProcs ctx c table t (done ++ [(pid, p, q)])

/-- A region's contents at a base. -/
def State.putRegion (s : State) (base n : Nat) (r : Region) : State :=
  let s := s.clearRange base n
  { s with mem := r.cells.foldl (fun m c => memPut m (base + c.1) c.2) s.mem,
           empty := r.empty.foldl (fun t w => nsAdd t (base / 8 + w.1)) s.empty,
           ecc := r.ecc.foldl (fun t w => nsAdd t (base / 8 + w.1)) s.ecc,
           waiters := r.waits.foldl (fun t w => tblSet t (base / 8 + w.1) w.2) s.waiters }

/-- The leaves of a page table on a die, moved by a shift of frames; 1,024 entries at level 1. -/
def State.shiftLeaves (s : State) (die tab len k : Nat) (node count : Nat) : Nat → State
  | 0 => s
  | fuel + 1 =>
    (List.range count).foldl (fun s i =>
      let at_ := node + 8 * i
      let e := s.entryAt die tab at_
      if len < at_ + 8 || e / 2 ^ 63 = 0 then s
      else if e / 2 ^ 62 % 2 = 1 then
        s.write (hbmPA die (tab + at_)) (natBytes 8 (e / 2 ^ 37 * 2 ^ 37 + (e / 2 ^ 16 % 2 ^ 21 + k * 2 ^ 14) % 2 ^ 21 * 2 ^ 16 + e % 2 ^ 16))
      else s.shiftLeaves die tab len k (e / 256 % 2 ^ 18 * 256) (if fuel = 2 then 512 else 32) fuel) s

/-- A place for a table area on a die, beside what is taken: 64 MiB steps. -/
def State.tableRoom (s : State) (die len : Nat) (taken : List (Nat × Nat)) : Option Nat :=
  ((List.range 2048).map (· * 2 ^ 26)).find? fun b =>
    s.framesFree die (b / 65536) (len / 65536) && taken.all fun t => t.1 != die || t.2 + 2 ^ 26 ≤ b || b + 2 ^ 26 ≤ t.2

/-- Table areas of the address dies on their target dies. -/
def State.newTables (s : State) (len : Nat) (to_ : Nat → Nat) : List Nat → List (Nat × Nat × Nat) → Option (List (Nat × Nat × Nat))
  | [], done => some done
  | i :: t, done =>
    match s.tableRoom (to_ i) len (done.map fun x => (x.2.1, x.2.2)) with
    | none => none
    | some b => s.newTables len to_ t (done ++ [(i, to_ i, b)])

/-- Where what belongs to a source core goes (R183): the same position of the target die where it is live, else where the
core's first process goes, else the first live position that follows. (DEDUCED, log entry 47; unsafe.) -/
def State.landing (s : State) (table : List Nat) (ps : List (Nat × Proc × Proc)) (core : Nat) : Nat :=
  let die := table.getD (coreDie core) 255
  if (s.core (256 * die + core % 256)).live then 256 * die + core % 256
  else match ps.find? fun x => x.2.1.core == core with
    | some x => x.2.2.core
    | none => ((placesFrom core die).find? fun k => (s.core k).live).getD (256 * die + core % 256)

/-- Some barrier of the image would meet another with its number on one core (R327).
(DEDUCED, log entry 47; unsafe.) -/
def State.barsMeet (s : State) (m : Image) (table : List Nat) (ps : List (Nat × Proc × Proc)) : Bool :=
  let places := m.bars.map fun b => (s.landing table ps b.1, b.2.1)
  places.eraseDups.length != places.length || places.any fun b => (s.bar b.1 b.2).state != 0

/-- The die-scratch slices of an image on the target dies (R183). -/
def Image.scrOn (m : Image) (to_ : Nat → Nat) : BitVec 128 :=
  (List.range 128).foldl (fun b i => if m.ctx.scr.getLsbD i then
    b ||| BitVec.ofNat 128 (2 ^ (16 * to_ (i / 16) + i % 16)) else b) 0

/-- Where a region of an image goes: its base on the target module. CLUSTER windows and die-scratch slices of two image dies
that go to one target die share one place there. (DEDUCED, log entry 47; unsafe.) -/
def State.targetBase (s : State) (c : Ctx) (table : List Nat) (ps : List (Nat × Proc × Proc)) (sh : List (Nat × Nat))
    (r : Region) : Nat :=
  let to_ (d : Nat) : Nat := table.getD d 255
  let shift (d : Nat) : Nat := tblGetD sh d 0
  match r.kind with
  | 0 => s.regionBase c 0 (s.landing table ps r.unit)
  | 1 => s.regionBase c 1 (16 * to_ (r.unit / 16) + r.unit % 16)
  | 2 => let d := r.unit / 2 ^ 21; hbmPA (to_ d) ((r.unit % 2 ^ 21 + shift d * 2 ^ 14) * 65536)
  | 3 => s.regionBase c 3 r.unit
  | _ => s.regionBase c 4 (16 * to_ (r.unit / 16) + r.unit % 16)

/-- Bytes of a region. -/
def regionLen (c : Ctx) (kind : Nat) : Nat := [c.tlen, c.slen, 65536, c.tabLen, 2 ^ 22].getD kind 0

/-- A spill area goes with its process, from its source core's LOCAL window to its new place. -/
def State.moveSpill (s : State) (c : Ctx) (m : Image) (p q : Proc) : State :=
  match m.regions.find? fun r => r.kind == 0 && r.unit == p.core with
  | none => s
  | some r =>
    let src := c.tlen - 192 * (p.area.1 + p.area.2)
    let dst := s.regionBase c 0 q.core + (c.tlen - 192 * (q.area.1 + q.area.2))
    let n := 192 * p.area.2
    let cut {α : Type} (t : Tbl α) (g : Nat) : Tbl α :=
      (t.filter fun x => src ≤ g * x.1 && g * x.1 < src + n).map fun x => (x.1 - src / g, x.2)
    s.putRegion dst n { kind := 0, unit := 0, cells := cut r.cells 1, empty := cut r.empty 8, ecc := cut r.ecc 8 }

/-- Counts by source die as counts by target die (R183). -/
def sumBy (to_ : Nat → Nat) (t : Tbl Nat) : Tbl Nat := t.foldl (fun r x => tblSet r (to_ x.1) (tblGetD r (to_ x.1) 0 + x.2)) []

/-- The children that the FORKRs of an image hold, and the rest of the room that they hold (R213), as processes of an image with
numbers beyond those it uses. -/
def Image.kids (m : Image) : List (Nat × Proc) :=
  (m.forks.flatMap fun f => f.kids ++ f.pads).zipIdx.map fun x => (m.seq + x.2, x.1)

/-- FORKRs with their children, and the rest of their room, at new places. -/
def forksAt (k : Nat) : List Fork → List Proc → List Fork
  | [], _ => []
  | f :: t, ps =>
    let n := f.kids.length
    { pid := moveId k f.pid, kids := ps.take n, pads := (ps.drop n).take f.pads.length } :: forksAt k t (ps.drop (n + f.pads.length))

/-- What an image holds beside processes and memory goes to its places (R183, R213, R216, R230, R164). -/
def State.installRest (s : State) (ctx k : Nat) (m : Image) (at_ : Nat → Nat) (kids : List Proc) : State :=
  let dev (d : Nat) : Nat := if d = m.dev then s.devId else d
  let s : State := { s with
    forks := s.forks ++ forksAt k m.forks kids
    flags := s.flags ++ m.flags.map fun f => { f with ctx := ctx, sdev := dev f.sdev }
    flagSrcs := s.flagSrcs ++ m.flagSrcs.map fun f => { f with ctx := ctx, sdev := dev f.sdev } }
  let s := m.records.foldl (fun s r => s.modCore (at_ r.1) fun c =>
    { c with records := c.records ++ [({ r.2.1 with ctx := ctx }, r.2.2.map (moveId k))] }) s
  m.tasks.foldl (fun s t => s.modCore (at_ t.1) fun c => { c with deque := c.deque ++ [{ t.2 with ctx := ctx }] }) s

/-- The task records of an image find places in the deques of their cores (R194). -/
def State.tasksFit (s : State) (m : Image) (at_ : Nat → Nat) : Bool :=
  m.tasks.all fun t => (s.core (at_ t.1)).deque.length + (m.tasks.filter fun u => at_ u.1 == at_ t.1).length ≤ 256

/-- An image is installed (R183). Of source cores that fall to one position, and of places that two image dies share, the one
whose contents stay is free. A target die's ACK is the highest of its image dies, and 0 where it has none.
(DEDUCED, log entry 47; unsafe.) -/
def State.installImage (s : State) (ctx : Nat) (m : Image) (table : List Nat) (tbase sbase : Nat) (sh : List (Nat × Nat))
    (tabs : List (Nat × Nat × Nat)) (ps : List (Nat × Proc × Proc)) : State :=
  let to_ (d : Nat) : Nat := table.getD d 255
  let at_ (core : Nat) : Nat := s.landing table ps core
  let c : Ctx :=
    { m.ctx with st := .suspended, resumeBound := m.procs.isEmpty, tbase := tbase, sbase := sbase,
                 dieTable := m.ctx.dieTable.map to_, tables := tabs.map fun t => (t.1, t.2.2),
                 ack := s.liveDies.map fun d =>
                   (d, ((m.dies.filter fun x => to_ x == d).map fun x => tblGetD m.ctx.ack x 0).foldl max 0),
                 ends := m.ctx.ends.map fun e => (e.1, e.2.moved s.seq), colls := m.ctx.colls.map (Collective.moved s.seq),
                 dirty := [], armed := true, token := { m.ctx.token with die := 0, moving := false, lost := false, clean := false, left := 0 },
                 sent := sumBy to_ m.ctx.sent, delivered := sumBy to_ m.ctx.delivered, logEnt := sumBy to_ m.ctx.logEnt,
                 gbars := m.ctx.gbars.map fun g =>
                   let to_ (c : Nat) : Nat := if 2048 ≤ c then c else at_ c
                   (g.1, g.2.1.map to_, g.2.2.map to_),
                 scr := m.scrOn to_ }
  let flip := (Config.freeWord s.fresh).getLsbD 0
  let s : State := { s with ctxs := tblSet s.ctxs ctx c, fresh := s.fresh + 1 }
  let order := if flip then m.regions.reverse else m.regions
  let k := s.seq
  let s := order.foldl (fun s r =>
    let r := { r with waits := r.waits.map fun w => (w.1, w.2.map fun x => { x with pid := moveId k x.pid }) }
    s.putRegion (s.targetBase c table ps sh r) (regionLen c r.kind) r) s
  let s := tabs.foldl (fun s t =>
    match m.dies.find? fun d => m.ctx.mapDie t.1 == d with
    | some d => s.shiftLeaves t.2.1 t.2.2 c.tabLen (tblGetD sh d 0) 0 1024 3
    | none => s) s
  let s := m.dies.foldl (fun s d => s.modDie (to_ d) fun x =>
    { x with frames := (m.framesOn d).foldl (fun t f => tblSet t (f + tblGetD sh d 0 * 2 ^ 14) (ctx + 1)) x.frames }) s
  let s := ps.foldl (fun s x => s.moveSpill c m x.2.1 x.2.2) s
  let s := m.bars.foldl (fun s b => s.modBar (s.landing table ps b.1) b.2.1 fun _ => { b.2.2 with owner := ctx }) s
  let s := (ps.filter fun x => x.1 < m.seq).foldl
    (fun s x => { s with procs := tblSet s.procs (moveId k x.1) (x.2.2.onDevice m.dev s.devId) }) { s with seq := k + m.seq }
  s.installRest ctx k m at_ ((ps.filter fun x => m.seq ≤ x.1).map (·.2.2))

/-- The header of an image in host memory names the revisions and dies that its sections hold (R204). -/
def State.headerOk (s : State) (image : Nat) (m : Image) : Bool :=
  let w := (s.hostWord (image + 8)).toNat
  w / 2 ^ 40 % 256 == (m.dies.map (2 ^ ·)).sum && w % 2 ^ 32 == m.fwrev % 2 ^ 32 && w / 2 ^ 32 % 256 == m.mrev % 256

/-- RESTORE (R180, R183, R202, R204): the image and the context die table at the addresses of host memory that words 1 and 2
name. Firmware chooses whether an image of another firmware is accepted, and TBASE and SBASE, as at a bind.
(DEDUCED, log entry 47; unsafe.) -/
def execRestore (accepts : Bool) (bases : List Nat) (s : State) : Host.Outcome State Fault Refusal :=
  match s.command 0x16 with
  | none => .next s
  | some w =>
    let ctx := commandCtx w
    let image := (w.getD 1 0).toNat
    let table := (s.hostBytes (w.getD 2 0).toNat 8).map (·.toNat)
    if (s.ctx ctx).st != .empty || 64 ≤ ctx then .next (s.answer w none 51)
    else match tblGet s.images image with
      | none => .next (s.answer w none 51)
      | some m =>
        let accepts := m.fwrev = (tblGetD s.map 1 0).toNat / 2 ^ 32 || accepts
        let c := m.ctx
        let to_ (d : Nat) : Nat := table.getD d 255
        let tableOk := (List.range 8).all fun i => if m.dies.contains i then s.dieLive (to_ i) else to_ i == 255
        let tbase := bases.getD 0 0
        let sbase := bases.getD 1 0
        let addrDies := c.tables.map (·.1)
        if !accepts || !s.headerOk image m || m.mrev != s.mrev.toNat % 256 || !tableOk || !s.scratchOk ctx (m.scrOn to_)
            || !hasGap (s.tcmUsed ctx) (2 ^ 19) (c.tlen + c.dpool) || !hasGap (s.padUsed ctx) (2 ^ 22) c.slen then
          .next (s.answer w none 51)
        else if tbase % 4096 != 0 || sbase % 4096 != 0 || !fits (s.tcmUsed ctx) (2 ^ 19) tbase (c.tlen + c.dpool)
            || !fits (s.padUsed ctx) (2 ^ 22) sbase c.slen then .next s
        else match s.newTables c.tabLen (fun i => to_ (c.mapDie i)) addrDies [] with
          | some tabs =>
            let taken := tabs.map fun t => (t.2.1, t.2.2 / 65536, c.tabLen / 65536)
            match s.shifts m table m.dies [] taken,
                s.placeProcs ctx c table ((m.procs.filter fun p => p.2.st != .stopped) ++ m.kids) [] with
            | some sh, some ps => .next (if s.barsMeet m table ps || !s.tasksFit m (s.landing table ps) then s.answer w none 51
                else (s.installImage ctx m table tbase sbase sh tabs ps).answer w none 0)
            | _, _ => .next (s.answer w none 51)
          | none => .next (s.answer w none 51)

end Sys2Proof.Machine
end

