-- ==== Sys2Proof/Machine/Debug.lean ====
section
/-! DEFINITION. The debug interface of the management cores (R231, R391). -/

namespace Sys2Proof.Machine

/-- The process that a halt request names by context and rank; one that is STOPPED only where no other holds the
rank. -/
def State.named (s : State) (ctx rank : Nat) : Option (Nat × Proc) :=
  (s.procs.find? fun e => e.2.ctx == ctx && e.2.rank == rank && e.2.st != .stopped).or
    (s.procs.find? fun e => e.2.ctx == ctx && e.2.rank == rank)

/-- DEBUG_HALT (R231). A halt of a READY or RUNNING process takes effect at its next boundary outside an open packet, any
other at once. -/
def execDebugHalt (mgmt ctx rank : Nat) (s : State) : Host.Outcome State Fault Refusal :=
  match s.named ctx rank with
  | none => .next s
  | some (pid, p) =>
    if p.halt.isSome then .next s
    else
      .next ((s.modProc pid fun p => { p with halt := some mgmt, haltDue := true }).holdBack pid)

/-- DEBUG_HALT_END (R231): only the management core that asked for the halt ends it. -/
def execDebugHaltEnd (mgmt ctx rank : Nat) (s : State) : Host.Outcome State Fault Refusal :=
  match s.named ctx rank with
  | none => .next s
  | some (pid, p) =>
    if p.halt != some mgmt then .next s
    else
      let s := s.modProc pid fun p => { p with halt := none, haltDue := false }
      .next (if p.st == .suspended then s.makeReady pid else s)

/-- Replaces the `n` bits of a value from bit `at_`. -/
def setBits {w : Nat} (v : BitVec w) (at_ n : Nat) (x : Nat) : BitVec w :=
  let m := BitVec.ofNat w ((2 ^ n - 1) * 2 ^ at_)
  (v &&& ~~~m) ||| BitVec.ofNat w (x % 2 ^ n * 2 ^ at_)

/-- The register with a full bit that a debug name stands for. -/
def Proc.debugName (p : Proc) (r : DebugReg) : Option RName :=
  match r with
  | .w i => some (.w (24 * p.level + i % 32))
  | .g i => some (.g (i % 8))
  | .p i => some (.p (i % 8))
  | .aPtr i | .aBase i | .aLen i | .aPs i => some (.a (i % 16))
  | _ => none

/-- A control register of the process written by a management core: the fields that are read-only to the process too
(R231). -/
def Proc.debugCr (p : Proc) (n : Nat) (v : Word) : Proc :=
  match n with
  | 0x000 => { p with cause := v &&& 0xFFFFFFFF0000003F }
  | 0x002 => { p with faddr := v }
  | 0x003 => { p with thdl := v }
  | 0x005 => { p with level := (v.extractLsb' 16 24).toNat, depth := (v.extractLsb' 7 7).toNat, res := (v.extractLsb' 0 7).toNat }
  | 0x006 => { p with fpc := v &&& 0xBF1F }
  | _ => p.crWrite n v

/-- A process with one register changed by a management core; full bits stay. (DEDUCED, log entry 49; unsafe.) -/
def Proc.debugPut (p : Proc) (r : DebugReg) (v : Word) : Proc :=
  let setA (i : Nat) (f : AReg → AReg) : Proc := { p with areg := tblSet p.areg (i % 16) (f (p.addr (i % 16))) }
  match r with
  | .w _ | .g _ | .p _ =>
    match p.debugName r with
    | some n => p.put n v
    | none => p
  | .aPtr i => setA i fun a => { a with ptr := v }
  | .aBase i => setA i fun a => { a with base := v }
  | .aLen i => setA i fun a => { a with len := v.setWidth 40 }
  | .aPs i => setA i fun a => { a with ps := v.setWidth 8 &&& 0xFE }
  | .v i lane => { p with v := tblSet p.v (i % 32) (setBits (tblGetD p.v (i % 32) 0) (64 * (lane % 16)) 64 v.toNat) }
  | .k i half =>
    if i % 8 = 0 then p
    else { p with k := tblSet p.k (i % 8) (setBits (tblGetD p.k (i % 8) 0) (64 * (half % 2)) 64 v.toNat) }
  | .y i word =>
    let b := tblGetD p.y (i % 4) {}
    { p with y := tblSet p.y (i % 4) (if word = 256 then { b with fmt := v.toNat / 4 % 16, blk := if v.toNat / 4 % 16 = 11 then 1 else v.toNat % 4 }
      else { b with data := setBits b.data (64 * (word % 256)) 64 v.toNat }) }
  | .z i word => { p with z := tblSet p.z (i % 4) (setBits (tblGetD p.z (i % 4) 0) (64 * (word % 512)) 64 v.toNat) }
  | .x i word =>
    let b := tblGetD p.x (i % 4) {}
    { p with x := tblSet p.x (i % 4) (if word = 6 then { b with ovf := v.getLsbD 0, loss := v.getLsbD 1, pinf := v.getLsbD 2,
                                                                 ninf := v.getLsbD 3, nan := v.getLsbD 4 }
      else { b with v := setBits b.v (64 * (word % 6)) 64 v.toNat }) }
  | .pc => { p with pc := v }
  | .cr n => p.debugCr n v

/-- DEBUG_REGISTER_WRITE (R231): under a halt of the same management core, on a SUSPENDED or PARKED process. A write to a
register that awaits a result waits until that has landed. (DEDUCED, log entry 49; unsafe.) -/
def execDebugRegisterWrite (mgmt ctx rank : Nat) (reg : DebugReg) (value : Word) (s : State) :
    Host.Outcome State Fault Refusal :=
  match s.named ctx rank with
  | none => .next s
  | some (pid, p) =>
    let waits := (p.debugName reg).any fun r => p.pending.contains r
    .next (if p.halt = some mgmt && (p.st.isParked || p.st == .suspended) && !waits then
        s.modProc pid fun p => p.debugPut reg value
      else s)

/-- FIRMWARE_CAUSE_RAISE (R231): causes 60 to 63 while the halt holds, delivered when the process next issues after the halt ends. -/
def execFirmwareCauseRaise (mgmt ctx rank cause : Nat) (s : State) : Host.Outcome State Fault Refusal :=
  match s.named ctx rank with
  | none => .next s
  | some (pid, p) =>
    let running := p.st == .running || p.st == .ready
    .next (if p.halt = some mgmt && !running && 60 ≤ cause && cause ≤ 63 then
        s.modProc pid fun p => { p with firm := p.firm ++ [cause] }
      else s)

end Sys2Proof.Machine
end

