-- ==== Sys2Proof/Machine/Flacon.lean ====
section
/-! DEFINITION. The resource map, boot, link states and clocks (R19, R25, R27, R380 to R390): new versions and their
installation, retirement and loss, module reset, and what firmware and the world do to links and caps. -/

namespace Sys2Proof.Machine

/-! ### The record (R383) -/

/-- A change of a field of the record: word, lowest bit, width and value. -/
structure Edit where
  word : Nat
  at_ : Nat
  n : Nat
  value : Nat
  deriving DecidableEq, Repr

/-- Blocks of a compute die and of an I/O die. -/
def dieBlock (phys : Nat) : Nat := 32 + 32 * phys
def ioBlock (io : Nat) : Nat := 288 + 32 * (io - 8)

def editRec (r : Tbl Word) (e : Edit) : Tbl Word := tblSet r e.word (setBits (tblGetD r e.word 0) e.at_ e.n e.value)
def recField (r : Tbl Word) (word at_ n : Nat) : Nat := ((tblGetD r word 0).extractLsb' at_ n).toNat

/-- The change-mask bits of a word's changed bits `x` (R385). -/
def changeBits (word : Nat) (x : Word) : List Nat :=
  let part (at_ n bit : Nat) : List Nat := if x.extractLsb' at_ n = 0 then [] else [bit]
  if word = 0 then part 53 1 37 ++ part 54 10 33
  else if word = 1 then part 0 8 33
  else if word < 288 then
    let r := word % 32
    if r = 0 then part 58 6 33 ++ part 32 16 36
    else if r ≤ 16 then part 0 64 32
    else if r ≤ 18 then part 0 64 34
    else if r = 19 then part 32 32 35 else []
  else
    let r := word % 32
    if r = 0 then part 61 3 33 ++ part 32 16 36
    else if r ≤ 2 then part 0 64 35
    else if r = 3 then part 48 16 35 ++ part 0 1 37 else []

/-- The changed bits of a word between two records, VERSION and SOFTERR apart. -/
def changed (old new : Tbl Word) (word : Nat) : Word :=
  let x := tblGetD old word 0 ^^^ tblGetD new word 0
  if word = 0 then x &&& ~~~0xFFFFFFFF else if 32 ≤ word && word < 288 && word % 32 = 20 then 0 else x

/-- INFO and FADDR of the event record of a version (R385). -/
def changeMask (old new : Tbl Word) : Nat :=
  let bits := (List.range 352).flatMap fun w => changeBits w (changed old new w)
  ((List.range 6).filter fun i => bits.contains (32 + i)).foldl (fun m i => m + 2 ^ (32 + i)) 0
def lowestChange (old new : Tbl Word) : Nat := ((List.range 352).find? fun w => changed old new w != 0).getD 0

/-! ### Versions (R384, R385, R188) -/

/-- A new version goes to every live die (R384); one that changes nothing is none. -/
def State.newVersion (s : State) (es : List Edit) : State :=
  let m := es.foldl editRec s.map
  if (List.range 352).all fun w => changed s.map m w == 0 then s
  else
    let m := editRec m { word := 0, at_ := 0, n := 32, value := recField m 0 0 32 + 1 }
    let s : State := { s with map := m, versions := s.versions ++ [(recField m 0 0 32, changeMask s.map m, lowestChange s.map m)] }
    let s := s.liveDies.foldl (fun (s : State) d => s.modDie d fun x => { x with newMaps := x.newMaps ++ [m] }) s
    (s.ios.filter fun d => d.2.present && !d.2.lost).foldl (fun (s : State) d => s.modIo d.1 fun x => { x with newMaps := x.newMaps ++ [m] }) s

/-- The event records of the versions that a die has installed, each sent once, by the lowest live die (R385). -/
def State.announce (s : State) (die : Nat) : State :=
  let done (v : Nat × Nat × Nat) : Bool := v.1 ≤ recField (s.die die).map 0 0 32
  let due := if s.liveDies.headD 8 = die then s.versions.filter done else []
  due.foldl (fun (s : State) v => (s.ctxs.filter fun c => c.2.st.bears).foldl (fun (s : State) (c : Nat × Ctx) =>
    s.holdRecord (s.firstCore die)
      { rank := 0, core := 0, ctx := c.1, code := 51, info := 2 ^ 63 + v.2.1 + v.1,
        epc := BitVec.ofNat 64 (v.1 - 1), faddr := BitVec.ofNat 64 v.2.2 }) s)
    { s with versions := s.versions.filter fun v => !due.contains v }

/-- The words of the record that count soft errors (R383). -/
def softWords : List Nat := (List.range 8).map fun d => dieBlock d + 20

/-- A version takes the place of a record, but for its counts of soft errors (R384). -/
def overRecord (old new : Tbl Word) : Tbl Word := softWords.foldl (fun t w => tblSet t w (tblGetD old w 0)) new

/-- A die installs the oldest version that it has received (R384, R188): the count of soft errors goes on, windows
start, and acknowledgements that it held are recorded. -/
def State.installNext (s : State) (die : Nat) : State :=
  match (s.die die).newMaps with
  | [] => s
  | m :: t =>
    let old := (s.die die).map
    let v := recField m 0 0 32
    let open_ := (s.ctxs.filter fun c => c.2.st.bears && decide (tblGetD c.2.ack die 0 < v)).map fun c => (c.1, v, ackWindow)
    let acks := (s.die die).heldAcks.filter fun a => a.2 ≤ v
    let s := s.modDie die fun d =>
      { d with map := overRecord old m, newMaps := t, windows := d.windows ++ open_,
               heldAcks := d.heldAcks.filter fun a => v < a.2 }
    let s := acks.foldl (fun (s : State) a => s.recordAck die a.1 a.2) s
    (s.announce die).recheckAll

/-- A die installs all that it has received. -/
def State.installAll (s : State) (die : Nat) : State :=
  (s.die die).newMaps.foldl (fun (s : State) _ => s.installNext die) s

/-- An I/O die installs the oldest version that it has received (R383, R384). -/
def State.installIo (s : State) (io : Nat) : State :=
  match (s.io io).newMaps with
  | m :: t => if (s.io io).lost then s else s.modIo io fun d => { d with map := overRecord d.map m, newMaps := t }
  | [] => s

/-- RMAP_VERSION_INSTALL (R384), of a compute die, or of I/O die 8 or 9. -/
def execRmapVersionInstall (die : Nat) (s : State) : Host.Outcome State Fault Refusal :=
  .next (if s.dieLive die then s.installNext die else if die = 8 || die = 9 then s.installIo die else s)

/-- A soft error on a die is corrected (R135): its count rises in every installed copy of the record (R383, R384).
(DESIGN CHOICE, log entry 51; unsafe.) -/
def State.softError (s : State) (die : Nat) : State :=
  if s.dieLive die then
    let w := dieBlock (s.die die).phys + 20
    let up (m : Tbl Word) : Tbl Word := if m.isEmpty then m else tblSet m w (tblGetD m w 0 + 1)
    { s with dies := s.dies.map fun (d : Nat × Die) => (d.1, { d.2 with map := up d.2.map }),
             ios := s.ios.map fun (d : Nat × IoDie) => (d.1, { d.2 with map := up d.2.map }) }
  else s

/-! ### Links (R380) -/

/-- The fields that record a link: lanes and rate, or the rate alone for an Ethernet port.
(DESIGN CHOICE, log entry 51; unsafe.) -/
def linkFields (l : Nat) : List (Nat × Nat × Nat) :=
  if l < 8 then [(dieBlock l + 19, 56, 8), (dieBlock l + 19, 48, 8)]
  else if l < 16 then [(dieBlock (l - 8) + 19, 40, 8), (dieBlock (l - 8) + 19, 32, 8)]
  else if l = 16 then [(ioBlock 8 + 3, 56, 8), (ioBlock 8 + 3, 48, 8)]
  else if l < 33 then
    let n := l - 17
    [(ioBlock (8 + n / 8) + 1, 8 * (n % 8) + 4, 4), (ioBlock (8 + n / 8) + 1, 8 * (n % 8), 4)]
  else let n := l - 33; [(ioBlock (8 + n / 4) + 2, 16 * (n % 4), 16)]

/-- Full lanes and rate of a link (R357 to R359), as the record writes them. -/
def fullRate (l : Nat) : Nat × Nat := if l < 16 then (16, 32) else if l = 16 then (32, 32) else if l < 33 then (4, 1) else (0, 800)

/-- What the record says of a link with the lanes and rate given. -/
def linkEdits (l lanes speed : Nat) : List Edit :=
  match linkFields l with
  | [a, b] => [{ word := a.1, at_ := a.2.1, n := a.2.2, value := lanes }, { word := b.1, at_ := b.2.1, n := b.2.2, value := speed }]
  | fs => fs.map fun a => { word := a.1, at_ := a.2.1, n := a.2.2, value := speed }

/-- Recorded lanes and rate. -/
def State.linkRecord (s : State) (l : Nat) : Nat × Nat :=
  match linkFields l with
  | [a, b] => (recField s.map a.1 a.2.1 a.2.2, recField s.map b.1 b.2.1 b.2.2)
  | a :: _ => (0, recField s.map a.1 a.2.1 a.2.2)
  | [] => (0, 0)

/-- Dies at the ends of a link, compute dies by physical number. -/
def linkDies (l : Nat) : List Nat :=
  if l < 8 then [l, (l + 1) % 8] else if l < 16 then [l - 8, ioOf (l - 8)] else if l = 16 then [8, 9]
  else if l < 33 then [8 + (l - 17) / 8] else [8 + (l - 33) / 4]

/-- Links that end at a die. -/
def linksOf (d : Nat) : List Nat := (List.range 41).filter fun l => (linkDies l).contains d

/-- Fragments in flight on a link are lost (R380). Which of those whose way it was have crossed it already, and stay in the queue of
the die behind it, is left open, hence free. (DESIGN CHOICE, log entry 2; safe.) -/
def State.cutLink (s : State) (l : Nat) : State :=
  { s with
    wire := (s.wire.zipIdx.filter fun x => !((x.1.route.map (·.1)).head? == some l && (Config.freeWord (s.fresh + x.2)).getLsbD 0)).map (·.1)
    fresh := s.fresh + s.wire.length }

/-- Fragments that stand in a die's queues are lost with it. -/
def State.cutDie (s : State) (phys : Nat) : State :=
  { s with wire := s.wire.filter fun f => (f.route.map (·.2)).head? != some phys }

def State.setLink (s : State) (l : Nat) (f : Link → Link) : State := { s with links := tblSet s.links l (f (s.link l)) }

/-- A link is LOST; its record is written by the version that the caller makes. -/
def State.loseLink (s : State) (l : Nat) : State := (s.cutLink l).setLink l fun k => { k with st := 3, lanes := 0, speed := 0 }

def State.loseLinks (s : State) (ls : List Nat) : State := ls.foldl State.loseLink s
def lostEdits (ls : List Nat) : List Edit := ls.flatMap fun l => linkEdits l 0 0

/-- LINK_TRAINING_COMPLETE (R380): training ends at the recorded lanes and rate, or below them in a new version. -/
def execLinkTrainingComplete (link lanes speed : Nat) (s : State) : Host.Outcome State Fault Refusal :=
  let r := s.linkRecord link
  let lanes := if link < 33 then lanes else 0
  if link < 41 && (s.link link).st = 1 && lanes ≤ r.1 && speed ≤ r.2 && speed != 0 && (lanes != 0 || 33 ≤ link) then
    let s := s.setLink link fun _ => { st := 2, fails := 0, lanes := lanes, speed := speed }
    .next (if (lanes, speed) = r then s else s.newVersion (linkEdits link lanes speed))
  else .next s

/-- LINK_FAILURE (R380). -/
def execLinkFailure (link : Nat) (s : State) : Host.Outcome State Fault Refusal :=
  .next (if (s.link link).st = 2 then (s.cutLink link).setLink link fun k => { k with st := 1, fails := 0 } else s)

/-- LINK_TRAINING_FAIL (R380): the third failure in a row makes the link LOST. -/
def execLinkTrainingFail (link : Nat) (s : State) : Host.Outcome State Fault Refusal :=
  .next (if (s.link link).st != 1 then s
    else if (s.link link).fails < 2 then s.setLink link fun k => { k with fails := k.fails + 1 }
    else (s.loseLink link).newVersion (linkEdits link 0 0))

/-- LINK_FENCE (R380). -/
def execLinkFence (link : Nat) (s : State) : Host.Outcome State Fault Refusal :=
  .next (if link < 41 && (s.link link).st != 3 then (s.loseLink link).newVersion (linkEdits link 0 0) else s)

/-! ### A position without a core (R387) -/

/-- The process waits at no channel end. -/
def State.leaveChannels (s : State) (ctx pid : Nat) : State :=
  s.modCtx ctx fun c => { c with ends := c.ends.map fun (e : Nat × ChanEnd) => (e.1,
    { e.2 with sends := e.2.sends.filter fun m => !(m.pid == pid && m.link.isNone && m.tile.isNone),
               rcvs := e.2.rcvs.filter fun r => !(r.pid == pid && r.tile.isNone && r.async.isEmpty) }) }

/-- A process of a position that has lost its core enters FAULTED with cause 51 (R387). -/
def State.strand (s : State) (version pid : Nat) : State :=
  match s.proc pid with
  | none => s
  | some p =>
    let s := ((s.abortPacket pid).leaveWords pid).leaveChannels p.ctx pid
    let s : State := { s with forks := s.forks.filter fun f => f.pid != pid }
    (s.modProc pid fun p => { p with delayed := [], overflow := none, wakeFault := none }).fail pid
      { cause := 51, info := version } p.pc false false false

/-- A core is lost: its processes, the children that FORKRs hold there, its barriers, its deque and its TCM (R387).
`version` is the one that records the loss. -/
def State.loseCore (s : State) (version core : Nat) : State :=
  let pids := (s.procs.filter fun e => e.2.core == core && e.2.st != .stopped).map (·.1)
  let gone := (s.core core).deque.map fun t =>
    ({ rank := t.rank, core := core, ctx := t.ctx, create := true, code := 57, info := 0, epc := t.start } : FRec)
  let s := pids.foldl (State.strand · version) s
  let s : State := { s with forks := s.forks.map fun (f : Fork) => { f with kids := f.kids.map fun (k : Proc) =>
    if k.core = core then { k with wakeFault := k.wakeFault.or (some { cause := 51, info := version }) } else k } }
  (s.clearRange (tcmPA (coreCluster core) (s.core core).slot 0) (2 ^ 19)).modCore core fun c =>
    { c with live := false, deque := [], bars := [], l1 := [], records := c.records ++ gone.map fun r => (r, none) }

/-! ### Retirement (R19, R227, R386) -/

/-- Word of a cluster in its die's block, and its fields. -/
def State.cluWord (s : State) (die cluster : Nat) : Nat := dieBlock (s.die die).phys + 1 + cluster
def State.cluSpos (s : State) (die cluster : Nat) : Nat := recField s.map (s.cluWord die cluster) 16 5
def State.cluFails (s : State) (die cluster slot : Nat) : Bool := recField s.map (s.cluWord die cluster) (22 + slot) 1 == 1

/-- The position whose core is in a slot, if any. -/
def State.slotPos (s : State) (die cluster slot : Nat) : Option Nat :=
  (List.range 16).find? fun i =>
    let c := s.core (256 * die + 16 * cluster + i)
    c.live && c.slot == slot

/-- The TCM of a slot, with its full bits and waits, moves to the spare's slot (R386).
(DESIGN CHOICE, log entry 52; unsafe.) -/
def State.copyTcm (s : State) (cluster slot : Nat) : State :=
  let src := tcmPA cluster slot 0
  let dst := tcmPA cluster 16 0
  let r := s.region 0 0 src (2 ^ 19)
  let here (w : Nat) : Bool := src ≤ w && w < src + 2 ^ 19
  let s : State := { s with waiters := s.waiters.filter fun w => !here (8 * w.1) }
  let s := s.putRegion dst (2 ^ 19) r
  { s with procs := s.procs.map fun (e : Nat × Proc) => (e.1, match e.2.st with
      | .parked why (.word pa) since => if here pa then { e.2 with st := .parked why (.word (pa - src + dst)) since } else e.2
      | _ => e.2) }

/-- The spare takes a position (R386, R227). Its tick count is the spare's own.
(DESIGN CHOICE, log entry 52; unsafe.) -/
def State.substitute (s : State) (core slot : Nat) : State :=
  let s := s.copyTcm (coreCluster core) slot
  let tick := (Config.freeWord s.fresh).toNat
  let s : State := { s with fresh := s.fresh + 1,
                            procs := s.procs.map fun (e : Nat × Proc) =>
                              (e.1, if e.2.core == core then { e.2 with quantum := 0 } else e.2) }
  s.modCore core fun c => { c with slot := 16, tick := tick, quant := 1024, l1 := [] }

/-- No process of the core has a packet open or a tile instruction outstanding (R302). -/
def State.noPacket (s : State) (core : Nat) : Bool := s.procs.all fun e => e.2.core != core || (e.2.packet.isNone && e.2.cTile == 0)

/-- CORE_RETIRE (R386, R387): the spare is substituted where it is free, else the position has no core left. The die
installs the version first. (DESIGN CHOICE, log entry 8; safe.) -/
def execCoreRetire (die cluster slot : Nat) (s : State) : Host.Outcome State Fault Refusal :=
  let w := s.cluWord die cluster
  let fail : Edit := { word := w, at_ := 22 + slot, n := 1, value := 1 }
  if !(s.dieLive die) || 16 ≤ cluster || 17 ≤ slot || s.cluFails die cluster slot then .next s
  else match s.slotPos die cluster slot with
    | none => .next ((s.newVersion [fail]).installAll die)
    | some i =>
      let core := 256 * die + 16 * cluster + i
      if !s.noPacket core then .next s
      else if slot < 16 && s.cluSpos die cluster = 31 && !s.cluFails die cluster 16 then
        .next (((s.substitute core slot).newVersion [fail, { word := w, at_ := 16, n := 5, value := i }]).installAll die).recheckAll
      else
        let v := recField s.map 0 0 32 + 1
        .next ((((s.loseCore v core).newVersion [fail, { word := w, at_ := i, n := 1, value := 0 }]).installAll die).recheckAll)

/-- DIE_LOSS (R249, R387): the ends that lie on the die are lost to the other dies; every position of the die is lost, its
links are LOST, and the die is marked absent. (DESIGN CHOICE, log entry 51; unsafe.) -/
def execDieLoss (die : Nat) (s : State) : Host.Outcome State Fault Refusal :=
  if !s.dieLive die then .next s
  else
    let phys := (s.die die).phys
    let b := dieBlock phys
    let ls := linksOf phys
    let v := recField s.map 0 0 32 + 1
    let cores := ((List.range 256).map (256 * die + ·)).filter fun c => (s.core c).live
    let ends := s.ctxs.flatMap fun c => (c.2.chans.filter fun h => h.2.assigned && h.2.kind != 0 && h.2.kind < 4 &&
      (s.sendGoal c.1 h.1).1 == (s.devId, die)).map fun h => (c.1, h.1)
    let s := ends.foldl (fun s e => s.loseEnd e.1 e.2 34) s
    let s := cores.foldl (State.loseCore · v) (s.installAll die)
    let s := ((s.loseLinks ls).cutDie phys).modDie die fun d => { d with lost := true }
    let s := s.newVersion (lostEdits ls ++ [{ word := b, at_ := 61, n := 1, value := 1 }, { word := 1, at_ := die, n := 1, value := 0 }]
      ++ (List.range 16).map fun c => ({ word := b + 1 + c, at_ := 0, n := 16, value := 0 } : Edit))
    .next (s.announce (s.liveDies.headD 8)).recheckAll

/-- IO_DIE_LOSS (R383): the I/O die's LOST bit is set and its links are LOST; a function on its host port is gone. -/
def execIoDieLoss (ioDie : Nat) (s : State) : Host.Outcome State Fault Refusal :=
  if !((ioDie = 8 || ioDie = 9) && (s.io ioDie).present && !(s.io ioDie).lost) then .next s
  else
    let ls := linksOf ioDie
    let s := ((s.loseLinks ls).cutDie ioDie).modIo ioDie fun d => { d with lost := true }
    let s := if s.hostPort = ioDie - 8 then { s with funcUp := false } else s
    .next (s.newVersion (lostEdits ls ++ [{ word := ioBlock ioDie, at_ := 61, n := 1, value := 1 }]))

/-- A host port is lost in service (R27): a new version marks it, and a function on it is gone. -/
def State.portLost (s : State) (port : Nat) : State :=
  let w := ioBlock (8 + port) + 3
  if 2 ≤ port || recField s.map w 0 1 = 0 then s
  else (if s.hostPort = port then { s with funcUp := false } else s).newVersion [{ word := w, at_ := 0, n := 1, value := 0 }]

/-- HOST_PORT_FAILOVER (R27): from host port 0 to host port 1, after the map marks port 0 or I/O die 8 as lost. Whether host
port 1 must have trained is left open: the move asks only that I/O die 9 is live. (DESIGN CHOICE, log entry 72; unsafe.) -/
def execHostPortFailover (s : State) : Host.Outcome State Fault Refusal :=
  let lost := recField s.map (ioBlock 8) 61 1 == 1 || recField s.map (ioBlock 8 + 3) 0 1 == 0
  if s.hostPort = 0 && lost && (s.io 9).present && !(s.io 9).lost && recField s.map 0 0 32 != 0 then
    .next ({ s with hostPort := 1, funcUp := true }.newVersion [{ word := 0, at_ := 53, n := 1, value := 1 }])
  else .next s

/-- HBM_CHANNEL_FAULT (R384): an HBM4 channel, or a die-memory slice, is no longer healthy. -/
def execHbmChannelFault (die : Nat) (slice : Bool) (unit : Nat) (s : State) : Host.Outcome State Fault Refusal :=
  let b := dieBlock (s.die die).phys
  if !s.dieLive die || (if slice then 16 else 64) ≤ unit then .next s
  else .next (s.newVersion [if slice then { word := b + 18, at_ := 16 + unit, n := 1, value := 0 }
    else { word := b + 17, at_ := unit, n := 1, value := 0 }])

/-! ### Clocks (R390) -/

/-- A cap in MHz (R390). -/
def capOk (mhz : Nat) : Bool := mhz % 25 = 0 && 250 ≤ mhz && mhz ≤ 1000

/-- PERSISTENT_CAP_SET (R390): of a logical compute die, or of I/O die 8 or 9. -/
def execPersistentCapSet (die mhz : Nat) (s : State) : Host.Outcome State Fault Refusal :=
  let io := (die = 8 || die = 9) && (s.io die).present && !(s.io die).lost
  if capOk mhz && (s.dieLive die || io) then
    .next (s.newVersion [{ word := if die < 8 then dieBlock (s.die die).phys else ioBlock die, at_ := 32, n := 16, value := mhz }])
  else .next s

/-- One step of a transient cap. -/
def capStep (t : Nat) (up : Bool) : Nat := if up then min 1000 (t + 25) else max 250 (t - 25)

/-- TRANSIENT_CAP_STEP (R390). -/
def execTransientCapStep (die : Nat) (up : Bool) (s : State) : Host.Outcome State Fault Refusal :=
  .next (if s.dieLive die then s.modDie die fun d => { d with trans := capStep d.trans up }
    else if (die = 8 || die = 9) && (s.io die).present && !(s.io die).lost then
      s.modIo die fun d => { d with trans := capStep d.trans up }
    else s)

/-! ### Boot (R388) -/

/-- Physical compute dies and I/O dies that take part: present, and authenticated. -/
def bootDies (b : BootPlan) : List Nat := (List.range 8).filter (b.compute &&& b.present).getLsbD
def bootIos (b : BootPlan) : List Nat := (List.range 2).filterMap fun n => if (b.io &&& b.presentIo).getLsbD n then some (8 + n) else none

/-- Logical numbers with the physical dies that take them (R25). -/
def bootLogical (b : BootPlan) : List (Nat × Nat) := (List.range 8).zip (bootDies b)

/-- Links that train: between dies that take part, and not on the plan's list. -/
def bootLinks (b : BootPlan) : List Nat :=
  (List.range 41).filter fun l => ((linkDies l).all fun d => (bootDies b).contains d || (bootIos b).contains d) && !b.lostLinks.contains l

/-- The active host port (R27). -/
def bootPort (b : BootPlan) : Nat := if (bootIos b).contains 8 && b.hostTrained.getLsbD 0 then 0 else 1

/-- Lanes and rate of a link as it trains at boot (R380): never above its full. -/
def bootRate (b : BootPlan) (l : Nat) : Nat × Nat :=
  match b.trained.find? fun x => x.1 == l with
  | some (_, lanes, speed) => (min lanes (fullRate l).1, min speed (fullRate l).2)
  | none => fullRate l

/-- The persistent cap of a physical die at boot; 1,000 is none (R383, R390). -/
def bootCap (b : BootPlan) (d : Nat) : Nat := ((b.caps.find? fun c => c.1 == d && capOk c.2).map (·.2)).getD 1000

/-- The ring position that slot 16 of a cluster holds at boot: that of its lowest retired slot; 31 where it is a spare still, or
retired itself (R19, R383). (DESIGN CHOICE, log entry 5; unsafe.) -/
def bootSpare (b : BootPlan) (phys clu : Nat) : Nat :=
  if b.retired.contains (phys, clu, 16) then 31 else ((List.range 16).find? fun i => b.retired.contains (phys, clu, i)).getD 31

/-- A ring position has a core at boot (R19). -/
def bootHolds (b : BootPlan) (phys clu i : Nat) : Bool := !b.retired.contains (phys, clu, i) || bootSpare b phys clu == i

/-- A number whose bit i, below `n`, is `f i`. -/
def bitsOf (n : Nat) (f : Nat → Bool) : Nat := ((List.range n).map fun i => if f i then 2 ^ i else 0).sum

/-- The word of a cluster at boot (R383): LIVE, SPOS and FAILS. -/
def bootCluster (b : BootPlan) (phys clu : Nat) : Nat :=
  bitsOf 16 (bootHolds b phys clu) + bootSpare b phys clu * 2 ^ 16 + bitsOf 17 (fun i => b.retired.contains (phys, clu, i)) * 2 ^ 22

/-- Version 1 of the record (R383). -/
def bootRecord (b : BootPlan) : Tbl Word :=
  let head : List Edit :=
    [{ word := 0, at_ := 0, n := 32, value := 1 }, { word := 0, at_ := 32, n := 21, value := b.devId.toNat },
     { word := 0, at_ := 53, n := 1, value := bootPort b }, { word := 0, at_ := 54, n := 2, value := (b.io &&& b.presentIo).toNat },
     { word := 0, at_ := 56, n := 8, value := (b.compute &&& b.present).toNat },
     { word := 1, at_ := 0, n := 8, value := 2 ^ (bootDies b).length - 1 }, { word := 1, at_ := 32, n := 32, value := b.fwRev.toNat }]
  let seen : List Edit := ((List.range 8).filter b.present.getLsbD).map fun d => { word := dieBlock d, at_ := 63, n := 1, value := 1 }
  let seenIo : List Edit := ((List.range 2).filter b.presentIo.getLsbD).map fun n => { word := ioBlock (8 + n), at_ := 63, n := 1, value := 1 }
  let die (x : Nat × Nat) : List Edit :=
    let w := dieBlock x.2
    [{ word := w, at_ := 62, n := 1, value := 1 }, { word := w, at_ := 58, n := 3, value := x.1 }, { word := w, at_ := 32, n := 16, value := bootCap b x.2 },
     { word := w + 17, at_ := 0, n := 64, value := bitsOf 64 fun i => !b.badHbm.contains (x.2, i) },
     { word := w + 18, at_ := 16, n := 16, value := bitsOf 16 fun i => !b.badSlices.contains (x.2, i) },
     { word := w + 18, at_ := 0, n := 16, value := (b.cacheSlices.extractLsb' (16 * x.2) 16).toNat }]
      ++ (List.range 16).map fun c => ({ word := w + 1 + c, at_ := 0, n := 39, value := bootCluster b x.2 c } : Edit)
  let io (n : Nat) : List Edit :=
    [{ word := ioBlock n, at_ := 62, n := 1, value := 1 }, { word := ioBlock n, at_ := 32, n := 16, value := bootCap b n },
     { word := ioBlock n + 3, at_ := 0, n := 1, value := if b.hostTrained.getLsbD (n - 8) then 1 else 0 }]
  (head ++ seen ++ seenIo ++ (bootLogical b).flatMap die ++ (bootIos b).flatMap io
    ++ (bootLinks b).flatMap fun l => linkEdits l (bootRate b l).1 (bootRate b l).2).foldl editRec []

/-- A compute die after boot. -/
def bootDie (b : BootPlan) (phys : Nat) : Die :=
  { present := true, phys := phys, map := bootRecord b, ackw := max 1 b.ackw.toNat, win := max 1024 b.win.toNat }

/-- The core at a position after boot. -/
def bootCore (b : BootPlan) (c : Nat) : Core :=
  let phys := (bootDies b).getD (coreDie c) 0
  let spare := bootSpare b phys (coreClu c)
  { live := bootHolds b phys (coreClu c) (corePos c), slot := if spare = corePos c then 16 else corePos c }

/-- The state after module reset (R388): what the host holds stays, and so do the model's own fields. Each link trains, or
fails three times (R380). The EPOCH of a physical die goes on from its last (R366). (DESIGN CHOICE, log entry 4; unsafe.)
(DESIGN CHOICE, log entry 6; safe.) -/
def State.boot (s : State) (b : BootPlan) : State :=
  let last := (s.dies.filter fun d => d.2.present).foldl (fun t d => tblSet t d.2.phys d.2.epoch) s.lastEpoch
  let epoch (phys : Nat) : Nat := (tblGet last phys).elim 0 fun e => (e + 1) % 256
  let s : State :=
    { State.reset with agenda := s.agenda, focus := s.focus, fresh := s.fresh, seq := s.seq, hostMem := s.hostMem,
                       msix := s.msix, cxlReply := s.cxlReply, toMgmt := s.toMgmt, images := s.images, mrev := s.mrev,
                       devId := b.devId.toNat, lastEpoch := last, cfgRetry := s.cfgRetry }
  if bootIos b = [] then s
  else
    let s := (bootLogical b).foldl (fun (s : State) x => s.modDie x.1 fun _ => { bootDie b x.2 with epoch := epoch x.2 }) s
    let s := (bootIos b).foldl (fun (s : State) n => s.modIo n fun _ => { present := true, map := bootRecord b }) s
    { s with
      map := bootRecord b
      hostPort := bootPort b
      sessions := b.peers.foldl nsAdd []
      links := (List.range 41).map fun l =>
        (l, if (bootLinks b).contains l then { st := 2, lanes := (bootRate b l).1, speed := (bootRate b l).2 } else { st := 3 })
      cores := (List.range (256 * (bootDies b).length)).map fun c => (c, bootCore b c) }

/-- MODULE_RESET (R388), steps 1 to 7. (DESIGN CHOICE, log entry 6; safe.) -/
def execModuleReset (boot : BootPlan) (s : State) : Host.Outcome State Fault Refusal := .next (s.boot boot)

/-- HOST_FUNCTION_PRESENT (R388), step 8. -/
def execHostFunctionPresent (s : State) : Host.Outcome State Fault Refusal :=
  let io := s.io (8 + s.hostPort)
  .next (if io.present && !io.lost && recField s.map 0 0 32 != 0 then
      { s with funcUp := true }.modQueue 0 fun q => { q with en := true }
    else s)

end Sys2Proof.Machine
end

