-- ==== Sys2Proof/Machine/ScalarFloat.lean ====
section
/-! DEFINITION. The scalar floating instructions, group 0x20 from FADD to FCLS (R104 to R110). -/

namespace Sys2Proof.Machine

/-- The format of TY (R104). -/
def Env.fmt (e : Env) : Fmt := fmtTy (tyN e.x)

/-- The low bits of the operands that the format occupies; B may be a floating immediate (R72, R104). -/
def Env.fa (e : Env) : Nat := e.a.toNat % 2 ^ e.fmt.width
def Env.fb (e : Env) : Nat := if e.x.i then immFloat e.x e.fmt else e.b.toNat % 2 ^ e.fmt.width
def Env.fc (e : Env) : Nat := e.c.toNat % 2 ^ e.fmt.width
def Env.va (e : Env) : FVal := e.fmt.decode e.fa
def Env.vb (e : Env) : FVal := e.fmt.decode e.fb
def Env.vc (e : Env) : FVal := e.fmt.decode e.fc
def Env.payl (e : Env) : Bool := fpcPayl e.p.fpc

/-- A floating result: the low bits of D, zero above (R104), under R42. -/
def Env.retF (e : Env) (r : FRes) : Act := e.finishFp r.c fun p => p.wrOp e.x.d.toNat (BitVec.ofNat 64 r.bits)

def execFadd (x : Args) (s : State) : Host.Outcome State Fault Refusal :=
  perform eFadd x s fun e => e.retF (e.fmt.add e.mode e.payl e.va e.vb)
def execFsub (x : Args) (s : State) : Host.Outcome State Fault Refusal :=
  perform eFsub x s fun e => e.retF (e.fmt.sub e.mode e.payl e.va e.vb)
def execFmul (x : Args) (s : State) : Host.Outcome State Fault Refusal :=
  perform eFmul x s fun e => e.retF (e.fmt.mul e.mode e.payl e.va e.vb)
def execFfma (x : Args) (s : State) : Host.Outcome State Fault Refusal :=
  perform eFfma x s fun e => e.retF (e.fmt.fma e.mode e.payl e.va e.vb e.vc)
def execFdiv (x : Args) (s : State) : Host.Outcome State Fault Refusal :=
  perform eFdiv x s fun e => e.retF (e.fmt.div e.mode e.payl e.va e.vb)
def execFsqrt (x : Args) (s : State) : Host.Outcome State Fault Refusal :=
  perform eFsqrt x s fun e => e.retF (e.fmt.sqrt e.mode e.payl e.va)
def execFmin (x : Args) (s : State) : Host.Outcome State Fault Refusal :=
  perform eFmin x s fun e => e.retF (e.fmt.minMax e.payl false e.fa e.fb)
def execFmax (x : Args) (s : State) : Host.Outcome State Fault Refusal :=
  perform eFmax x s fun e => e.retF (e.fmt.minMax e.payl true e.fa e.fb)
/-- FABS and FNEG change the sign bit only and raise nothing (R43). -/
def execFabs (x : Args) (s : State) : Host.Outcome State Fault Refusal :=
  perform eFabs x s fun e => e.ret (BitVec.ofNat 64 (e.fa % 2 ^ (e.fmt.width - 1)))
def execFneg (x : Args) (s : State) : Host.Outcome State Fault Refusal :=
  perform eFneg x s fun e => e.ret (BitVec.ofNat 64 (e.fa ^^^ 2 ^ (e.fmt.width - 1)))
/-- FCMP (R106). -/
def execFcmp (x : Args) (s : State) : Host.Outcome State Fault Refusal :=
  perform eFcmp x s fun e =>
    let r := fltRel (mN e.x % 8) e.va e.vb
    e.finishFp r.2 fun p => p.wr (.p e.x.d.toNat) (if r.1 then 1 else 0)
/-- FCVT (R107): MOD[3:0] is the source format, MOD[4] .sat. -/
def execFcvt (x : Args) (s : State) : Host.Outcome State Fault Refusal :=
  perform eFcvt x s fun e =>
    let src := fmtTy (mN e.x % 16)
    e.retF (e.fmt.convert e.mode e.payl ((mN e.x).testBit 4) (src.decode (e.a.toNat % 2 ^ src.width)).plain)
/-- FCVI (R108): MOD[3:0] is the source type, TY the integer type. -/
def execFcvi (x : Args) (s : State) : Host.Outcome State Fault Refusal :=
  perform eFcvi x s fun e =>
    let src := fmtTy (mN e.x % 16)
    let t := tyN e.x
    let r := toInteger e.mode (intMin t) (intMax t) (src.decode (e.a.toNat % 2 ^ src.width))
    e.finishFp r.2 fun p => p.wrOp e.x.d.toNat (intWord t r.1)
/-- ICVF (R108): MOD[3:0] is the integer type. -/
def execIcvf (x : Args) (s : State) : Host.Outcome State Fault Refusal :=
  perform eIcvf x s fun e => e.retF (e.fmt.ofInt e.mode (intVal (mN e.x % 16) e.a))
/-- FRND (R109). -/
def execFrnd (x : Args) (s : State) : Host.Outcome State Fault Refusal :=
  perform eFrnd x s fun e => e.retF (e.fmt.integral e.mode e.payl e.fa)
/-- FCLS (R110). -/
def execFcls (x : Args) (s : State) : Host.Outcome State Fault Refusal :=
  perform eFcls x s fun e => e.ret (BitVec.ofNat 64 (e.fmt.classify e.fa))

end Sys2Proof.Machine
end

