-- ==== Sys2Proof/Machine/Functions.lean ====
section
/-! DEFINITION. The correctly rounded functions of R53. A function is enclosed between two integers in units of a
power of two, at twice the precision each time until rounding is decided; every value but the special cases is
transcendental, so it is never equal to a number with a finite expansion and inexact is always raised. -/

namespace Sys2Proof.Machine

/-! ### Series in fixed point: numbers in units of 2^−w, each step cut toward zero -/

/-- Σ t / ((2i + 1) · n^2i) with alternating signs where `alt`: t = 2^w / n gives atan or atanh of 1/n. -/
def arcSeries (n : Nat) (alt : Bool) : Nat → Nat → Nat → Int
  | 0, _, _ => 0
  | fuel + 1, i, t =>
    if t = 0 then 0
    else (if alt && i % 2 = 1 then -((t / (2 * i + 1) : Nat) : Int) else ((t / (2 * i + 1) : Nat) : Int)) +
      arcSeries n alt fuel (i + 1) (t / (n * n))

/-- π (Machin) and ln 2. -/
def piFix (w : Nat) : Nat :=
  (16 * arcSeries 5 true (w + 8) 0 (2 ^ w / 5) - 4 * arcSeries 239 true (w + 8) 0 (2 ^ w / 239)).toNat
def ln2Fix (w : Nat) : Nat := (2 * arcSeries 3 false (w + 8) 0 (2 ^ w / 3)).toNat

/-- Σ r^n / n! from the term `t` of index n up. -/
def expSeries (w r : Nat) : Nat → Nat → Nat → Nat
  | 0, _, t => t
  | fuel + 1, n, t => if t = 0 then 0 else t + expSeries w r fuel (n + 1) (t * r / 2 ^ w / (n + 1))

/-- t − t·r²/((n+1)(n+2)) + … : sine from t = r and n = 1, cosine from t = 1 and n = 0, with `r2` = r². -/
def trigSeries (w r2 : Nat) : Nat → Nat → Nat → Int
  | 0, _, t => t
  | fuel + 1, n, t =>
    if t = 0 then 0 else (t : Int) - trigSeries w r2 fuel (n + 2) (t * r2 / 2 ^ w / ((n + 1) * (n + 2)))

/-- Σ (−1)^n · x2^n / (n! (2n + 1)) from the term with t = x2^n / n!. -/
def erfSeries (w x2 : Nat) : Nat → Nat → Nat → Int
  | 0, _, _ => 0
  | fuel + 1, n, t =>
    if t = 0 then 0
    else ((t / (2 * n + 1) : Nat) : Int) - erfSeries w x2 fuel (n + 1) (t * x2 / 2 ^ w / (n + 1))

/-- Σ z^(2i+1) / (2i + 1) from the term t = z^(2i+1), with `z2` = z². -/
def atanhSeries (w z2 : Nat) : Nat → Nat → Nat → Nat
  | 0, _, _ => 0
  | fuel + 1, i, t => if t = 0 then 0 else t / (2 * i + 1) + atanhSeries w z2 fuel (i + 1) (t * z2 / 2 ^ w)

/-- m · 2^e in units of 2^−w, cut toward zero. -/
def fixOf (m : Nat) (e : Int) (w : Nat) : Nat :=
  if 0 ≤ e + w then m * 2 ^ (e + w).toNat else m / 2 ^ (-(e + w)).toNat

/-! ### Enclosures -/

/-- An approximation v · 2^q of |g|, and `neg`, g's sign. -/
structure Near where
  neg : Bool
  v : Int
  q : Int

/-- e^x for |x| < 2^13: v and the power of two it is scaled by. -/
def expNear (neg : Bool) (m : Nat) (e : Int) (w : Nat) : Int × Int :=
  let x : Int := fixOf m e w
  let x := if neg then -x else x
  let l : Int := ln2Fix w
  let k := x / l
  let r := (x - k * l).toNat
  ((expSeries w r (w + 8) 0 (2 ^ w) : Nat), k - w)

/-- e^−x in units of 2^−w, for x ≥ 0. -/
def expDown (m : Nat) (e : Int) (w : Nat) : Nat :=
  let r := expNear true m e w
  fixOf r.1.toNat r.2 w

/-- log x for x ≠ 1. -/
def logNear (m : Nat) (e : Int) (w : Nat) : Near :=
  let k := Nat.log2 m
  let y := fixOf m (-(k : Int)) w
  let z := (y - 2 ^ w) * 2 ^ w / (y + 2 ^ w)
  let v : Int := (e + k) * ln2Fix w + 2 * atanhSeries w (z * z / 2 ^ w) (w + 8) 0 z
  { neg := v < 0, v := v.natAbs, q := -w }

/-- sin x or cos x, with the argument reduced by quarters of a turn. -/
def trigNear (cos neg : Bool) (m : Nat) (e : Int) (w : Nat) : Near :=
  let w2 := w + (Nat.log2 m + e + 8).toNat + 16
  let x := fixOf m e w2
  let h := piFix (w2 + 16) / 2 ^ 17
  let k := x / h
  let r := (x % h) / 2 ^ (w2 - w)
  let r2 := r * r / 2 ^ w
  let quarter := (if cos then k + 1 else k) % 4
  let v := if quarter % 2 = 1 then trigSeries w r2 (w + 8) 0 (2 ^ w) else trigSeries w r2 (w + 8) 1 r
  { neg := (decide (2 ≤ quarter)) != (neg && !cos), v := v, q := -w }

/-- tanh x. -/
def tanhNear (neg : Bool) (m : Nat) (e : Int) (w : Nat) : Near :=
  let t := expDown m (e + 1) w
  { neg := neg, v := ((2 ^ w - t) * 2 ^ w / (2 ^ w + t) : Nat), q := -w }

/-- erf x for |x| < 8: x times (2/√π) Σ (−1)^n x^2n / (n! (2n + 1)). -/
def erfNear (neg : Bool) (m : Nat) (e : Int) (w : Nat) : Near :=
  let u := w + 192
  let h := erfSeries u (fixOf (m * m) (2 * e) u) (2 * u) 0 (2 ^ u)
  let c := 2 ^ (2 * u + 1) / isqrt (piFix u * 2 ^ u)
  { neg := neg, v := m * (h * c / 2 ^ (u + 192)), q := e - w }

/-! ### Rounding from enclosures -/

/-- Rounds g where |g| lies strictly between two neighbours of a grid finer than the format (R39); v is taken to be
within 2^(64 + bits) units. (DEDUCED, log entry 11; safe.) -/
def Fmt.settle (f : Fmt) (mode bits : Nat) (n : Near) : Option FRes :=
  let g : Int := 2 ^ (64 + bits)
  let lo := n.v - g
  let cell : Int := 2 ^ (96 + bits)
  let a := (lo / cell).toNat
  let b := ((n.v + g + cell - 1) / cell).toNat - 1
  let e : Int := n.q + 96 + bits
  if lo ≤ 0 || a != b || a = 0 || !(decide (f.fw + 3 ≤ Nat.log2 a) || decide (e ≤ f.emin - f.fw - 2)) then none
  else some (f.round mode n.neg a e true)

/-- Precision doubles until rounding is decided. (DEDUCED, log entry 11; safe.) -/
def Fmt.ziv (f : Fmt) (mode bits : Nat) (at_ : Nat → Near) : Nat → Nat → Option FRes
  | 0, _ => none
  | fuel + 1, w =>
    match f.settle mode bits (at_ w) with
    | some r => some r
    | none => f.ziv mode bits at_ fuel (2 * w)

/-- A value just below, or just above, ±m · 2^e, nearer to it than the format resolves. -/
def Fmt.beside (f : Fmt) (mode : Nat) (neg below : Bool) (m : Nat) (e : Int) : FRes :=
  let s := f.fw + 6
  f.round mode neg (if below then m * 2 ^ s - 1 else m * 2 ^ s) (e - s) true

/-- The functions of R288 but VRSQ and VRCP. -/
inductive Fun where
  | exp | log | sin | cos | tanh | erf
  deriving DecidableEq, Repr

def Fun.code : Fun → Nat
  | .exp => 0 | .log => 1 | .sin => 2 | .cos => 3 | .tanh => 4 | .erf => 5

/-- The value at a finite nonzero x, but for log of a negative number and of 1: arguments so small or large that the
result lies beside a simple one, and otherwise by enclosure. -/
def Fmt.apply (f : Fmt) (mode : Nat) (g : Fun) (neg : Bool) (m : Nat) (e : Int) : Option FRes :=
  let ex := (Nat.log2 m : Int) + e
  let small : Bool := ex < -(f.fw + 6 : Nat)
  match g with
  | .exp =>
    if small then some (f.beside mode false neg 1 0)
    else if 12 ≤ ex then some (f.round mode false (2 ^ 64) (if neg then -8192 else 8192) true)
    else f.ziv mode 0 (fun w => let r := expNear neg m e w; { neg := false, v := r.1, q := r.2 }) 6 256
  | .log => f.ziv mode 0 (logNear m e) 6 256
  | .sin => if small then some (f.beside mode neg true m e) else f.ziv mode 0 (trigNear false neg m e) 6 256
  | .cos => if small then some (f.beside mode false true 1 0) else f.ziv mode 0 (trigNear true neg m e) 6 256
  | .tanh =>
    if small then some (f.beside mode neg true m e)
    else if 6 ≤ ex then some (f.beside mode neg true 1 0)
    else f.ziv mode 0 (tanhNear neg m e) 6 256
  | .erf => if 3 ≤ ex then some (f.beside mode neg true 1 0) else f.ziv mode (Nat.log2 m + 1) (erfNear neg m e) 6 256

/-- A function of R53 with its special cases. -/
def Fmt.fun (f : Fmt) (mode : Nat) (payl : Bool) (g : Fun) (x : FVal) : FRes :=
  let one (neg : Bool) : FRes := f.round 0 neg 1 0
  match x with
  | .nan _ _ _ _ => f.nanOf payl [x]
  | .inf n => match g with
    | .exp => if n then { bits := 0 } else { bits := f.infBits false }
    | .log => if n then f.invalid else { bits := f.infBits false }
    | .sin | .cos => f.invalid
    | .tanh | .erf => one n
  | .fin n m e =>
    if m = 0 then match g with
      | .exp | .cos => one false
      | .log => { bits := f.infBits true, c := { dz := true } }
      | .sin | .tanh | .erf => { bits := f.signBit n }
    else if g = .log && n then f.invalid
    else if g = .log && (FVal.fin n m e).same (.fin false 1 0) then { bits := 0 }
    else match f.apply mode g n m e with
      | some r => r
      | none => { bits := Config.freeBits g.code mode (f.round 0 n m e).bits % 2 ^ f.width, c := { nx := true } }

/-- 1/√x (R53). -/
def Fmt.rsqrt (f : Fmt) (mode : Nat) (payl : Bool) (x : FVal) : FRes :=
  match x with
  | .nan _ _ _ _ => f.nanOf payl [x]
  | .inf n => if n then f.invalid else { bits := 0 }
  | .fin n m e =>
    if m = 0 then { bits := f.infBits n, c := { dz := true } }
    else if n then f.invalid
    else
      let (m, e) := if e % 2 = 0 then (m, e) else (2 * m, e - 1)
      let k := f.fw + 4 + Nat.log2 m
      let r := isqrt (4 ^ k / m)
      f.round mode false r (-(e / 2) - k) (r * r * m != 4 ^ k)

/-- 1/x (R53). -/
def Fmt.recip (f : Fmt) (mode : Nat) (payl : Bool) (x : FVal) : FRes :=
  if x.isNan then f.nanOf payl [x] else f.div mode payl (.fin false 1 0) x

end Sys2Proof.Machine
end

