-- ==== Sys2Proof/Machine/Vector.lean ====
section
/-! DEFINITION. Vector arithmetic, comparison, conversion, reduction and lane movement, functions, random numbers, masks,
block scales and codebook decoding (R278 to R293). -/

namespace Sys2Proof.Machine

/-! ### Arithmetic (R278, R279) -/

/-- Lanes of the operands as integers of TY, and as floating values. -/
def Env.il (e : Env) (f : BitVec 6) (j : Nat) : Int := intVal (tyN e.x) (BitVec.ofNat 64 (e.lane f j))
def Env.ilB (e : Env) (j : Nat) : Int := intVal (tyN e.x) (BitVec.ofNat 64 (e.laneB j))
def Env.fl (e : Env) (f : BitVec 6) (j : Nat) : FVal := e.fmt.decode (e.lane f j)
def Env.flB (e : Env) (j : Nat) : FVal := e.fmt.decode (e.laneB j)

/-- An integer result of a lane: modulo 2^w, or clamped under .sat (R278). -/
def Env.intLane (e : Env) (v : Int) : FRes :=
  { bits := ((if (mN e.x).testBit 4 then clampTy (tyN e.x) v else v) % 2 ^ e.w).toNat }

/-- An instruction of R278 with its integer and its floating operation. -/
def vecArith (e : Env) (fi : Nat → Int) (ff : Nat → FRes) : Act :=
  e.retLanes (mN e.x) fun j => if isIntTy e.x then e.intLane (fi j) else ff j

def execVadd (x : Args) (s : State) : Host.Outcome State Fault Refusal :=
  perform eVadd x s fun e =>
    vecArith e (fun j => e.il e.x.a j + e.ilB j) fun j => e.fmt.add e.mode e.payl (e.fl e.x.a j) (e.flB j)
def execVsub (x : Args) (s : State) : Host.Outcome State Fault Refusal :=
  perform eVsub x s fun e =>
    vecArith e (fun j => e.il e.x.a j - e.ilB j) fun j => e.fmt.sub e.mode e.payl (e.fl e.x.a j) (e.flB j)
def execVmul (x : Args) (s : State) : Host.Outcome State Fault Refusal :=
  perform eVmul x s fun e =>
    vecArith e (fun j => e.il e.x.a j * e.ilB j) fun j => e.fmt.mul e.mode e.payl (e.fl e.x.a j) (e.flB j)
/-- VFMA: vC is in the C field. -/
def execVfma (x : Args) (s : State) : Host.Outcome State Fault Refusal :=
  perform eVfma x s fun e =>
    let c := cOf .modw e.x
    vecArith e (fun j => e.il e.x.a j * e.ilB j + e.il c j)
      fun j => e.fmt.fma e.mode e.payl (e.fl e.x.a j) (e.flB j) (e.fl c j)
def execVdiv (x : Args) (s : State) : Host.Outcome State Fault Refusal :=
  perform eVdiv x s fun e => e.retLanes (mN e.x) fun j => e.fmt.div e.mode e.payl (e.fl e.x.a j) (e.flB j)
def execVsqrt (x : Args) (s : State) : Host.Outcome State Fault Refusal :=
  perform eVsqrt x s fun e => e.retLanes (mN e.x) fun j => e.fmt.sqrt e.mode e.payl (e.fl e.x.a j)
def execVmin (x : Args) (s : State) : Host.Outcome State Fault Refusal :=
  perform eVmin x s fun e =>
    vecArith e (fun j => min (e.il e.x.a j) (e.ilB j)) fun j => e.fmt.minMax e.payl false (e.lane e.x.a j) (e.laneB j)
def execVmax (x : Args) (s : State) : Host.Outcome State Fault Refusal :=
  perform eVmax x s fun e =>
    vecArith e (fun j => max (e.il e.x.a j) (e.ilB j)) fun j => e.fmt.minMax e.payl true (e.lane e.x.a j) (e.laneB j)
/-- VABS and VNEG change the sign bit only on floating types (R279). -/
def execVabs (x : Args) (s : State) : Host.Outcome State Fault Refusal :=
  perform eVabs x s fun e =>
    vecArith e (fun j => ((e.il e.x.a j).natAbs : Int)) fun j => { bits := e.lane e.x.a j % 2 ^ (e.w - 1) }
def execVneg (x : Args) (s : State) : Host.Outcome State Fault Refusal :=
  perform eVneg x s fun e => vecArith e (fun j => -e.il e.x.a j) fun j => { bits := e.lane e.x.a j ^^^ 2 ^ (e.w - 1) }

/-! ### Compare, select, bitwise and shifts (R280 to R282) -/

def execVcmp (x : Args) (s : State) : Host.Outcome State Fault Refusal :=
  perform eVcmp x s fun e =>
    let r := mN e.x / 16 % 8
    e.retMask fun j =>
      if isIntTy e.x then (intRel r (e.il e.x.a j) (e.ilB j), {}) else fltRel r (e.fl e.x.a j) (e.flB j)
def execVsel (x : Args) (s : State) : Host.Outcome State Fault Refusal :=
  perform eVsel x s fun e =>
    let k := e.p.mask (cOf .modw e.x).toNat
    e.retLanesN fun j => if k.getLsbD j then e.lane e.x.a j else e.lane e.x.b j
def execVand (x : Args) (s : State) : Host.Outcome State Fault Refusal :=
  perform eVand x s fun e => e.retLanesN fun j => e.lane e.x.a j &&& e.laneB j
def execVor (x : Args) (s : State) : Host.Outcome State Fault Refusal :=
  perform eVor x s fun e => e.retLanesN fun j => e.lane e.x.a j ||| e.laneB j
def execVxor (x : Args) (s : State) : Host.Outcome State Fault Refusal :=
  perform eVxor x s fun e => e.retLanesN fun j => e.lane e.x.a j ^^^ e.laneB j
def execVshl (x : Args) (s : State) : Host.Outcome State Fault Refusal :=
  perform eVshl x s fun e => e.retLanesN fun j => e.lane e.x.a j * 2 ^ (e.laneB j % e.w) % 2 ^ e.w
def execVshr (x : Args) (s : State) : Host.Outcome State Fault Refusal :=
  perform eVshr x s fun e => e.retLanesN fun j => e.lane e.x.a j / 2 ^ (e.laneB j % e.w)
def execVsra (x : Args) (s : State) : Host.Outcome State Fault Refusal :=
  perform eVsra x s fun e =>
    e.retLanesN fun j => ((sextN (e.lane e.x.a j) e.w).toInt / 2 ^ (e.laneB j % e.w) % 2 ^ e.w).toNat

/-! ### Conversion (R283, R284) -/

/-- The rounding mode of an instruction that accepts .rs: 5 for it. -/
def modeRs (e : Env) : Nat := if (rndOf .modw e.x).toNat = 5 then 5 else e.mode

/-- The random value of element `j` (R284). -/
def Env.random (e : Env) (j : Nat) : Nat := laneOf (e.p.vec (e.x.b.toNat + j / 32)).toNat 32 (j % 32)

/-- The scale field of element `j`: byte ⌊j / 16⌋ of C, 127 where C is zero (R283). -/
def Env.scaleC (e : Env) (j : Nat) : Nat :=
  if cOf .modw e.x == 56 then 127 else e.c.toNat / 256 ^ (j / 16) % 256

/-- An element converted from `src` to `dst`: scaling applies to the side whose format takes block scales, and an element that
nothing scales is +0 where it is zero (R39). -/
def convElem (src dst : Elem) (srcScaled dstScaled : Bool) (mode : Nat) (payl : Bool) (scale random bits : Nat) : FRes :=
  let x := src.value bits
  if dstScaled then dst.encodeScaled src.isInt mode payl random scale x
  else dst.encode src.isInt mode payl false random (if srcScaled then x.scaled scale else x.plain)

/-- VCVT: element `j` is in lane `j` on the wider side and in lane P·N + `j` on the narrower. -/
def execVcvt (x : Args) (s : State) : Host.Outcome State Fault Refusal :=
  perform eVcvt x s fun e =>
    let m := mN e.x
    let f := m / 16 % 16
    let out := m.testBit 3
    let tScaled := tyN e.x = 12 || tyN e.x = 13
    let fScaled := 4 ≤ f && f ≤ 8
    let src := if out then elemTy (tyN e.x) else elemFmt f
    let dst := if out then elemFmt f else elemTy (tyN e.x)
    let ws := if out then e.w else fmtWidth f
    let wd := if out then fmtWidth f else e.w
    let n := vcvtCount e.x
    let p := m / 256 % 8
    let conv (j : Nat) : FRes :=
      convElem src dst (if out then tScaled else fScaled) (if out then fScaled else tScaled) (modeRs e) e.payl
        (e.scaleC j) (e.random j) (laneOf (e.p.vec e.x.a.toNat).toNat ws (if ws < wd then p * n + j else j))
    let base := if wd < ws then p * n else 0
    let rs : List (Option FRes) := (List.range (1024 / wd)).map fun l =>
      if base ≤ l && l < base + n && e.active m (l - base) then some (conv (l - base)) else none
    let c := rs.foldl (fun (a : Cond) r => a.or ((r.map FRes.c).getD {})) {}
    e.finishFp c fun q =>
      q.setVec e.x.d.toNat (mergeLanes wd false (q.vec e.x.d.toNat) (rs.map (·.map FRes.bits)))

/-! ### Reduction and lane movement (R285 to R287) -/

/-- VRED: with no lane active +0 or the canonical NaN, and for integers 0 or the far end of the range. -/
def execVred (x : Args) (s : State) : Host.Outcome State Fault Refusal :=
  perform eVred x s fun e =>
    let op := mN e.x / 16 % 4
    let t := tyN e.x
    let ls := (List.range e.lanes).map fun j => if e.active (mN e.x) j then some (e.lane e.x.a j) else none
    let r := treeReduce (combine op t e.mode e.payl) 8 ls
    let none_ : Nat :=
      if isIntTy e.x then (if op = 0 then 0 else ((if op = 1 then intMax t else intMin t) % 2 ^ e.w).toNat)
      else if op = 0 then 0 else e.fmt.qnan
    let v := r.1.getD none_
    if isIntTy e.x then e.ret (extTy t v) else e.retF { bits := v, c := r.2 }

def execVprm (x : Args) (s : State) : Host.Outcome State Fault Refusal :=
  perform eVprm x s fun e =>
    e.retLanesN fun j =>
      let k := e.lane e.x.b j % (2 * e.lanes)
      if k < e.lanes then e.lane e.x.a k else e.lane (cOf .modw e.x) (k - e.lanes)
def execVshf (x : Args) (s : State) : Host.Outcome State Fault Refusal :=
  perform eVshf x s fun e =>
    e.retLanesN fun j =>
      let k := j + mN e.x / 16
      if k < e.lanes then e.lane e.x.a k else e.lane (cOf .modw e.x) (k - e.lanes)
def execVbc (x : Args) (s : State) : Host.Outcome State Fault Refusal :=
  perform eVbc x s fun e => e.retLanesN fun _ => e.a.toNat % 2 ^ e.w

/-- The lane that B names must exist (R287). -/
def Env.laneCheck (e : Env) (go : Nat → Act) : Act := if e.lanes ≤ e.b.toNat then e.trap 14 0 e.b else go e.b.toNat

def execVext (x : Args) (s : State) : Host.Outcome State Fault Refusal :=
  perform eVext x s fun e => e.laneCheck fun j =>
    let v := e.lane e.x.a j
    e.ret (if tyN e.x < 4 then sextN v e.w else zextN v e.w)
/-- VINS writes the one lane, where it is active. -/
def execVins (x : Args) (s : State) : Host.Outcome State Fault Refusal :=
  perform eVins x s fun e => e.laneCheck fun b => .next (e.upd fun p =>
    p.setVec e.x.d.toNat (mergeLanes e.w false (p.vec e.x.d.toNat)
      ((List.range e.lanes).map fun j => if j = b && e.active (mN e.x) j then some (e.a.toNat % 2 ^ e.w) else none)))

/-! ### Functions, random numbers and classes (R288 to R290) -/

/-- A function of R53 on each active lane. -/
def vecFun (e : Env) (g : Fun) : Act := e.retLanes (mN e.x) fun j => e.fmt.fun e.mode e.payl g (e.fl e.x.a j)

def execVexp (x : Args) (s : State) : Host.Outcome State Fault Refusal := perform eVexp x s fun e => vecFun e .exp
def execVlog (x : Args) (s : State) : Host.Outcome State Fault Refusal := perform eVlog x s fun e => vecFun e .log
def execVsin (x : Args) (s : State) : Host.Outcome State Fault Refusal := perform eVsin x s fun e => vecFun e .sin
def execVcos (x : Args) (s : State) : Host.Outcome State Fault Refusal := perform eVcos x s fun e => vecFun e .cos
def execVtanh (x : Args) (s : State) : Host.Outcome State Fault Refusal := perform eVtanh x s fun e => vecFun e .tanh
def execVerf (x : Args) (s : State) : Host.Outcome State Fault Refusal := perform eVerf x s fun e => vecFun e .erf
def execVrsq (x : Args) (s : State) : Host.Outcome State Fault Refusal :=
  perform eVrsq x s fun e => e.retLanes (mN e.x) fun j => e.fmt.rsqrt e.mode e.payl (e.fl e.x.a j)
def execVrcp (x : Args) (s : State) : Host.Outcome State Fault Refusal :=
  perform eVrcp x s fun e => e.retLanes (mN e.x) fun j => e.fmt.recip e.mode e.payl (e.fl e.x.a j)

/-- One round of KMX on (lo, hi) with its key word and rotation (R55). -/
def kmxRound (lh : BitVec 32 × BitVec 32) (k : BitVec 32) (r : Nat) : BitVec 32 × BitVec 32 :=
  let f := (lh.1 + k).rotateLeft r ^^^ lh.1
  (lh.2 ^^^ f, lh.1)

/-- KMX (R55). -/
def kmx (seed : Word) (stream : BitVec 32) (ctr : Word) : BitVec 32 :=
  let s0 := seed.extractLsb' 0 32
  let s1 := seed.extractLsb' 32 32
  let a := kmxRound (ctr.extractLsb' 0 32, ctr.extractLsb' 32 32) (s0 ^^^ 0x6A1F2C35) 8
  let b := kmxRound a (s1 ^^^ 0xB54D8E17) 12
  let c := kmxRound b (stream ^^^ 0x3C92F4A9) 20
  (kmxRound c ((s0 ^^^ s1 ^^^ stream) ^^^ 0xD7E05B63) 24).1

/-- VRNG: a counter past 2^64 − 1 raises fault 56 under CR.RNGCTL.WRAPTRAP and wraps otherwise (R290). -/
def execVrng (x : Args) (s : State) : Host.Outcome State Fault Refusal :=
  perform eVrng x s fun e =>
    let wraps := ((List.range 32).filter (e.active (mN e.x))).any fun j => 2 ^ 64 ≤ e.c.toNat + j
    if wraps && e.p.rngctl.getLsbD 0 then e.trap 56
    else e.retLanesN fun j => (kmx e.a (e.b.extractLsb' 0 32) (e.c + BitVec.ofNat 64 j)).toNat

def execVcls (x : Args) (s : State) : Host.Outcome State Fault Refusal :=
  perform eVcls x s fun e => e.retMask fun j => ((e.fmt.classify (e.lane e.x.a j) &&& e.b.toNat) % 1024 != 0, {})

/-! ### Masks (R291) -/

/-- A result for the mask register D. -/
def Env.retK (e : Env) (v : BitVec 128) : Act := .next (e.upd fun p => p.setMask e.x.d.toNat v)

def Env.ka (e : Env) : BitVec 128 := e.p.mask e.x.a.toNat
def Env.kb (e : Env) : BitVec 128 := e.p.mask e.x.b.toNat

def execKand (x : Args) (s : State) : Host.Outcome State Fault Refusal := perform eKand x s fun e => e.retK (e.ka &&& e.kb)
def execKor (x : Args) (s : State) : Host.Outcome State Fault Refusal := perform eKor x s fun e => e.retK (e.ka ||| e.kb)
def execKxor (x : Args) (s : State) : Host.Outcome State Fault Refusal := perform eKxor x s fun e => e.retK (e.ka ^^^ e.kb)
def execKnot (x : Args) (s : State) : Host.Outcome State Fault Refusal := perform eKnot x s fun e => e.retK (~~~e.ka)
def execKpop (x : Args) (s : State) : Host.Outcome State Fault Refusal :=
  perform eKpop x s fun e => e.ret (BitVec.ofNat 64 ((List.range e.lanes).filter e.ka.getLsbD).length)
/-- KMOV: MOD[4] .tow, MOD[5] .hi; .tok leaves the other half. -/
def execKmov (x : Args) (s : State) : Host.Outcome State Fault Refusal :=
  perform eKmov x s fun e =>
    let hi := (mN e.x).testBit 5
    if (mN e.x).testBit 4 then e.ret (e.ka.extractLsb' (if hi then 64 else 0) 64)
    else
      let old := e.p.mask e.x.d.toNat
      e.retK (if hi then e.a ++ old.extractLsb' 0 64 else old.extractLsb' 64 64 ++ e.a)

/-! ### Block scales and codebook decoding (R292, R293) -/

/-- VSCL: byte g of D is the scale of the block that holds lanes 16g to 16g + 15. -/
def execVscl (x : Args) (s : State) : Host.Outcome State Fault Refusal :=
  perform eVscl x s fun e =>
    let bs := 16 * 2 ^ (mN e.x / 256 % 4)
    let f := fmtOf (mN e.x / 16 % 16)
    let field (g : Nat) : Nat :=
      let at_ := 16 * g / bs * bs
      scaleField f ((((List.range bs).map (at_ + ·)).filter (e.active (mN e.x))).map (e.fl e.x.a))
    e.ret (BitVec.ofNat 64 (joinLanes 8 ((List.range (e.lanes / 16)).map field)))

/-- VQDC: weight i is weight i mod 8 of index s + ⌊i / 8⌋ of A; byte ⌊i / 32⌋ of B is its block's scale. -/
def execVqdc (x : Args) (s : State) : Host.Outcome State Fault Refusal :=
  perform eVqdc x s fun e =>
    let first := mN e.x / 16 % 64
    let index (i : Nat) : Nat := laneOf (e.p.vec e.x.a.toNat).toNat 16 (first + i / 8)
    let used := ((List.range e.lanes).filter (e.active (mN e.x))).map fun i => index i / 256
    match e.s0.vqFault e.p used with
    | some f => e.trap f.1 0 f.2
    | none => e.retLanes (mN e.x) fun i =>
        (Elem.flt e.fmt).encode false e.mode e.payl false 0
          ((vqWeight (e.s0.vqEntry e.p) (index i) (i % 8)).scaled (e.b.toNat / 256 ^ (i / 32) % 256))

end Sys2Proof.Machine
end

