-- ==== Sys2Proof/Machine/Formats.lean ====
section
/-! DEFINITION. Where format accesses find their format, block geometry and scales (R129, R130, R340): from the page in
translated GLOBAL memory, from the process's descriptors elsewhere; and accesses made of several parts (R273, R276). -/

namespace Sys2Proof.Machine

/-! ### Regions -/

/-- A region of elements: the address of element position 0, the format, the block code, and the address of the scale
of block 0 where the scales are not fixed at 127. -/
structure FmtRegion where
  base : Nat
  fmt : Nat
  blk : Nat
  scale : Option Nat
  deriving DecidableEq, Repr

/-- Bits of an element in memory; a weight of vq2 takes two (R33, R36). -/
def storedBits (fmt : Nat) : Nat := if fmt = 11 then 2 else fmtWidth fmt

/-- Elements of a block: always 32 for vq2 (R34). -/
def blockSize_ (fmt blk : Nat) : Nat := if fmt = 11 then 32 else 16 * 2 ^ blk

/-- Position of the element at an address, and the address of its block's scale. -/
def FmtRegion.pos (r : FmtRegion) (va : Nat) : Nat := (va - r.base) * 8 / storedBits r.fmt
def FmtRegion.scaleAt (r : FmtRegion) (pos : Nat) : Option Nat := r.scale.map fun a => (a + pos / blockSize_ r.fmt r.blk) % 2 ^ 64

/-- Format and geometry agree (R274): the block code does not count for vq2. -/
def FmtRegion.agrees (r q : FmtRegion) : Bool := r.fmt == q.fmt && (r.fmt == 11 || r.blk == q.blk)

/-- The region that the page of a present translation forms (R340). -/
def State.pageRegion (s : State) (die ctx va : Nat) : Option FmtRegion :=
  (s.tlbFind die ctx va).map fun t =>
    let base := va / 2 ^ t.bits * 2 ^ t.bits
    let soff := (t.leaf.extractLsb' 0 16).toInt
    { base := base, fmt := (t.leaf.extractLsb' 52 4).toNat, blk := (t.leaf.extractLsb' 50 2).toNat,
      scale := if t.leaf.getLsbD 49 then some ((base + soff * 65536) % 2 ^ 64).toNat else none }

/-- The descriptors of a process that name a space, in order, with the ends of their regions; `start` is the address of
offset 0 of the space. One with format 12 to 15, block code 3 or no byte matches nothing; vq2 ignores the block code (R129). -/
def Proc.descriptors (p : Proc) (space start : Nat) : List (FmtRegion × Nat) :=
  (List.range 8).filterMap fun i =>
    let d := tblGetD p.fmt i 0
    let f := (d.extractLsb' 57 4).toNat
    let b := if f = 11 then 1 else (d.extractLsb' 55 2).toNat
    let base := start + (d.extractLsb' 36 18).toNat * 256
    let len := (d.extractLsb' 18 18).toNat * 256
    if (d.extractLsb' 62 2).toNat = space && d.getLsbD 61 && f < 12 && b < 3 && len != 0 then
      some ({ base := base, fmt := f, blk := b,
              scale := if d.getLsbD 54 then some (start + (d.extractLsb' 0 18).toNat * 256) else none }, base + len)
    else none

/-- The descriptor that governs an access (R130): the lowest-numbered whose region contains every byte of it. None where
no region does, or where the access lies partly inside some region. The access may depend on the format. -/
def pickRegion (ds : List (FmtRegion × Nat)) (runs : FmtRegion → List (Nat × Nat)) : Option FmtRegion :=
  let inside (d : FmtRegion × Nat) (r : Nat × Nat) : Bool := d.1.base ≤ r.1 && r.1 + r.2 ≤ d.2
  let touches (d : FmtRegion × Nat) (r : Nat × Nat) : Bool := r.1 < d.2 && d.1.base < r.1 + r.2
  match ds.find? fun d => (runs d.1).all (inside d) with
  | none => none
  | some d =>
    let rs := runs d.1
    if ds.any fun q => rs.any (touches q) && !rs.all (inside q) then none else some d.1

/-- What the search for a region comes to. -/
inductive Found where
  | region (r : FmtRegion)
  | fault (cause : Nat)
  | miss
  deriving DecidableEq, Repr

/-- The region of an access that begins at `va` (R274, R305): in GLOBAL space below the table window by the page there,
once it grants what is needed. (DEDUCED, log entry 58; unsafe.) -/
def State.findRegion (s : State) (p : Proc) (space va : Nat) (need : Need) (runs : FmtRegion → List (Nat × Nat)) : Found :=
  let off := va % 2 ^ 40
  let described (code start : Nat) : Found :=
    match pickRegion (p.descriptors code start) runs with
    | some r => .region r
    | none => .fault 23
  if space != spGlobal then described space 0
  else if scratchOff ≤ off then described 2 (va / 2 ^ 40 * 2 ^ 40 + scratchOff)
  else match s.resolveUnit (coreDie p.core) p.ctx p.priv need va 1 with
    | .fault c _ => .fault c
    | .miss _ => .miss
    | .ok _ =>
      match s.pageRegion (coreDie p.core) p.ctx va with
      | some r => .region r
      | none => .fault 23

/-- The access to a scale byte (R130, R340): checked against the window of its space or translated, not against the
address register's range. -/
def State.scaleAcc (s : State) (ctx core : Nat) (priv : Bool) (space near at_ : Nat) (need : Need) : Acc :=
  let c := s.ctx ctx
  if space = spLocal then
    if c.tlen < at_ + 1 then .fault 17 at_ else .ok [{ va := at_, pa := s.localPA core ctx at_, len := 1 }]
  else if space = spCluster then
    if c.slen < at_ + 1 then .fault 17 at_ else .ok [{ va := at_, pa := s.padAddr core ctx at_, len := 1 }]
  else if at_ / 2 ^ 40 != near / 2 ^ 40 then .fault 18 at_
  else s.resolve (coreDie core) ctx priv need at_ 1

/-! ### Accesses of several parts -/

/-- A part of an access: an exact address, which may lie outside 64 bits, and what its check comes to. -/
def State.checkPart (s : State) (p : Proc) (a : AReg) (ea : Int) (n space : Nat) (perms : BitVec 8) (align : Nat)
    (need : Need) : Acc :=
  let at_ := if ea < 0 then 2 ^ 80 else ea.toNat
  match s.checkRange p.ctx p.core a at_ n space perms align with
  | some c => .fault c (ea % 2 ^ 64).toNat
  | none => s.locate p.ctx p.core p.priv at_ n space need

/-- One entry for each 64 KiB page, the first. -/
def firstOnPage : List (Nat × Word) → List (Nat × Word)
  | [] => []
  | a :: t => a :: (firstOnPage t).filter fun b => b.1 / 65536 != a.1 / 65536

/-- The first failing part's cause and address, the addresses that miss, and the pieces of a part. -/
def firstFault (as_ : List Acc) : Option (Nat × Word) :=
  as_.findSome? fun (a : Acc) => match a with
    | .fault c va => some (c, BitVec.ofNat 64 va)
    | _ => none
def Acc.misses : Acc → List Nat
  | .miss vas => vas
  | _ => []
def Acc.pieces : Acc → List Piece
  | .ok ps => ps
  | _ => []

/-- A process's access in parts: a precise fault, a park with reason page for every page that misses (R276), each with
the address that its decline reports, or what follows. -/
def Env.whenPresent (e : Env) (fault : Option (Nat × Word)) (misses : List (Nat × Word)) (write : Bool) (go : Act) : Act :=
  match fault with
  | some f => e.trap f.1 0 f.2
  | none =>
    if misses.isEmpty then go
    else
      let d := coreDie e.p.core
      let ms := firstOnPage misses
      let r := e.s0.missAll d e.p.ctx (ms.map (·.1)) write false (.proc e.pid)
      .park r.2 .page (.miss d (r.1.zip (ms.map (·.2))))

def Env.accessParts (e : Env) (as_ : List Acc) (write : Bool) (go : List (List Piece) → Act) : Act :=
  e.whenPresent (firstFault as_) ((as_.flatMap Acc.misses).map fun va => (va, BitVec.ofNat 64 va)) write
    (go (as_.map Acc.pieces))

end Sys2Proof.Machine
end

