-- ==== Sys2Proof/Machine/VectorMem.lean ====
section
/-! DEFINITION. Vector loads and stores, gather and scatter (R273 to R277), with the format form .f (R274). -/

namespace Sys2Proof.Machine

/-! ### Lanes in memory -/

/-- The access to each active lane: its check, and where its bytes lie (R273, R276). -/
def Env.laneAccs (e : Env) (a : AReg) (space n align : Nat) (store : Bool) (at_ : Nat → Int) (acts : List Nat) : List Acc :=
  acts.map fun j =>
    if store then e.s0.checkPart e.p a (at_ j) n space pWR align { wr := true }
    else e.s0.checkPart e.p a (at_ j) n space pRD align { rd := true }

/-- The active lanes of a vector memory instruction. -/
def Env.activeLanes (e : Env) : List Nat := (List.range e.lanes).filter (e.active (mO e.x))

/-- A store-buffer entry of the context overlaps some of the bytes by virtual address (R275). -/
def State.sbHits (s : State) (core ctx : Nat) (ps : List Piece) : Bool :=
  (s.core core).sb.any fun en => en.ctx == ctx && en.what.stores.any fun x => ps.any fun q => overlaps x.1 x.2 q.va q.len

/-- The values of the parts of a vector load: GLOBAL loads wait for overlapping stores and for their lines (R275); an
uncorrectable word raises fault 24 (R135). `extra` are lines read beside the parts. -/
def Env.readParts (e : Env) (space : Nat) (ps : List (List Piece)) (extra : List Piece) (go : List Nat → Act) : Act :=
  let all := ps.flatten
  let rd : Act :=
    match e.s0.badPiece (e.fills (all ++ extra)) with
    | some a => e.trap 24 0 (BitVec.ofNat 64 a)
    | none => go (ps.map fun q => bytesNat (e.s0.readPieces q))
  if space != spGlobal then rd
  else if e.s0.sbHits e.p.core e.p.ctx (all ++ extra) then .stall e.s0
  else match e.missLine (all ++ extra) with
    | some l => e.fetchLine (all ++ extra) l
    | none => rd

/-- Values by lane where the active lanes have them in order. -/
def byLane (lanes : Nat) (acts vals : List Nat) : List (Option Nat) :=
  (List.range lanes).map fun j => (acts.zip vals).lookup j

/-- The lanes of a load written to D (R270, R273). -/
def Env.retLoad (e : Env) (acts vals : List Nat) (c : Cond) : Act :=
  e.finishFp c fun p =>
    p.setVec e.x.d.toNat (mergeLanes e.w ((mO e.x).testBit 3) (p.vec e.x.d.toNat) (byLane e.lanes acts vals))

/-- Runs of bytes that follow each other in one 64-byte line become one. -/
def addRun : List (Nat × Nat × List Byte) → Nat × Nat × List Byte → List (Nat × Nat × List Byte)
  | [], r => [r]
  | [q], r => if q.1 / 64 == r.1 / 64 && q.1 + q.2.2.length == r.1 then [(q.1, q.2.1, q.2.2 ++ r.2.2)] else [q, r]
  | q :: t, r => q :: addRun t r

/-- The store-buffer entries of a contiguous GLOBAL store, one for each line that its active lanes touch (R275). -/
def lineEntries (ps : List (List Piece)) (vals : List (List Byte)) : List SbWhat :=
  let runs := (ps.zip vals).foldl (fun (l : List (Nat × Nat × List Byte)) (q : List Piece × List Byte) =>
    match q.1 with
    | p :: _ => addRun l (p.va, p.pa, q.2)
    | [] => l) []
  let lines := (runs.map fun r => r.1 / 64).eraseDups
  lines.map fun l => .pieces (runs.filter fun r => r.1 / 64 == l)

/-- Several entries enter the store buffer together (R275). -/
def Env.withEntries (e : Env) (s : State) (ws : List SbWhat) : Act :=
  let c := e.s0.core e.p.core
  if 16 < c.sb.length + ws.length || 65535 < e.p.cStore + ws.length then .stall e.s0
  else
    let s := s.modCore e.p.core fun c =>
      { c with sb := c.sb ++ ws.zipIdx.map fun (w : SbWhat × Nat) =>
                 { seq := c.sbSeq + w.2, pid := e.pid, ctx := e.p.ctx, what := w.1 },
               sbSeq := c.sbSeq + ws.length }
    .next (s.modProc e.pid fun p => { p with cStore := p.cStore + ws.length })

/-- The parts of a vector store written in increasing lane order (R273): a contiguous GLOBAL store goes to the store
buffer, another GLOBAL store waits for every earlier store of the core (R275). -/
def Env.writeParts (e : Env) (space : Nat) (contig : Bool) (ps : List (List Piece)) (vals : List (List Byte)) : Act :=
  let wr : Act := .next ((ps.zip vals).foldl (fun s (q : List Piece × List Byte) => s.spaceWrite e.p.core space q.1 q.2) (e.count ps.flatten e.s))
  if space != spGlobal then wr
  else if contig then e.withEntries (e.count ps.flatten e.s) (lineEntries ps vals)
  else
    let mark := e.p.sbMark.getD (e.s0.core e.p.core).sbSeq
    if e.s0.sbDone e.p.core mark then wr
    else .park (e.s0.modProc e.pid fun p => { p with sbMark := some mark }) .memoryServer (.stores mark)

/-- Lane `j` of a vector load or store lies at `at_ j` (R273). -/
def Env.moveLanes (e : Env) (space : Nat) (store contig : Bool) (at_ : Nat → Int) : Act :=
  let n := e.w / 8
  let acts := e.activeLanes
  e.accessParts (e.laneAccs (e.areg e.x.a) space n n store at_ acts) store fun ps =>
    if store then e.writeParts space contig ps (acts.map fun j => natBytes n (e.lane e.x.d j))
    else e.readParts space ps [] fun vs => e.retLoad acts vs {}

/-! ### The format form (R274) -/

/-- The formats that a .f load reads and a .f store writes for TY. -/
def dotfOk (store : Bool) (ty fmt : Nat) : Bool :=
  if 8 ≤ ty && ty ≤ 11 then (if store then fmt ≤ 3 else fmt ≤ 8 || fmt == 11)
  else if ty ≤ 2 then fmt == 9 || (!store && fmt == 10)
  else false

/-- Where element `j` from an address lies: the offset of its bytes, how many they are, and its place among the elements
that they hold (R33, R36). -/
def elemPlace (fmt j : Nat) : Nat × Nat × Nat :=
  if fmt = 11 then (2 * (j / 8), 2, j % 8)
  else if fmtWidth fmt = 4 then (j / 2, 1, j % 2)
  else (j * fmtWidth fmt / 8, fmtWidth fmt / 8, 0)

/-- The value of an element from the number its bytes hold (R33, R36). -/
def elemValue (fmt sub v : Nat) (entry : Nat → List Byte) : FVal :=
  if fmt = 11 then vqWeight entry v sub
  else if fmtWidth fmt = 4 then (elemFmt fmt).value (v / 16 ^ sub)
  else (elemFmt fmt).value v

/-- The region of each active lane: the descriptor's, or that of the lane's own page, which must agree in format and
geometry; else the address where it does not. (DEDUCED, log entry 58; unsafe.) -/
def Env.laneRegions (e : Env) (space : Nat) (r : FmtRegion) (as_ : List Nat) : List FmtRegion ⊕ Nat :=
  if space != spGlobal then .inl (as_.map fun _ => r)
  else
    let of (a : Nat) : FmtRegion :=
      if windowOff ≤ a % 2 ^ 40 then r else (e.s0.pageRegion (coreDie e.p.core) e.p.ctx a).getD r
    match as_.find? fun a => !(of a).agrees r with
    | some a => .inr a
    | none => .inl (as_.map of)

/-- The access to the scale byte of the element at a position of a region; it has no bytes where there is none. -/
def Env.scaleAccess (e : Env) (space near : Nat) (r : FmtRegion) (pos : Nat) : Acc :=
  match r.scaleAt pos with
  | some at_ => e.s0.scaleAcc e.p.ctx e.p.core e.p.priv space near at_ { rd := true }
  | none => .ok []

/-- The scale field of a position from the bytes of its block's scale, 127 where it has none (R340). -/
def scaleOf (s : State) : List Piece → Nat
  | [] => 127
  | ps => bytesNat (s.readPieces ps)

/-- The accesses of a .f load to the scale bytes of its active lanes, whose regions and own accesses are given; while a
lane's own page misses, its scale byte has no address yet. -/
def Env.laneScales (e : Env) (space ea : Nat) (r : FmtRegion) (acts : List Nat) (rs : List FmtRegion) (as_ : List Acc) :
    List Acc :=
  ((acts.zip rs).zip as_).map fun q =>
    let place := elemPlace r.fmt q.1.1
    if scaledFmt r.fmt && q.2.misses.isEmpty then e.scaleAccess space ea q.1.2 (q.1.2.pos (ea + place.1) + place.2.2)
    else .ok []

/-- A .f load of the active lanes whose bytes and scale bytes are found. -/
def Env.loadFmt (e : Env) (space mode : Nat) (r : FmtRegion) (acts : List Nat) (ps sp : List (List Piece)) : Act :=
  e.readParts space ps sp.flatten fun vs =>
    let entries := vs.map fun v => v / 256 % 256
    match if r.fmt = 11 then e.s0.vqFault e.p entries else none with
    | some f => e.trap f.1 0 f.2
    | none =>
      let res := ((acts.zip vs).zip sp).map fun (q : (Nat × Nat) × List Piece) =>
        let x := elemValue r.fmt (elemPlace r.fmt q.1.1).2.2 q.1.2 (e.s0.vqEntry e.p)
        let x := if scaledFmt r.fmt then x.scaled (scaleOf e.s0 q.2) else x
        (elemTy (tyN e.x)).encode (9 ≤ r.fmt && r.fmt != 11) mode e.payl false 0 x
      e.retLoad acts (res.map FRes.bits) (res.foldl (fun (a : Cond) q => a.or q.c) {})

/-- A .f store of the active lanes whose bytes are found: the conditions come before any byte (R42). -/
def Env.storeFmt (e : Env) (space mode : Nat) (r : FmtRegion) (acts : List Nat) (ps : List (List Piece)) : Act :=
  let res := acts.map fun j =>
    (elemFmt r.fmt).encode (isIntTy e.x) mode e.payl false 0 ((elemTy (tyN e.x)).value (e.lane e.x.d j))
  let c := res.foldl (fun (a : Cond) q => a.or q.c) {}
  match trapCause e.p.fpc c with
  | some k => .fault (e.s0.modProc e.pid fun p => p.raiseFlags c) { cause := k }
  | none =>
    { e with s := e.upd fun p => p.raiseFlags c }.writeParts space true ps
      (res.map fun (q : FRes) => natBytes (fmtWidth r.fmt / 8) q.bits)

/-- The page of the die's own translated memory that holds an address: its width in bits and its region. -/
def Env.ownPage (e : Env) (va : Nat) : Option (Nat × FmtRegion) :=
  if va / 2 ^ 43 = e.s0.devId && (e.s0.ctx e.p.ctx).mapDie (va / 2 ^ 40 % 8) = coreDie e.p.core then
    (e.s0.tlbFind (coreDie e.p.core) e.p.ctx va).bind fun t =>
      (e.s0.pageRegion (coreDie e.p.core) e.p.ctx va).map fun r => (t.bits, r)
  else none

/-- The region that places the active lanes of a .f access at ea, and the address that a check of the whole access reports
(R270, R274): in translated memory the page of ea, or where the lowest active lane lies beyond that page, the page which
holds it. While no page that could place that lane is translated, one of them misses: the next page after ea's
where no format that TY admits puts the lane on ea's, else ea's. (DEDUCED, log entry 58; unsafe.) -/
def Env.laneRegion (e : Env) (space ea : Nat) (store : Bool) (acts : List Nat) : Found × Nat :=
  let at_ (r : FmtRegion) (j : Nat) : Nat := ea + (elemPlace r.fmt j).1
  let low (r : FmtRegion) : Nat := at_ r (acts.headD 0)
  if space != spGlobal || scratchOff ≤ ea % 2 ^ 40 then
    match e.s0.findRegion e.p space ea {} fun r => acts.map fun j => (at_ r j, (elemPlace r.fmt j).2.1) with
    | .region r => (.region r, low r)
    | f => (f, ea)
  else
    let edge := (ea / 65536 + 1) * 65536
    match e.ownPage ea, e.ownPage edge with
    | some (bits, r), _ =>
      if low r / 2 ^ bits = ea / 2 ^ bits then (.region r, low r)
      else match e.ownPage (low r) with
        | some (_, q) => (.region q, low q)
        | none => (.miss, low r)
    | none, some (_, q) => if edge ≤ low q then (.region q, low q) else (e.s0.findRegion e.p space ea {} fun _ => [], ea)
    | none, none =>
      let beyond := ((List.range 12).filter (dotfOk store (tyN e.x))).all fun f => edge ≤ ea + (elemPlace f (acts.headD 0)).1
      let near := if beyond then edge else ea
      (e.s0.findRegion e.p space near {} fun _ => [], near)

/-- The .f form: alignment, the region that places the active lanes, then the checks of those lanes alone (R270, R274). -/
def Env.moveFmt (e : Env) (space : Nat) (store : Bool) : Act :=
  let a := e.areg e.x.a
  let ea := e.ea.toNat
  let acts := e.activeLanes
  let perms := if store then pWR else pRD
  let need : Need := if store then { wr := true } else { rd := true }
  let mode := modeOf (rndOf .offset e.x).toNat e.p.fpc
  if ea % 8 != 0 then e.trap 16 0 e.ea
  else if acts.isEmpty then (if store then .next e.s else e.retLoad [] [] {})
  else
    let found := e.laneRegion space ea store acts
    let va := BitVec.ofNat 64 found.2
    if !a.valid || a.space != space || !a.grants perms then e.trap 15 0 va
    else match found.1 with
      | .region r =>
        if !dotfOk store (tyN e.x) r.fmt then e.trap 23 0 e.ea
        else
          let at_ (j : Nat) : Nat := ea + (elemPlace r.fmt j).1
          let accs := acts.map fun j => e.s0.checkPart e.p a (at_ j) (elemPlace r.fmt j).2.1 space perms 0 need
          match firstFault accs, e.laneRegions space r (acts.map at_) with
          | some f, _ => e.trap f.1 0 f.2
          | none, .inr x => e.trap 23 0 (BitVec.ofNat 64 x)
          | none, .inl rs =>
            if store then e.accessParts accs store fun ps => e.storeFmt space mode r acts ps
            else e.accessParts (accs ++ e.laneScales space ea r acts rs accs) store fun ps =>
              e.loadFmt space mode r acts (ps.take accs.length) (ps.drop accs.length)
      | f =>
        if space = spGlobal && (found.2 / 2 ^ 43 != e.s0.devId || (e.s0.ctx e.p.ctx).mapDie (found.2 / 2 ^ 40 % 8) != coreDie e.p.core) then
          e.trap 18 0 va
        else match f with
          | .fault c => e.trap c 0 va
          | _ => e.accessParts [.miss [found.2]] store fun _ => .next e.s

/-! ### Meanings -/

/-- A contiguous or strided load or store: B zero, operand 56, is contiguous; else B is the stride as s64 (R273). -/
def vecMove (e : Env) (space : Nat) (store : Bool) : Act :=
  if (mO e.x).testBit 4 then e.moveFmt space store
  else
    let contig := e.x.b == 56
    let stride : Int := if contig then ((e.w / 8 : Nat) : Int) else e.b.toInt
    e.moveLanes space store contig fun j => (e.ea.toNat : Int) + j * stride

def execVldl (x : Args) (s : State) : Host.Outcome State Fault Refusal := perform eVldl x s fun e => vecMove e spLocal false
def execVstl (x : Args) (s : State) : Host.Outcome State Fault Refusal := perform eVstl x s fun e => vecMove e spLocal true
def execVldc (x : Args) (s : State) : Host.Outcome State Fault Refusal := perform eVldc x s fun e => vecMove e spCluster false
def execVstc (x : Args) (s : State) : Host.Outcome State Fault Refusal := perform eVstc x s fun e => vecMove e spCluster true
def execVldg (x : Args) (s : State) : Host.Outcome State Fault Refusal := perform eVldg x s fun e => vecMove e spGlobal false
def execVstg (x : Args) (s : State) : Host.Outcome State Fault Refusal := perform eVstg x s fun e => vecMove e spGlobal true

/-- The index of a lane: s64 or s32 (R277). -/
def Env.index (e : Env) (j : Nat) : Int := (sextN (e.lane e.x.b j) e.w).toInt

/-- VGAT and VSCA: lane `j` at ea + idx · w/8, in the space of the address register; REMOTE raises fault 15 (R277). -/
def vecIndexed (e : Env) (store : Bool) : Act :=
  let a := e.areg e.x.a
  if a.space == spRemote then e.trap 15 0 e.ea
  else e.moveLanes a.space store false fun j => (e.ea.toNat : Int) + e.index j * ((e.w / 8 : Nat) : Int)

def execVgat (x : Args) (s : State) : Host.Outcome State Fault Refusal := perform eVgat x s fun e => vecIndexed e false
def execVsca (x : Args) (s : State) : Host.Outcome State Fault Refusal := perform eVsca x s fun e => vecIndexed e true

end Sys2Proof.Machine
end

