-- ==== Sys2Proof/Machine/Tile.lean ====
section
/-! DEFINITION. The tile unit and exact accumulation: buffers, the pipes and their events, TMMA, tiles to and from memory,
register instructions, and the exact accumulators (R294 to R314, R47 to R52). -/

namespace Sys2Proof.Machine

/-! ### Shapes and elements (R296 to R298) -/

def tileRows (f : Nat) : Nat := if f = 0 then 16 else 32
def tileCols (f : Nat) : Nat :=
  match f with
  | 0 | 1 => 16
  | 2 | 3 => 32
  | 8 | 10 => 128
  | 11 => 256
  | _ => 64
def rowBytes (f : Nat) : Nat := if f = 0 then 128 else 64

/-- Blocks of a tile, and the block of element (r, c): blocks hold consecutive elements, row after row. -/
def tileBlocks (f blk : Nat) : Nat := tileRows f * tileCols f / blockSize_ f blk
def blockOf (f blk r c : Nat) : Nat := (r * tileCols f + c) / blockSize_ f blk

/-- The number at index `c` of row `r`: an element's bits, or for vq2 the index that holds the weight (R297). -/
def YBuf.raw (b : YBuf) (f r c : Nat) : Nat :=
  let row := b.data.toNat / 2 ^ (8 * rowBytes f * r)
  if f = 11 then laneOf row 16 (c / 8) else laneOf row (fmtWidth f) c

/-- The value of element (r, c). -/
def YBuf.value (b : YBuf) (f r c : Nat) (entry : Nat → List Byte) : FVal :=
  if f = 11 then vqWeight entry (b.raw f r c) (c % 8) else (elemFmt f).value (b.raw f r c)

/-- The bytes of a scale string of `nb` blocks: register S, and S + 1 where nb > 128 (R298). -/
def Proc.scaleString (p : Proc) (r nb : Nat) : List Byte :=
  natBytes 128 (p.vec r).toNat ++ (if 128 < nb then natBytes 128 (p.vec (r + 1)).toNat else [])

/-- The rows of a tile as exact values, under its scale string where its format takes one (R304). -/
def YBuf.values (b : YBuf) (f blk : Nat) (scales : List Byte) (entry : Nat → List Byte) : List (List FVal) :=
  (List.range (tileRows f)).map fun r => (List.range (tileCols f)).map fun c =>
    let x := b.value f r c entry
    if scaledFmt f then x.scaled (scales.getD (blockOf f blk r c) 127).toNat else x

/-- The entries of the vq2 table that a tile's indices name. -/
def YBuf.entries (b : YBuf) : List Nat :=
  (List.range 32).flatMap fun r => (List.range 32).map fun c => b.raw 11 r (8 * c) / 256

/-! ### Exact sums (R47, R48) -/

/-- The exact sum of products and an accumulator rounded once to f32, with its special cases in order (R47). A zero sum
takes the sign of its terms where all are zeros of one sign (R39). -/
def dotExact (mode : Nat) (payl : Bool) (ab : List (FVal × FVal)) (acc : FVal) : FRes :=
  let f := fmtOf 1
  let ops := (ab.flatMap fun q => [q.1, q.2]) ++ [acc]
  let bad := ab.any fun q => (q.1.isZero && q.2.isInf) || (q.1.isInf && q.2.isZero)
  let infs := (ab.filterMap fun q => if q.1.isInf || q.2.isInf then some (q.1.neg != q.2.neg) else none) ++
    (if acc.isInf then [acc.neg] else [])
  if bad || ops.any FVal.isNan then f.nanOf payl ops bad
  else if infs.contains true && infs.contains false then f.invalid
  else match infs with
    | n :: _ => { bits := f.infBits n }
    | [] =>
      let term (x y : FVal) : Bool × Nat × Int :=
        match x, y with
        | .fin n1 m1 e1, .fin n2 m2 e2 => (n1 != n2, m1 * m2, e1 + e2)
        | _, _ => (false, 0, 0)
      let ts := term acc (.fin false 1 0) :: ab.map fun q => term q.1 q.2
      let e := ts.foldl (fun (a : Int) t => min a t.2.2) 0
      let sum := ts.foldl (fun (a : Int) t =>
        let v : Int := (t.2.1 * 2 ^ (t.2.2 - e).toNat : Nat)
        a + (if t.1 then -v else v)) 0
      if sum = 0 then
        let oneSign := ts.all fun t => t.2.1 == 0 && t.1 == acc.neg
        f.round mode (if oneSign then acc.neg else mode == 3) 0 e
      else f.round mode (sum < 0) sum.natAbs e

/-- The chain of fused multiply-adds of R48. -/
def dotChain (f : Fmt) (mode : Nat) (payl : Bool) : List (FVal × FVal) → FRes → FRes
  | [], c => c
  | q :: t, c =>
    let r := f.fma mode payl q.1 q.2 (f.decode c.bits)
    dotChain f mode payl t { r with c := r.c.or c.c }

/-- The exact integer of a finite value without fraction. -/
def FVal.toInt : FVal → Int
  | .fin n m e => if n then -((m * 2 ^ e.toNat : Nat) : Int) else ((m * 2 ^ e.toNat : Nat) : Int)
  | _ => 0

/-- The sum of R47 for s8 and s4, modulo 2^32. -/
def dotInt (ab : List (FVal × FVal)) (acc : Nat) : Nat :=
  ((ab.foldl (fun (a : Int) (q : FVal × FVal) => a + q.1.toInt * q.2.toInt) (acc : Int)) % 2 ^ 32).toNat

/-! ### TMMA (R303, R304) -/

def Proc.ybuf (p : Proc) (i : Nat) : YBuf := tblGetD p.y i {}
def Proc.zreg (p : Proc) (i : Nat) : BitVec 32768 := tblGetD p.z i 0
def Proc.setY (p : Proc) (i : Nat) (b : YBuf) : Proc := { p with y := tblSet p.y i b }
def Proc.setZ (p : Proc) (i : Nat) (v : BitVec 32768) : Proc := { p with z := tblSet p.z i v }

/-- The B operand's rows: for vq2 the rows of two buffers end to end (R296). -/
def Proc.bRows (p : Proc) (f b : Nat) (sb : List Byte) (entry : Nat → List Byte) : List (List FVal) :=
  let y0 := p.ybuf b
  if f = 11 then
    let y1 := p.ybuf (b + 1)
    (y0.values y0.fmt y0.blk sb entry).zipWith (· ++ ·) (y1.values y1.fmt y1.blk (sb.drop 128) entry)
  else y0.values y0.fmt y0.blk sb entry

/-- The accumulator that a TMMA writes, and its conditions (R304). -/
def Proc.mma (p : Proc) (f d a b : Nat) (set : Bool) (mode : Nat) (sa sb : List Byte) (entry : Nat → List Byte) :
    BitVec 32768 × Cond :=
  let rows := (p.ybuf a).values f (p.ybuf a).blk sa entry
  let cols := p.bRows f b sb entry
  let aw := if f = 0 then 64 else 32
  let z := (p.zreg d).toNat
  let payl := fpcPayl p.fpc
  let at_ (m n : Nat) (ra rb : List FVal) : FRes :=
    let acc := if set then 0 else laneOf (z / 2 ^ (1024 * m)) aw n
    let ab := ra.zip rb
    if f = 9 || f = 10 then { bits := dotInt ab acc }
    else if f ≤ 1 then dotChain (fmtOf f) mode payl ab { bits := acc }
    else dotExact mode payl ab ((fmtOf 1).decode acc)
  let rs := rows.zipIdx.flatMap fun (ra : List FVal × Nat) => cols.zipIdx.map fun (rb : List FVal × Nat) => at_ ra.2 rb.2 ra.1 rb.1
  let n := aw * rs.length
  (BitVec.ofNat 32768 (z / 2 ^ n * 2 ^ n + joinLanes aw (rs.map FRes.bits)), rs.foldl (fun (c : Cond) r => c.or r.c) {})

/-- The tags that a TMMA accepts (R303). -/
def mmaTags (f : Nat) (ya yb yc : YBuf) : Bool :=
  ya.fmt == f &&
    (if f = 2 || f = 3 then yb.fmt == 2 || yb.fmt == 3
     else if 4 ≤ f && f ≤ 7 then 4 ≤ yb.fmt && yb.fmt ≤ 7
     else if f = 11 then
       yc.fmt == yb.fmt && (yb.fmt == 10 || (yb.fmt == 8 && yc.blk == yb.blk && (yb.blk == 1 || yb.blk == 2)))
     else yb.fmt == f)

/-- The registers of a scale string of `nb` blocks, or of both where `two`. -/
def stringRegs (r nb : Nat) : List Nat := if 128 < nb then [r, r + 1] else [r]

/-- A tile instruction takes its place in a pipe and raises the tile counter; a full pipe, or a counter at 65,535, is not
ready (R300, R139). -/
def Env.toPipe (e : Env) (pipe : Nat) (t : TileOp) : Act :=
  let k := 2 * e.p.core + pipe
  let q := tblGetD e.s0.pipes k []
  if 8 ≤ q.length || 65535 ≤ e.p.cTile then .stall e.s0
  else
    let s := e.upd fun p => { p with cTile := p.cTile + 1 }
    .next { s with seq := s.seq + 1, pipes := tblSet s.pipes k (q ++ [{ t with seq := s.seq }]) }

/-- TMMA: with a trap enabled it is performed at issue, precisely (R302). -/
def execTmma (x : Args) (s : State) : Host.Outcome State Fault Refusal :=
  perform eTmma x s fun e =>
    let f := tyN e.x
    let a := e.x.a.toNat
    let b := e.x.b.toNat
    let c := (cOf .modw e.x).toNat
    let t := mN e.x % 32
    let ya := e.p.ybuf a
    let yb := e.p.ybuf b
    let nbA := tileBlocks f ya.blk
    let nbB := if f = 11 then 256 else tileBlocks yb.fmt yb.blk
    let regsA := if scaledFmt f then stringRegs c nbA else []
    let regsB := if scaledFmt yb.fmt then stringRegs t nbB else []
    if !mmaTags f ya yb (e.p.ybuf (b + 1)) then e.trap 23
    else if t != 0 && !scaledFmt yb.fmt then e.trap 2
    else if (regsA ++ regsB).any (31 < ·) then e.trap 1
    else if e.s0.tileClash e.pid e.p.core ((regsA ++ regsB).map .v) [] then .stall e.s0
    else match if f = 11 then e.s0.vqFault e.p ya.entries else none with
      | some (17, va) => e.trap 17 0 va
      | bad =>
        let sa := if scaledFmt f then e.p.scaleString c nbA else []
        let sb := if scaledFmt yb.fmt then e.p.scaleString t nbB else []
        let set := (mN e.x).testBit 5
        let d := e.x.d.toNat
        if 8 ≤ (tblGetD e.s0.pipes (2 * e.p.core + 1) []).length then .stall e.s0
        else if trapsOn e.p.fpc then
          match bad with
          | some q => e.trap q.1 0 q.2
          | none =>
            let r := e.p.mma f d a b set e.mode sa sb (e.s0.vqEntry e.p)
            e.finishFp r.2 fun p => p.setZ d r.1
        else e.toPipe 1 { pid := e.pid, ctx := e.p.ctx, fmt := f, what := .mul d a b set e.mode sa sb }

/-! ### Tiles to and from memory (R305, R306) -/

/-- What the checks of a row come to: its fault, or the accesses to its bytes and to its scale bytes with their
addresses. -/
structure RowPlan where
  va : Nat
  fault : Option Nat := none
  accs : List Acc := []
  scales : List Nat := []

/-- The region that holds an address: in translated GLOBAL memory that of the address's own page, where it is translated,
elsewhere the row's. (DEDUCED, log entry 23; unsafe.) -/
def Env.regionAt (e : Env) (space : Nat) (r : FmtRegion) (va : Nat) : Option FmtRegion :=
  if space = spGlobal && va % 2 ^ 40 < windowOff then e.s0.pageRegion (coreDie e.p.core) e.p.ctx va else some r

/-- The region of a row whose range and alignment pass. A page's format is judged before the refusal of its privilege
(R305 steps 3 and 4). -/
def Env.rowRegion (e : Env) (space f va : Nat) : Found :=
  match e.s0.findRegion e.p space va {} fun _ => [(va, rowBytes f)] with
  | .fault 22 => ((e.s0.pageRegion (coreDie e.p.core) e.p.ctx va).map Found.region).getD (.fault 22)
  | x => x

/-- The refusal of the part of a row that lies in die scratch, which belongs to the row's check (R126, R128). -/
def Env.rowScratch (e : Env) (space va n : Nat) (need : Need) : Option Nat :=
  let edge := va / 2 ^ 40 * 2 ^ 40 + scratchOff
  if space = spGlobal && edge < va + n then
    (firstFault [e.s0.locate e.p.ctx e.p.core e.p.priv (max va edge) (va + n - max va edge) space need]).map (·.1)
  else none

/-- A region that the row at `va` lies in: that of its first byte, or where that page misses, of its last; or the fault of
its first byte's page. -/
def Env.rowKnown (e : Env) (space f va : Nat) : Option FmtRegion ⊕ Nat :=
  match e.rowRegion space f va with
  | .fault c => .inr c
  | .region r => .inl (some r)
  | .miss => .inl (e.s0.pageRegion (coreDie e.p.core) e.p.ctx (va + rowBytes f - 1))

/-- The checks of the row at `at_` in the order of R305; `first` is the region of row 0, and `tagOk` says that the buffer
of a TST has the format's tag (R306). A page that misses passes them until it is present, and the others are judged and
translated beside it. (DEDUCED, log entry 23; unsafe.) -/
def Env.rowPlan (e : Env) (a : AReg) (store sc aligned tagOk : Bool) (f : Nat) (first : Option FmtRegion) (at_ : Int) : RowPlan :=
  let rb := rowBytes f
  let space := a.space
  let perms := if store then pWR else pRD
  let need : Need := if store then { wr := true } else { rd := true }
  let va := (at_ % 2 ^ 64).toNat
  match e.s0.checkRange e.p.ctx e.p.core a (if at_ < 0 then 2 ^ 80 else at_.toNat) rb space perms 0 with
  | some c => { va := va, fault := some c }
  | none =>
    if (e.rowScratch space va rb need).isSome then { va := va, fault := e.rowScratch space va rb need }
    else if !aligned then { va := va, fault := some 16 }
    else match e.rowKnown space f va with
      | .inr c => { va := va, fault := some c }
      | .inl none => if tagOk then { va := va, accs := [.miss [va]] } else { va := va, fault := some 23 }
      | .inl (some r) =>
        let bs := blockSize_ f r.blk
        let blocks : List (Option Nat) :=
          if sc && r.fmt = f then (List.range (tileCols f / bs)).filterMap fun k =>
            let ba := va + k * (bs * storedBits f / 8)
            (e.regionAt space r ba).map fun q => q.scaleAt (q.pos ba)
          else []
        let scales := blocks.filterMap id
        let accs := scales.map fun w => e.s0.scaleAcc e.p.ctx e.p.core e.p.priv space va w need
        let described := space != spGlobal || windowOff ≤ va % 2 ^ 40
        let early : Option Nat := if described then (firstFault accs).map (·.1) else none
        let wrong := !tagOk || r.fmt != f || (e.regionAt space r (va + rb - 1)).any (!·.agrees r) || !(first.getD r).agrees r ||
          (scaledFmt f && r.pos (va + rb) % bs != 0) || blocks.any (·.isNone)
        match early with
        | some c => { va := va, fault := some c }
        | none =>
          if wrong then { va := va, fault := some 23 }
          else
            let accs := e.s0.locate e.p.ctx e.p.core e.p.priv va rb space need :: accs
            { va := va, fault := (firstFault accs).map (·.1), accs := accs, scales := scales }

/-- TLD and TST: the checks of every row, then a place in the load-store pipe. -/
def tileMove (e : Env) (store : Bool) : Act :=
  let f := tyN e.x
  let a := e.areg e.x.a
  let sc := (mO e.x).testBit 0
  let ea := e.ea.toNat
  let stride : Int := if (mO e.x).testBit 1 then e.b.toInt else (rowBytes f : Nat)
  let d := e.x.d.toNat
  let c := (cOf .offset e.x).toNat
  let y := e.p.ybuf d
  if a.valid && a.space == spRemote then e.trap 15 0 e.ea
  else
    let first := match e.rowRegion a.space f ea with
      | .region r => some r
      | _ => none
    let rows := (List.range (tileRows f)).map fun (r : Nat) =>
      e.rowPlan a store sc (ea % 8 == 0 && stride % 8 == 0) (!store || y.fmt == f) f first ((ea : Int) + (r : Int) * stride)
    let fault := rows.findSome? fun r => r.fault.map fun k => (k, BitVec.ofNat 64 r.va)
    let misses := rows.flatMap fun r => (r.accs.flatMap Acc.misses).map fun va => (va, BitVec.ofNat 64 r.va)
    e.whenPresent fault misses store (
      let blk := if f = 11 then 1 else (first.map (·.blk)).getD 0
      let nb := tileBlocks f blk
      let regs := if sc then stringRegs c nb else []
      if regs.any (31 < ·) then e.trap 1
      else if e.s0.tileClash e.pid e.p.core (regs.map .v) (if store then [] else regs.map .v) then .stall e.s0
      else e.toPipe 0
        { pid := e.pid, ctx := e.p.ctx, fmt := f, blk := blk, space := a.space, rows := rows.map (·.va),
          scales := rows.flatMap (·.scales), what := if store then .store d regs else .load d regs,
          sb := (e.s0.core e.p.core).sbSeq, toks := e.p.relToks 4 })

def execTld (x : Args) (s : State) : Host.Outcome State Fault Refusal := perform eTld x s fun e => tileMove e false
def execTst (x : Args) (s : State) : Host.Outcome State Fault Refusal := perform eTst x s fun e => tileMove e true

/-! ### The pipes (R300 to R302) -/

/-- The first instruction that has not started starts, but for a TMMA behind another. -/
def startFirst (multiply : Bool) : List TileOp → List TileOp
  | [] => []
  | t :: l => if !t.started then { t with started := true } :: l else if multiply then t :: l else t :: startFirst multiply l

/-- TILE_PIPE_START. -/
def execTilePipeStart (core : Nat) (multiply : Bool) (s : State) : Host.Outcome State Fault Refusal :=
  .next { s with pipes := tblMod s.pipes (2 * core + (if multiply then 1 else 0)) (startFirst multiply) }

/-- The instruction at the head leaves its pipe and the tile counter falls; a failure is recorded as a delayed fault
(R302). -/
def State.leavePipe (s : State) (k pid : Nat) (fault : Option (Nat × Nat)) : State :=
  let s := { s with pipes := tblMod s.pipes k List.tail }
  let s := match fault with
    | some f => s.recordDelayed pid { cause := f.1, info := 0x300, faddr := BitVec.ofNat 64 f.2 }
    | none => s
  (s.modProc pid fun p => { p with cTile := p.cTile - 1 }).recheck pid

/-- A row is refused at its first byte on a page whose format is no longer the instruction's (R342, R347). -/
def State.rowFormat (s : State) (core ctx space fmt va : Nat) (a : Acc) : Acc :=
  let other (u : Nat × Nat) : Bool := space = spGlobal && u.1 % 2 ^ 40 < windowOff &&
    (s.pageRegion (coreDie core) ctx u.1).any fun r => r.fmt != fmt
  match a, (splitUnits va (rowBytes fmt)).find? other with
  | .ok _, some u => .fault 23 u.1
  | a, _ => a

/-- The accesses of a load or store at its ordering points: rows, then scale bytes. -/
def State.pipeAccs (s : State) (core : Nat) (priv store : Bool) (t : TileOp) : List Acc :=
  let need : Need := if store then { wr := true } else { rd := true }
  (t.rows.map fun va => s.rowFormat core t.ctx t.space t.fmt va (s.locate t.ctx core priv va (rowBytes t.fmt) t.space need)) ++
    t.scales.map fun w => s.scaleAcc t.ctx core priv t.space (t.rows.headD 0) w need

/-- The head of the load-store pipe completes, once it has started and every store that its process issued before has
performed: `done` gives the state after its bytes have moved. A page that is not present stalls it. -/
def State.pipeHead (s : State) (core : Nat) (store : Bool)
    (done : Proc → TileOp → List (List Piece) → State ⊕ (Nat × Nat)) : State :=
  let k := 2 * core
  match tblGetD s.pipes k [] with
  | [] => s
  | t :: _ =>
    match s.proc t.pid with
    | none => s
    | some p =>
      if !t.started || t.stalled || !s.sbDone core t.sb || !p.opsDone t.toks then s
      else if t.cause != 0 then s.leavePipe k t.pid (some (t.cause, t.bad))
      else
        let accs := s.pipeAccs core p.priv store t
        let misses := accs.flatMap Acc.misses
        match firstFault accs with
        | some f => s.leavePipe k t.pid (some (f.1, f.2.toNat))
        | none =>
          if !misses.isEmpty then
            let pages := (firstOnPage (misses.map fun va => (va, 0))).map (·.1)
            let r := s.missAll (coreDie core) t.ctx pages store false (.tile core)
            { r.2 with pipes := tblMod r.2.pipes k fun q => match q with
                | h :: l => { h with stalled := true, miss := r.1.zip pages } :: l
                | [] => [] }
          else
            match done p t (accs.map Acc.pieces) with
            | .inl s => (s.touch (coreDie core) t.ctx (accs.flatMap Acc.pieces) core).leavePipe k t.pid none
            | .inr f => s.leavePipe k t.pid (some f)

/-- A scale string of `nb` bytes for its registers: bytes from nb to 127 of the first are 0x7F (R305). -/
def Proc.putScales (p : Proc) (regs : List Nat) (bs : List Byte) : Proc :=
  let at_ (k : Nat) : BitVec 1024 :=
    BitVec.ofNat 1024 (bytesNat ((List.range 128).map fun i => bs.getD (128 * k + i) 0x7F))
  regs.zipIdx.foldl (fun (p : Proc) r => p.setVec r.1 (at_ r.2)) p

/-- TLD_COMPLETE: buffer, tag and scale string are written; an uncorrectable word leaves all of them (R302, R135).
(DEDUCED, log entry 24; unsafe.) -/
def execTldComplete (core : Nat) (s : State) : Host.Outcome State Fault Refusal :=
  match tblGetD s.pipes (2 * core) [] with
  | [] => .next s
  | t :: _ =>
    match t.what with
    | .load d regs =>
      .next (s.pipeHead core false fun _ t ps =>
        match s.badPiece ps.flatten with
        | some a => .inr (24, a)
        | none =>
          let rows := (ps.take t.rows.length).flatMap s.readPieces
          let scales := (ps.drop t.rows.length).flatMap s.readPieces
          .inl (s.modProc t.pid fun p =>
            (p.setY d { data := BitVec.ofNat 16384 (bytesNat rows), fmt := t.fmt, blk := t.blk }).putScales regs scales))
    | _ => .next s

/-- TST_COMPLETE: the rows and the scale bytes have been written. (DEDUCED, log entry 24; unsafe.) -/
def execTstComplete (core : Nat) (s : State) : Host.Outcome State Fault Refusal :=
  match tblGetD s.pipes (2 * core) [] with
  | [] => .next s
  | t :: _ =>
    match t.what with
    | .store d regs =>
      .next (s.pipeHead core true fun p t ps =>
        let rb := rowBytes t.fmt
        let rows := (List.range t.rows.length).map fun r => natBytes rb ((p.ybuf d).data.toNat / 2 ^ (8 * rb * r))
        let scales := (p.scaleString (regs.headD 0) t.scales.length).take t.scales.length |>.map fun b => [b]
        .inl ((ps.zip (rows ++ scales)).foldl (fun s (q : List Piece × List Byte) => s.spaceWrite core t.space q.1 q.2) s))
    | _ => .next s

/-- TMMA_COMPLETE: the accumulator is written and the flags join FNX to FNV (R302, R304). -/
def execTmmaComplete (core : Nat) (s : State) : Host.Outcome State Fault Refusal :=
  let k := 2 * core + 1
  match tblGetD s.pipes k [] with
  | [] => .next s
  | t :: _ =>
    match t.what, s.proc t.pid with
    | .mul d a b set mode sa sb, some p =>
      if !t.started then .next s
      else match if t.fmt = 11 then s.vqFault p (p.ybuf a).entries else none with
        | some f => .next (s.leavePipe k t.pid (some (f.1, f.2.toNat)))
        | none =>
          let r := p.mma t.fmt d a b set mode sa sb (s.vqEntry p)
          .next ((s.modProc t.pid fun p => (p.setZ d r.1).raiseFlags r.2).leavePipe k t.pid none)
    | _, _ => .next s

/-! ### Register instructions (R307 to R311) -/

/-- TCFG: the tag; the bytes stay. -/
def execTcfg (x : Args) (s : State) : Host.Outcome State Fault Refusal :=
  perform eTcfg x s fun e =>
    let d := e.x.d.toNat
    .next (e.upd fun p => p.setY d { p.ybuf d with fmt := tyN e.x, blk := if tyN e.x = 11 then 1 else mN e.x })

/-- TZR. -/
def execTzr (x : Args) (s : State) : Host.Outcome State Fault Refusal :=
  perform eTzr x s fun e =>
    let d := e.x.d.toNat
    .next (e.upd fun p =>
      match mN e.x with
      | 0 => p.setZ d 0
      | 1 => { p with x := tblSet p.x d {} }
      | _ => p.setY d { p.ybuf d with data := 0 })

/-- The 128 bytes of TRD and TWR must exist (R309). -/
def Env.slice (e : Env) (go : Nat → Act) : Act :=
  if (if (mN e.x).testBit 0 then 16 else 32) ≤ e.b.toNat then e.trap 14 0 e.b else go e.b.toNat

def execTrd (x : Args) (s : State) : Host.Outcome State Fault Refusal :=
  perform eTrd x s fun e => e.slice fun b =>
    let a := e.x.a.toNat
    let v : BitVec 1024 :=
      if (mN e.x).testBit 0 then (e.p.ybuf a).data.extractLsb' (1024 * b) 1024 else (e.p.zreg a).extractLsb' (1024 * b) 1024
    .next (e.upd fun p => p.setVec e.x.d.toNat v)

/-- A register with its slice `b` of 1,024 bits replaced. -/
def putSlice (old b v : Nat) : Nat := old - laneOf old 1024 b * 2 ^ (1024 * b) + v * 2 ^ (1024 * b)

def execTwr (x : Args) (s : State) : Host.Outcome State Fault Refusal :=
  perform eTwr x s fun e => e.slice fun b =>
    let d := e.x.d.toNat
    let v := (e.p.vec e.x.a.toNat).toNat
    .next (e.upd fun p =>
      if (mN e.x).testBit 0 then p.setY d { p.ybuf d with data := BitVec.ofNat 16384 (putSlice (p.ybuf d).data.toNat b v) }
      else p.setZ d (BitVec.ofNat 32768 (putSlice (p.zreg d).toNat b v)))

/-- Rows of raw elements as a buffer's bytes. (DEDUCED, log entry 22; unsafe.) -/
def yRows (f : Nat) (rows : List (List Nat)) : BitVec 16384 :=
  BitVec.ofNat 16384 (joinLanes (8 * rowBytes f) (rows.map (joinLanes (fmtWidth f))))

/-- TXP: blocks of 32 by 32, of 16 by 16 for f64, transposed. (DEDUCED, log entry 21; unsafe.) -/
def execTxp (x : Args) (s : State) : Host.Outcome State Fault Refusal :=
  perform eTxp x s fun e =>
    let y := e.p.ybuf e.x.a.toNat
    let f := y.fmt
    if f != tyN e.x || f = 1 || f = 11 then e.trap 23
    else
      let side := tileRows f
      let mask (v : Nat) : Nat := if f = 6 || f = 7 then v % 64 else v
      let rows := (List.range side).map fun i => (List.range (tileCols f)).map fun c =>
        mask (y.raw f (c % side) (c / side * side + i))
      .next (e.upd fun p => p.setY e.x.d.toNat { y with data := yRows f rows })

/-- TCVT: element (m, n) of zA becomes element (m, 32P + n) of yD. -/
def execTcvt (x : Args) (s : State) : Host.Outcome State Fault Refusal :=
  perform eTcvt x s fun e =>
    let f := tyN e.x
    let m := mN e.x
    let blk := m / 16 % 4
    let base := 32 * (m / 2 % 4)
    let c := (cOf .modw e.x).toNat
    let nb := tileBlocks f blk
    let regs := if scaledFmt f then stringRegs c nb else []
    if e.s0.tileClash e.pid e.p.core (regs.map .v) [] then .stall e.s0
    else
      let scales := if scaledFmt f then e.p.scaleString c nb else []
      let z := (e.p.zreg e.x.a.toNat).toNat
      let y := e.p.ybuf e.x.d.toNat
      let src : Elem := if m.testBit 0 then .int 32 true else .flt (fmtOf 1)
      let conv (r k : Nat) : FRes :=
        let v := src.value (laneOf (z / 2 ^ (1024 * r)) 32 (k - base))
        let scale := (scales.getD (blockOf f blk r k) 127).toNat
        if scaledFmt f then (elemFmt f).encodeScaled (m.testBit 0) e.mode e.payl 0 scale v
        else (elemFmt f).encode (m.testBit 0) e.mode e.payl (m.testBit 3) 0 v.plain
      let rows : List (List FRes) := (List.range 32).map fun r => (List.range (tileCols f)).map fun k =>
        if base ≤ k && k < base + 32 then conv r k else { bits := y.raw f r k }
      e.finishFp (rows.flatten.foldl (fun (a : Cond) q => a.or q.c) {}) fun p =>
        p.setY e.x.d.toNat { data := yRows f (rows.map fun r => r.map FRes.bits), fmt := f, blk := blk }

/-! ### Exact accumulation (R50 to R52, R312 to R314) -/

/-- Exponent of the smallest subnormal of the formats that TBS accepts (R50). -/
def tbsExp (f : Nat) : Option Int :=
  match f with
  | 3 => some (-24)
  | 4 => some (-9)
  | 5 => some (-16)
  | 6 => some (-4)
  | 7 => some (-3)
  | 8 => some (-1)
  | 9 | 10 => some 0
  | _ => none

/-- The pair of a block (R50): word 0 and word 1. An infinity of a block whose scale field is 0xFF is counted beside the NaN.
(DEDUCED, log entry 66; unsafe.) -/
def blockPair (em : Int) (scaled : Bool) (scale : Nat) (xs : List FVal) : Nat × Nat :=
  let nan := xs.any FVal.isNan || (scaled && scale == 255)
  let pinf := xs.any fun x => x.isInf && !x.neg
  let ninf := xs.any fun x => x.isInf && x.neg
  let sum : Int := if nan || pinf || ninf then 0 else xs.foldl (fun (a : Int) x => a + (x.scale (-em)).toInt) 0
  let e : Int := if scaled then em + scale - 127 else em
  ((sum % 2 ^ 64).toNat,
   (if ninf then 2 ^ 18 else 0) + (if pinf then 2 ^ 17 else 0) + (if nan then 2 ^ 16 else 0) + (e % 2 ^ 16).toNat)

/-- TBS: eight pairs from block B on. (DEDUCED, log entry 21; unsafe.) (DEDUCED, log entry 22; unsafe.) -/
def execTbs (x : Args) (s : State) : Host.Outcome State Fault Refusal :=
  perform eTbs x s fun e =>
    let f := tyN e.x
    let y := e.p.ybuf e.x.a.toNat
    let c := (cOf .modw e.x).toNat
    let nb := tileBlocks f y.blk
    let regs := if scaledFmt f then stringRegs c nb else []
    match tbsExp f with
    | none => e.trap 23
    | some em =>
      if y.fmt != f then e.trap 23
      else if regs.any (31 < ·) then e.trap 1
      else if e.s0.tileClash e.pid e.p.core (regs.map .v) [] then .stall e.s0
      else
        let scales := if scaledFmt f then e.p.scaleString c nb else []
        let cols := tileCols f
        let bs := blockSize_ f y.blk
        let pair (i : Nat) : Nat × Nat :=
          let k := e.b.toNat + i
          if nb ≤ k then (0, 0)
          else blockPair em (scaledFmt f) (scales.getD k 127).toNat
            ((List.range bs).map fun j => (elemFmt f).value (y.raw f ((k * bs + j) / cols) ((k * bs + j) % cols)))
        let ps := (List.range 8).flatMap fun i => [(pair i).1, (pair i).2]
        .next (e.upd fun p => p.setVec e.x.d.toNat (BitVec.ofNat 1024 (joinLanes 64 ps)))

/-- xacc() of R51. -/
def XAcc.addPair (x : XAcc) (w0 w1 : Word) : XAcc :=
  let sh := (w1.extractLsb' 0 16).toInt + 192
  let m := w0.toInt.natAbs
  let mag := if 0 ≤ sh then m * 2 ^ sh.toNat else m / 2 ^ (-sh).toNat
  let lost := sh < 0 && m % 2 ^ (-sh).toNat != 0
  let v := x.v.toInt + (if w0.toInt < 0 then -(mag : Int) else (mag : Int))
  { v := BitVec.ofInt 384 v, ovf := x.ovf || v < -(2 ^ 383 : Int) || (2 ^ 383 : Int) ≤ v, loss := x.loss || lost,
    nan := x.nan || w1.getLsbD 16, pinf := x.pinf || w1.getLsbD 17, ninf := x.ninf || w1.getLsbD 18 }

def Proc.xacc (p : Proc) (i : Nat) : XAcc := tblGetD p.x i {}

/-- XACC.v: the pairs of vA whose bits in kM are 1. -/
def execXaccV (x : Args) (s : State) : Host.Outcome State Fault Refusal :=
  perform eXacc x s fun e =>
    let d := e.x.d.toNat
    let v := (e.p.vec e.x.a.toNat).toNat
    let pairs := (List.range 8).filter fun i => e.active (mN e.x) i
    .next (e.upd fun p => { p with x := tblSet p.x d (pairs.foldl (fun (a : XAcc) i =>
      a.addPair (BitVec.ofNat 64 (laneOf v 64 (2 * i))) (BitVec.ofNat 64 (laneOf v 64 (2 * i + 1)))) (p.xacc d)) })

/-- XACC.w: one pair. -/
def execXaccW (x : Args) (s : State) : Host.Outcome State Fault Refusal :=
  perform eXacc x s fun e =>
    let d := e.x.d.toNat
    .next (e.upd fun p => { p with x := tblSet p.x d ((p.xacc d).addPair e.a e.b) })

/-- XRD: the value of R52. -/
def execXrd (x : Args) (s : State) : Host.Outcome State Fault Refusal :=
  perform eXrd x s fun e =>
    let a := e.p.xacc e.x.a.toNat
    let f := fmtOf (tyN e.x)
    e.retF (
      if a.nan || (a.pinf && a.ninf) then f.invalid
      else if a.pinf || a.ninf then { bits := f.infBits a.ninf }
      else if a.ovf then f.invalid
      else f.round e.mode (a.v.toInt < 0) a.v.toInt.natAbs (-192))

/-- XRD.st. -/
def execXrdSt (x : Args) (s : State) : Host.Outcome State Fault Refusal :=
  perform eXrd x s fun e =>
    let a := e.p.xacc e.x.a.toNat
    let bit (b : Bool) (k : Nat) : Nat := if b then 2 ^ k else 0
    e.ret (BitVec.ofNat 64 (bit a.nan 4 + bit a.ninf 3 + bit a.pinf 2 + bit a.loss 1 + bit a.ovf 0))

/-- XRD.wd. -/
def execXrdWd (x : Args) (s : State) : Host.Outcome State Fault Refusal :=
  perform eXrd x s fun e => e.ret ((e.p.xacc e.x.a.toNat).v.extractLsb' (64 * (mN e.x / 4 % 8)) 64)

end Sys2Proof.Machine
end

