-- ==== Sys2Proof/Machine/Dispatch.lean ====
section
/-! DEFINITION. One arm for each instruction and hardware event: the meaning of the instruction on the process that
the issue stage names, or of the event. -/

namespace Sys2Proof.Machine

/-- The meaning of every row of the opcode table. -/
def exec (i : Instr) (s : State) : Host.Outcome State Fault Refusal :=
  match i with
  | .add x => Sys2Proof.Machine.execAdd x s
  | .sub x => Sys2Proof.Machine.execSub x s
  | .mul x => Sys2Proof.Machine.execMul x s
  | .mulh x => Sys2Proof.Machine.execMulh x s
  | .div x => Sys2Proof.Machine.execDiv x s
  | .rem x => Sys2Proof.Machine.execRem x s
  | .and x => Sys2Proof.Machine.execAnd x s
  | .or x => Sys2Proof.Machine.execOr x s
  | .xor x => Sys2Proof.Machine.execXor x s
  | .andn x => Sys2Proof.Machine.execAndn x s
  | .shl x => Sys2Proof.Machine.execShl x s
  | .shr x => Sys2Proof.Machine.execShr x s
  | .sra x => Sys2Proof.Machine.execSra x s
  | .rol x => Sys2Proof.Machine.execRol x s
  | .clz x => Sys2Proof.Machine.execClz x s
  | .ctz x => Sys2Proof.Machine.execCtz x s
  | .popc x => Sys2Proof.Machine.execPopc x s
  | .min x => Sys2Proof.Machine.execMin x s
  | .max x => Sys2Proof.Machine.execMax x s
  | .abs x => Sys2Proof.Machine.execAbs x s
  | .neg x => Sys2Proof.Machine.execNeg x s
  | .mov x => Sys2Proof.Machine.execMov x s
  | .movi x => Sys2Proof.Machine.execMovi x s
  | .extb x => Sys2Proof.Machine.execExtb x s
  | .insb x => Sys2Proof.Machine.execInsb x s
  | .sext x => Sys2Proof.Machine.execSext x s
  | .zext x => Sys2Proof.Machine.execZext x s
  | .cmp x => Sys2Proof.Machine.execCmp x s
  | .sel x => Sys2Proof.Machine.execSel x s
  | .pset x => Sys2Proof.Machine.execPset x s
  | .fadd x => Sys2Proof.Machine.execFadd x s
  | .fsub x => Sys2Proof.Machine.execFsub x s
  | .fmul x => Sys2Proof.Machine.execFmul x s
  | .ffma x => Sys2Proof.Machine.execFfma x s
  | .fdiv x => Sys2Proof.Machine.execFdiv x s
  | .fsqrt x => Sys2Proof.Machine.execFsqrt x s
  | .fmin x => Sys2Proof.Machine.execFmin x s
  | .fmax x => Sys2Proof.Machine.execFmax x s
  | .fabs x => Sys2Proof.Machine.execFabs x s
  | .fneg x => Sys2Proof.Machine.execFneg x s
  | .fcmp x => Sys2Proof.Machine.execFcmp x s
  | .fcvt x => Sys2Proof.Machine.execFcvt x s
  | .fcvi x => Sys2Proof.Machine.execFcvi x s
  | .icvf x => Sys2Proof.Machine.execIcvf x s
  | .frnd x => Sys2Proof.Machine.execFrnd x s
  | .fcls x => Sys2Proof.Machine.execFcls x s
  | .amk x => Sys2Proof.Machine.execAmk x s
  | .anar x => Sys2Proof.Machine.execAnar x s
  | .aadv x => Sys2Proof.Machine.execAadv x s
  | .aget x => Sys2Proof.Machine.execAget x s
  | .asetp x => Sys2Proof.Machine.execAsetp x s
  | .achk x => Sys2Proof.Machine.execAchk x s
  | .bra x => Sys2Proof.Machine.execBra x s
  | .jmp x => Sys2Proof.Machine.execJmp x s
  | .call x => Sys2Proof.Machine.execCall x s
  | .callr x => Sys2Proof.Machine.execCallr x s
  | .ret x => Sys2Proof.Machine.execRet x s
  | .nop x => Sys2Proof.Machine.execNop x s
  | .trap x => Sys2Proof.Machine.execTrap x s
  | .brk x => Sys2Proof.Machine.execBrk x s
  | .eret x => Sys2Proof.Machine.execEret x s
  | .crr x => Sys2Proof.Machine.execCrr x s
  | .crw x => Sys2Proof.Machine.execCrw x s
  | .crQuantWrite x => Sys2Proof.Machine.execCrQuantWrite x s
  | .crDecwinWrite x => Sys2Proof.Machine.execCrDecwinWrite x s
  | .crFpcWrite x => Sys2Proof.Machine.execCrFpcWrite x s
  | .tick x => Sys2Proof.Machine.execTick x s
  | .self x => Sys2Proof.Machine.execSelf x s
  | .ldl x => Sys2Proof.Machine.execLdl x s
  | .stl x => Sys2Proof.Machine.execStl x s
  | .ldc x => Sys2Proof.Machine.execLdc x s
  | .stc x => Sys2Proof.Machine.execStc x s
  | .ldg x => Sys2Proof.Machine.execLdg x s
  | .stg x => Sys2Proof.Machine.execStg x s
  | .lds x => Sys2Proof.Machine.execLds x s
  | .stf x => Sys2Proof.Machine.execStf x s
  | .febRd x => Sys2Proof.Machine.execFebRd x s
  | .febSet x => Sys2Proof.Machine.execFebSet x s
  | .febClr x => Sys2Proof.Machine.execFebClr x s
  | .amo x => Sys2Proof.Machine.execAmo x s
  | .prf x => Sys2Proof.Machine.execPrf x s
  | .cln x => Sys2Proof.Machine.execCln x s
  | .inv x => Sys2Proof.Machine.execInv x s
  | .cpy x => Sys2Proof.Machine.execCpy x s
  | .cpys x => Sys2Proof.Machine.execCpys x s
  | .cpyg x => Sys2Proof.Machine.execCpyg x s
  | .zenc x => Sys2Proof.Machine.execZenc x s
  | .zdec x => Sys2Proof.Machine.execZdec x s
  | .msrq x => Sys2Proof.Machine.execMsrq x s
  | .get x => Sys2Proof.Machine.execGet x s
  | .getBlk x => Sys2Proof.Machine.execGetBlk x s
  | .put x => Sys2Proof.Machine.execPut x s
  | .putBlk x => Sys2Proof.Machine.execPutBlk x s
  | .ramo x => Sys2Proof.Machine.execRamo x s
  | .fenceAcq x => Sys2Proof.Machine.execFenceAcq x s
  | .fenceRel x => Sys2Proof.Machine.execFenceRel x s
  | .fenceFull x => Sys2Proof.Machine.execFenceFull x s
  | .sbd x => Sys2Proof.Machine.execSbd x s
  | .waitc x => Sys2Proof.Machine.execWaitc x s
  | .tlbiPg x => Sys2Proof.Machine.execTlbiPg x s
  | .tlbiAll x => Sys2Proof.Machine.execTlbiAll x s
  | .fbrd x => Sys2Proof.Machine.execFbrd x s
  | .rplyAll x => Sys2Proof.Machine.execRplyAll x s
  | .rplyOne x => Sys2Proof.Machine.execRplyOne x s
  | .rplyDecl x => Sys2Proof.Machine.execRplyDecl x s
  | .phot x => Sys2Proof.Machine.execPhot x s
  | .pmig x => Sys2Proof.Machine.execPmig x s
  | .rmv x => Sys2Proof.Machine.execRmv x s
  | .rmack x => Sys2Proof.Machine.execRmack x s
  | .omark x => Sys2Proof.Machine.execOmark x s
  | .wdogKick x => Sys2Proof.Machine.execWdogKick x s
  | .wdogLim x => Sys2Proof.Machine.execWdogLim x s
  | .spawn x => Sys2Proof.Machine.execSpawn x s
  | .forkr x => Sys2Proof.Machine.execForkr x s
  | .jinit x => Sys2Proof.Machine.execJinit x s
  | .join x => Sys2Proof.Machine.execJoin x s
  | .pushk x => Sys2Proof.Machine.execPushk x s
  | .stop x => Sys2Proof.Machine.execStop x s
  | .yield x => Sys2Proof.Machine.execYield x s
  | .spri x => Sys2Proof.Machine.execSpri x s
  | .sleep x => Sys2Proof.Machine.execSleep x s
  | .send x => Sys2Proof.Machine.execSend x s
  | .recv x => Sys2Proof.Machine.execRecv x s
  | .sendv x => Sys2Proof.Machine.execSendv x s
  | .recvv x => Sys2Proof.Machine.execRecvv x s
  | .sendt x => Sys2Proof.Machine.execSendt x s
  | .recvt x => Sys2Proof.Machine.execRecvt x s
  | .chb x => Sys2Proof.Machine.execChb x s
  | .chqBind x => Sys2Proof.Machine.execChqBind x s
  | .chqStat x => Sys2Proof.Machine.execChqStat x s
  | .chcl x => Sys2Proof.Machine.execChcl x s
  | .altb x => Sys2Proof.Machine.execAltb x s
  | .altg x => Sys2Proof.Machine.execAltg x s
  | .altw x => Sys2Proof.Machine.execAltw x s
  | .gsend x => Sys2Proof.Machine.execGsend x s
  | .gred x => Sys2Proof.Machine.execGred x s
  | .gqry x => Sys2Proof.Machine.execGqry x s
  | .gsw x => Sys2Proof.Machine.execGsw x s
  | .bini x => Sys2Proof.Machine.execBini x s
  | .barv x => Sys2Proof.Machine.execBarv x s
  | .bwt x => Sys2Proof.Machine.execBwt x s
  | .baw x => Sys2Proof.Machine.execBaw x s
  | .badd x => Sys2Proof.Machine.execBadd x s
  | .bgen x => Sys2Proof.Machine.execBgen x s
  | .qpost x => Sys2Proof.Machine.execQpost x s
  | .vldl x => Sys2Proof.Machine.execVldl x s
  | .vstl x => Sys2Proof.Machine.execVstl x s
  | .vldc x => Sys2Proof.Machine.execVldc x s
  | .vstc x => Sys2Proof.Machine.execVstc x s
  | .vldg x => Sys2Proof.Machine.execVldg x s
  | .vstg x => Sys2Proof.Machine.execVstg x s
  | .vgat x => Sys2Proof.Machine.execVgat x s
  | .vsca x => Sys2Proof.Machine.execVsca x s
  | .vadd x => Sys2Proof.Machine.execVadd x s
  | .vsub x => Sys2Proof.Machine.execVsub x s
  | .vmul x => Sys2Proof.Machine.execVmul x s
  | .vfma x => Sys2Proof.Machine.execVfma x s
  | .vdiv x => Sys2Proof.Machine.execVdiv x s
  | .vsqrt x => Sys2Proof.Machine.execVsqrt x s
  | .vmin x => Sys2Proof.Machine.execVmin x s
  | .vmax x => Sys2Proof.Machine.execVmax x s
  | .vabs x => Sys2Proof.Machine.execVabs x s
  | .vneg x => Sys2Proof.Machine.execVneg x s
  | .vcmp x => Sys2Proof.Machine.execVcmp x s
  | .vsel x => Sys2Proof.Machine.execVsel x s
  | .vand x => Sys2Proof.Machine.execVand x s
  | .vor x => Sys2Proof.Machine.execVor x s
  | .vxor x => Sys2Proof.Machine.execVxor x s
  | .vshl x => Sys2Proof.Machine.execVshl x s
  | .vshr x => Sys2Proof.Machine.execVshr x s
  | .vsra x => Sys2Proof.Machine.execVsra x s
  | .vcvt x => Sys2Proof.Machine.execVcvt x s
  | .vred x => Sys2Proof.Machine.execVred x s
  | .vprm x => Sys2Proof.Machine.execVprm x s
  | .vshf x => Sys2Proof.Machine.execVshf x s
  | .vbc x => Sys2Proof.Machine.execVbc x s
  | .vext x => Sys2Proof.Machine.execVext x s
  | .vins x => Sys2Proof.Machine.execVins x s
  | .vexp x => Sys2Proof.Machine.execVexp x s
  | .vlog x => Sys2Proof.Machine.execVlog x s
  | .vsin x => Sys2Proof.Machine.execVsin x s
  | .vcos x => Sys2Proof.Machine.execVcos x s
  | .vtanh x => Sys2Proof.Machine.execVtanh x s
  | .verf x => Sys2Proof.Machine.execVerf x s
  | .vrsq x => Sys2Proof.Machine.execVrsq x s
  | .vrcp x => Sys2Proof.Machine.execVrcp x s
  | .vrng x => Sys2Proof.Machine.execVrng x s
  | .vcls x => Sys2Proof.Machine.execVcls x s
  | .kand x => Sys2Proof.Machine.execKand x s
  | .kor x => Sys2Proof.Machine.execKor x s
  | .kxor x => Sys2Proof.Machine.execKxor x s
  | .knot x => Sys2Proof.Machine.execKnot x s
  | .kpop x => Sys2Proof.Machine.execKpop x s
  | .kmov x => Sys2Proof.Machine.execKmov x s
  | .vscl x => Sys2Proof.Machine.execVscl x s
  | .vqdc x => Sys2Proof.Machine.execVqdc x s
  | .tcfg x => Sys2Proof.Machine.execTcfg x s
  | .tld x => Sys2Proof.Machine.execTld x s
  | .tst x => Sys2Proof.Machine.execTst x s
  | .tmma x => Sys2Proof.Machine.execTmma x s
  | .tzr x => Sys2Proof.Machine.execTzr x s
  | .trd x => Sys2Proof.Machine.execTrd x s
  | .twr x => Sys2Proof.Machine.execTwr x s
  | .txp x => Sys2Proof.Machine.execTxp x s
  | .tbs x => Sys2Proof.Machine.execTbs x s
  | .xaccV x => Sys2Proof.Machine.execXaccV x s
  | .xaccW x => Sys2Proof.Machine.execXaccW x s
  | .xrd x => Sys2Proof.Machine.execXrd x s
  | .xrdSt x => Sys2Proof.Machine.execXrdSt x s
  | .xrdWd x => Sys2Proof.Machine.execXrdWd x s
  | .tcvt x => Sys2Proof.Machine.execTcvt x s
  | .faultDelivery pid => Sys2Proof.Machine.execFaultDelivery pid s
  | .delayedFaultDelivery pid => Sys2Proof.Machine.execDelayedFaultDelivery pid s
  | .faultRecordSend core => Sys2Proof.Machine.execFaultRecordSend core s
  | .storeBufferPerform core => Sys2Proof.Machine.execStoreBufferPerform core s
  | .ldgMissReturn pid => Sys2Proof.Machine.execLdgMissReturn pid s
  | .copyEngineChunk cluster => Sys2Proof.Machine.execCopyEngineChunk cluster s
  | .engineComplete cluster => Sys2Proof.Machine.execEngineComplete cluster s
  | .memoryServerRequestTake die server => Sys2Proof.Machine.execMemoryServerRequestTake die server s
  | .memoryServerRequestComplete die server => Sys2Proof.Machine.execMemoryServerRequestComplete die server s
  | .workQueuePost queue words => Sys2Proof.Machine.execWorkQueuePost queue words s
  | .qcfgWrite queue value => Sys2Proof.Machine.execQcfgWrite queue value s
  | .qcmplWrite queue value => Sys2Proof.Machine.execQcmplWrite queue value s
  | .qcheadWrite queue value => Sys2Proof.Machine.execQcheadWrite queue value s
  | .launchRecordTake queue => Sys2Proof.Machine.execLaunchRecordTake queue s
  | .completionEntryWrite queue => Sys2Proof.Machine.execCompletionEntryWrite queue s
  | .cxlMemRead offset count => Sys2Proof.Machine.execCxlMemRead offset count s
  | .cxlMemWrite offset bytes => Sys2Proof.Machine.execCxlMemWrite offset bytes s
  | .create => Sys2Proof.Machine.execCreate s
  | .kernelLoad offsets frames => Sys2Proof.Machine.execKernelLoad offsets frames s
  | .bind bases grants => Sys2Proof.Machine.execBind bases grants s
  | .suspend => Sys2Proof.Machine.execSuspend s
  | .resume => Sys2Proof.Machine.execResume s
  | .save => Sys2Proof.Machine.execSave s
  | .contextImageWrite ctx => Sys2Proof.Machine.execContextImageWrite ctx s
  | .restore accepts bases => Sys2Proof.Machine.execRestore accepts bases s
  | .destroy => Sys2Proof.Machine.execDestroy s
  | .queueAssign => Sys2Proof.Machine.execQueueAssign s
  | .contextDrainEnd ctx => Sys2Proof.Machine.execContextDrainEnd ctx s
  | .watchdogExpiry core ctx => Sys2Proof.Machine.execWatchdogExpiry core ctx s
  | .rmapAckWindowExpiry die ctx => Sys2Proof.Machine.execRmapAckWindowExpiry die ctx s
  | .budgetPeriodStart ofDie unit => Sys2Proof.Machine.execBudgetPeriodStart ofDie unit s
  | .wdogKickArrival index => Sys2Proof.Machine.execWdogKickArrival index s
  | .rmackArrival index => Sys2Proof.Machine.execRmackArrival index s
  | .orderLogDrain ctx => Sys2Proof.Machine.execOrderLogDrain ctx s
  | .rmapVersionInstall die => Sys2Proof.Machine.execRmapVersionInstall die s
  | .coreRetire die cluster slot => Sys2Proof.Machine.execCoreRetire die cluster slot s
  | .dieLoss die => Sys2Proof.Machine.execDieLoss die s
  | .moduleReset boot => Sys2Proof.Machine.execModuleReset boot s
  | .hostFunctionPresent => Sys2Proof.Machine.execHostFunctionPresent s
  | .transientCapStep die up => Sys2Proof.Machine.execTransientCapStep die up s
  | .persistentCapSet die mhz => Sys2Proof.Machine.execPersistentCapSet die mhz s
  | .debugHalt mgmt ctx rank => Sys2Proof.Machine.execDebugHalt mgmt ctx rank s
  | .debugHaltEnd mgmt ctx rank => Sys2Proof.Machine.execDebugHaltEnd mgmt ctx rank s
  | .debugRegisterWrite mgmt ctx rank reg value => Sys2Proof.Machine.execDebugRegisterWrite mgmt ctx rank reg value s
  | .firmwareCauseRaise mgmt ctx rank cause => Sys2Proof.Machine.execFirmwareCauseRaise mgmt ctx rank cause s
  | .lkRateWrite die index value => Sys2Proof.Machine.execLkRateWrite die index value s
  | .slotTake core => Sys2Proof.Machine.execSlotTake core s
  | .preemption core => Sys2Proof.Machine.execPreemption core s
  | .quantumExpiry core slot => Sys2Proof.Machine.execQuantumExpiry core slot s
  | .processFill core => Sys2Proof.Machine.execProcessFill core s
  | .sleepWake pid => Sys2Proof.Machine.execSleepWake pid s
  | .waitLimitExpiry pid => Sys2Proof.Machine.execWaitLimitExpiry pid s
  | .processFree pid => Sys2Proof.Machine.execProcessFree pid s
  | .taskRecordTake core => Sys2Proof.Machine.execTaskRecordTake core s
  | .taskRecordSteal core => Sys2Proof.Machine.execTaskRecordSteal core s
  | .outboundMessageSend die index => Sys2Proof.Machine.execOutboundMessageSend die index s
  | .fragmentArrival index => Sys2Proof.Machine.execFragmentArrival index s
  | .fragmentForward index => Sys2Proof.Machine.execFragmentForward index s
  | .ageIncrement index => Sys2Proof.Machine.execAgeIncrement index s
  | .putFlagPerform index => Sys2Proof.Machine.execPutFlagPerform index s
  | .ackArrival index => Sys2Proof.Machine.execAckArrival index s
  | .getResponseArrival index => Sys2Proof.Machine.execGetResponseArrival index s
  | .ramoResponseArrival index => Sys2Proof.Machine.execRamoResponseArrival index s
  | .nakArrival index => Sys2Proof.Machine.execNakArrival index s
  | .finalFailureArrival index => Sys2Proof.Machine.execFinalFailureArrival index s
  | .ackWindowExpiry die index => Sys2Proof.Machine.execAckWindowExpiry die index s
  | .decodeWindowExpiry die slot => Sys2Proof.Machine.execDecodeWindowExpiry die slot s
  | .emptyMaskExpiry die index => Sys2Proof.Machine.execEmptyMaskExpiry die index s
  | .slotRequest index => Sys2Proof.Machine.execSlotRequest index s
  | .slotGrant index => Sys2Proof.Machine.execSlotGrant index s
  | .slotRelease index => Sys2Proof.Machine.execSlotRelease index s
  | .slotRequestRepeat die index => Sys2Proof.Machine.execSlotRequestRepeat die index s
  | .flagCancel index => Sys2Proof.Machine.execFlagCancel index s
  | .channelNotice index => Sys2Proof.Machine.execChannelNotice index s
  | .channelMessageArrival index => Sys2Proof.Machine.execChannelMessageArrival index s
  | .tileTransferComplete index => Sys2Proof.Machine.execTileTransferComplete index s
  | .endLost ctx chan => Sys2Proof.Machine.execEndLost ctx chan s
  | .qpStateFetchComplete ioDie qp => Sys2Proof.Machine.execQpStateFetchComplete ioDie qp s
  | .qpStateWrite ioDie qp words => Sys2Proof.Machine.execQpStateWrite ioDie qp words s
  | .qpPeerError ioDie qp => Sys2Proof.Machine.execQpPeerError ioDie qp s
  | .keyUpdate peer => Sys2Proof.Machine.execKeyUpdate peer s
  | .keyHoldExpiry die index => Sys2Proof.Machine.execKeyHoldExpiry die index s
  | .spdmSessionClose peer => Sys2Proof.Machine.execSpdmSessionClose peer s
  | .linkTrainingComplete link lanes speed => Sys2Proof.Machine.execLinkTrainingComplete link lanes speed s
  | .linkFailure link => Sys2Proof.Machine.execLinkFailure link s
  | .linkTrainingFail link => Sys2Proof.Machine.execLinkTrainingFail link s
  | .linkFence link => Sys2Proof.Machine.execLinkFence link s
  | .deadlockTokenVisit ctx => Sys2Proof.Machine.execDeadlockTokenVisit ctx s
  | .tokenReissue ctx => Sys2Proof.Machine.execTokenReissue ctx s
  | .diffuserPacketAccept index => Sys2Proof.Machine.execDiffuserPacketAccept index s
  | .gsendCopyLand index => Sys2Proof.Machine.execGsendCopyLand index s
  | .gredContributionArrival index => Sys2Proof.Machine.execGredContributionArrival index s
  | .gswDrainComplete ctx entry => Sys2Proof.Machine.execGswDrainComplete ctx entry s
  | .groupBarrierArrival index => Sys2Proof.Machine.execGroupBarrierArrival index s
  | .groupBarrierCompletion index => Sys2Proof.Machine.execGroupBarrierCompletion index s
  | .pageWalk die index => Sys2Proof.Machine.execPageWalk die index s
  | .requesterRetransmit die index => Sys2Proof.Machine.execRequesterRetransmit die index s
  | .tlbiComplete die => Sys2Proof.Machine.execTlbiComplete die s
  | .migrationCopyDone die => Sys2Proof.Machine.execMigrationCopyDone die s
  | .tilePipeStart core multiply => Sys2Proof.Machine.execTilePipeStart core multiply s
  | .tldComplete core => Sys2Proof.Machine.execTldComplete core s
  | .tstComplete core => Sys2Proof.Machine.execTstComplete core s
  | .tmmaComplete core => Sys2Proof.Machine.execTmmaComplete core s
  | .timeoutFiring pid => Sys2Proof.Machine.execTimeoutFiring pid s
  | .ownerOnIssuingDiePerform die index => Sys2Proof.Machine.execOwnerOnIssuingDiePerform die index s
  | .hostPortFailover => Sys2Proof.Machine.execHostPortFailover s
  | .ioDieLoss ioDie => Sys2Proof.Machine.execIoDieLoss ioDie s
  | .hbmChannelFault die slice unit => Sys2Proof.Machine.execHbmChannelFault die slice unit s

end Sys2Proof.Machine
end

