-- ==== Sys2Proof/Machine/Issue.lean ====
section
/-! DEFINITION. The issue stage (R58, R76, R222): the choice of a slot, what falls due before its process's next
instruction, the fetch and decode of that instruction, and the counts that its issue changes. -/

namespace Sys2Proof.Machine

/-- Where the process's next instruction lies (R207): address bits [39:0] on the core's own logical die.
(DEDUCED, log entry 60; unsafe.) -/
def State.fetchVa (s : State) (p : Proc) : Nat :=
  s.devId * 2 ^ 43 + (s.ctx p.ctx).imageDie (coreDie p.core) * 2 ^ 40 + p.pc.toNat % 2 ^ 40

/-- Bytes that a fetch takes: to the end of the 32-byte block, at most the longest instruction (R58). -/
def fetchLen (pc : Word) : Nat := min 16 (32 - pc.toNat % 32)

/-- The resolution of the fetch (R343). (DEDUCED, log entry 60; unsafe.) -/
def State.fetchAt (s : State) (p : Proc) : Acc :=
  s.resolveUnit (coreDie p.core) p.ctx p.priv { xf := true } (s.fetchVa p) (fetchLen p.pc)

/-- What the fetch of a process's next instruction comes to. -/
inductive Fetched where
  | instr (i : Instr)
  | fault (f : FaultInfo)
  | miss (va : Nat)
  deriving DecidableEq, Repr

/-- How many of the bytes fetched the instruction takes by its LEN (R57). -/
def instrBytes (bs : List Byte) : Nat :=
  match lenOf (BitVec.ofNat 64 (bytesNat (bs.take 8))) with
  | some l => min l.bytes bs.length
  | none => min 8 bs.length

/-- The first `n` bytes of a piece; a fetch fills no line of the die cache. (DESIGN CHOICE, log entry 7; unsafe.) -/
def cutPiece (n : Nat) (p : Piece) : Piece := { p with len := n, cached := false }

/-- Fetch and steps 1 to 8 of R76. -/
def State.fetch (s : State) (p : Proc) : Fetched :=
  if p.pc.toNat % 4 != 0 then .fault { cause := 3 }
  else match s.fetchAt p with
    | .miss _ => .miss (s.fetchVa p)
    | .fault c va => .fault { cause := c, faddr := BitVec.ofNat 64 va }
    | .ok ps =>
      let bs := s.readPieces ps
      match s.badPiece (ps.map (cutPiece (instrBytes bs))) with
      | some a => .fault { cause := 24, faddr := BitVec.ofNat 64 a }
      | none =>
        match decode bs with
        | .instr i => .instr i
        | .reject r => .fault { cause := r.cause }

/-- The context has used its issue share on the core (R185): inside an open packet its next instruction raises fault 33, as R222
gives for one that cannot issue. (DEDUCED, log entry 32; unsafe.) -/
def State.shareOut (s : State) (p : Proc) : Bool :=
  (s.ctx p.ctx).iss != 0 && (s.ctx p.ctx).iss ≤ tblGetD (s.core p.core).share p.ctx 0

/-- A FENCE.rel or SBD that has ended no longer holds later instructions (R167, R175). -/
def State.holdDone (s : State) (p : Proc) : Bool :=
  match p.hold with
  | none => true
  | some h => p.opsDone h.toks && s.sbDone p.core h.sb

/-- The instruction may issue beside a FENCE.rel that waits (R167). -/
def State.mayPass (s : State) (p : Proc) (i : Instr) : Bool :=
  s.holdDone p || (match p.hold, opcodeOf i with
    | some h, some (op, _, x) => !h.all && lightOp op x
    | _, _ => false)

/-- The fetch of an instruction counts (R343, R350). -/
def State.countFetch (s : State) (p : Proc) : State :=
  if p.pc.toNat % 4 != 0 then s
  else match s.fetchAt p with
    | .ok ps => s.touch (coreDie p.core) p.ctx ps p.core
    | _ => s

/-- The counts that an issue changes: the slot that issued last, the order of last issue, the issue share, and those of
its fetch. -/
def State.counted (s : State) (core slot pid : Nat) (p : Proc) : State :=
  let s := s.countFetch p
  let n := (s.core core).issued
  let s := s.modCore core fun c =>
    { c with issued := n + 1, lastSlot := tblSet c.lastSlot p.prio slot,
             share := tblSet c.share p.ctx (tblGetD c.share p.ctx 0 + 1) }
  s.modProc pid fun q => { q with lastIssue := n + 1 }

/-- The state in which the process's instruction acts: a hold that has ended is dropped, and `cur` names the process. -/
def State.ready (s : State) (pid : Nat) (p : Proc) : State :=
  let s := { s with cur := pid, stalled := false }
  if s.holdDone p then s.modProc pid fun q => { q with hold := none } else s

/-- What the choice of a process comes to: it issued, or it is not ready and another slot may. -/
inductive Tried where
  | issued (o : Host.Outcome State Fault Refusal)
  | notReady (s : State)

/-- The process in a slot tries to issue. -/
def State.tryIssue (s : State) (core slot pid : Nat) : Tried :=
  match s.proc pid with
  | none => .notReady s
  | some p =>
    match s.before pid p with
    | some t =>
      if t.slideWaits pid then .notReady t
      else .issued (.next (if p.ownFault then t.counted core slot pid p else t))
    | none =>
      if s.shareOut p then
        if (s.ctx p.ctx).issHard then .issued (.next (s.deliverLate pid { cause := 53 } p.pc))
        else if p.packet.isSome then .issued (.next (s.deliver pid { cause := 33 } p.pc))
        else .notReady s
      else match s.fetch p with
        | .fault f => .issued (.next ((s.counted core slot pid p).deliver pid f p.pc))
        | .miss va =>
          if p.packet.isSome then .issued (.next (s.deliver pid { cause := 33 } p.pc))
          else
            let r := s.missAt (coreDie core) p.ctx (BitVec.ofNat 64 va) false true (.proc pid)
            .issued (.next (r.2.park pid .page (.miss (coreDie core) [(r.1, BitVec.ofNat 64 va)])))
        | .instr i =>
          if !s.mayPass p i then
            if p.packet.isSome then .issued (.next (s.deliver pid { cause := 33 } p.pc)) else .notReady s
          else match exec i (s.ready pid p) with
            | .next t => if t.stalled then .notReady { t with stalled := false } else .issued (.next (t.counted core slot pid p))
            | .fault r => .issued (.fault r)
            | .refused r => .issued (.refused r)

/-- The candidates try in order; where none is ready, the core issues nothing. -/
def State.tryAll (s : State) (core : Nat) : List (Nat × Nat) → Host.Outcome State Fault Refusal
  | [] => .next s
  | c :: t =>
    match s.tryIssue core c.1 c.2 with
    | .issued o => o
    | .notReady s => s.tryAll core t

/-- One issue of a core (R222). -/
def State.issue (s : State) (core : Nat) : Host.Outcome State Fault Refusal :=
  if (s.core core).live then
    let s := s.boundary core
    s.tryAll core (s.candidates core)
  else .next s

/-! ### Inputs that are no row of the opcode table -/

/-- Contexts that hold a slot of the core (R186). -/
def State.slotContexts (s : State) (core : Nat) : List Nat :=
  ((s.holders core).map fun h => h.2.2.ctx).eraseDups

/-- Time passes on a core: its tick and cycle counts, the quantum of each held slot and the watchdog counts rise
(R186, R223, R228). (DESIGN CHOICE, log entry 2; safe.) -/
def State.coreTime (s : State) (core ticks cycles : Nat) : State :=
  let cs := s.slotContexts core
  let s := (s.holders core).foldl (fun s h => s.modProc h.2.1 fun p => { p with quantum := p.quantum + cycles }) s
  s.modCore core fun c =>
    { c with tick := c.tick + ticks, cycle := c.cycle + cycles,
             watch := cs.foldl (fun w x => tblSet w x (tblGetD w x 0 + cycles)) c.watch }

/-- Time passes on a compute die (R7): the acknowledgement windows of contexts that are not suspended count (R188).
(DESIGN CHOICE, log entry 2; safe.) -/
def State.dieTime (s : State) (die cycles : Nat) : State :=
  let stopped (c : Nat) := (s.ctx c).st == .suspended
  s.modDie die fun d =>
    { d with cycle := d.cycle + cycles,
             windows := d.windows.map fun w => if stopped w.1 then w else (w.1, w.2.1, w.2.2 - cycles) }

/-- A TLB entry is replaced; its hotness counts are lost (R350), and the lines of its page leave the L1s. -/
def State.tlbEvict (s : State) (die index : Nat) : State :=
  match (s.die die).tlb[index]? with
  | none => s
  | some t => (s.dropL1 die (leafPA die t t.base) (2 ^ t.bits)).modDie die fun d => { d with tlb := d.tlb.eraseIdx index }

/-- Two movements in one cycle, the second after the first (R196). -/
def thenDo (o : Host.Outcome State Fault Refusal) (f : State → Host.Outcome State Fault Refusal) :
    Host.Outcome State Fault Refusal :=
  match o with
  | .next s => f s
  | o => o

/-- What one input of the agenda does. (DESIGN CHOICE, log entry 1; safe.) (DEDUCED, log entry 31; safe.)
(DEDUCED, log entry 63; safe.) -/
def State.input (s : State) : Input → Host.Outcome State Fault Refusal
  | .issue core => s.issue core
  | .event i => exec i s
  | .coreTime core ticks cycles => .next (s.coreTime core ticks cycles)
  | .dieTime die cycles => .next (s.dieTime die cycles)
  | .ioTime io cycles => .next (s.modIo io fun d => { d with cycle := d.cycle + cycles })
  | .l1Evict core line => .next (s.modCore core fun c => { c with l1 := nsDel c.l1 line })
  | .lineEvict die line => .next (s.cacheDrop die line)
  | .tlbEvict die index => .next (s.tlbEvict die index)
  | .engineWord cluster i => .next (s.engStep cluster fun s en priv => s.engWord en priv i)
  | .blockWord r i => .next (s.blockWord r i)
  | .ownBlockWord die k i => .next (s.ownBlockWord die k i)
  | .answer pid => .next (s.answered pid)
  | .upset pa => .next { s with ecc := nsAdd s.ecc (pa / 8) }
  | .softErr die => .next (s.softError die)
  | .wireDrop i => .next { s with wire := s.wire.eraseIdx i }
  | .wireTamper i => .next { s with wire := s.wire.modify i fun f => { f with tagOk := false } }
  | .wireIn f => .next (s.wireIn f)
  | .rankMoves ctx rank => .next (s.modCtx ctx fun c => { c with moving := nsAdd c.moving rank })
  | .peerClose ctx chan rank => .next (s.peerClose ctx chan rank)
  | .endReady ctx chan n => .next (s.modEnd ctx chan fun e => { e with far := n }).recheckAll
  | .endStat ctx chan w => .next (s.modEnd ctx chan fun e => { e with stat := w })
  | .rankAt ctx rank place => .next (s.rankAt ctx rank place)
  | .hostWrite a v => .next (s.putHostWord a v)
  | .hostImage a m => .next { s with images := tblSet s.images a m }
  | .barRead a => .next { s with barReply := s.barWord a }
  | .barWrite a v => match a % 4096 with
      | 0x48 => .next s
      | 0x40 => execQcfgWrite (a / 4096) v s
      | 0x50 => execQcmplWrite (a / 4096) v s
      | 0x58 => execQcheadWrite (a / 4096) v s
      | off => if off < 64 then execWorkQueuePost (a / 4096) [v] s else .next s
  | .postAndTake q ws =>
      if (s.queue q).state = 3 then thenDo (execLaunchRecordTake q s) (execWorkQueuePost q ws)
      else thenDo (execWorkQueuePost q ws s) (execLaunchRecordTake q)
  | .takeAndSteal core thief => thenDo (execTaskRecordTake core s) (execTaskRecordSteal thief)
  | .portLost port => .next (s.portLost port)
  | .configRequest => .next { s with cfgRetry := some !s.funcUp }
  | .modulePower => .next (s.liveDies.foldl (fun (s : State) d => s.modDie d fun d => { d with trans := capStep d.trans false }) s)
  | .tokenDrop ctx => .next (if (s.ctx ctx).token.away then s.modCtx ctx fun c => { c with token := { c.token with lost := true } } else s)

end Sys2Proof.Machine
end

