-- ==== Sys2Proof/Machine/Step.lean ====
section
/-! DEFINITION. One step of the machine: what the agenda names moves, or the core in focus issues. And the state in
which the next step fetches given bytes. -/

namespace Sys2Proof.Machine

/-- One step. -/
def step (s : State) : Host.Outcome State Fault Refusal :=
  match s.agenda with
  | [] => s.issue s.focus
  | x :: t => { s with agenda := t }.input x

/-- The physical address from which the next step fetches, where it fetches sixteen bytes for a process that issues.
(DESIGN CHOICE, log entry 3; safe.) -/
def State.nextFetch (s : State) : Option Nat :=
  if !s.agenda.isEmpty || !(s.core s.focus).live then none
  else
    let t := s.boundary s.focus
    match t.candidates s.focus with
    | [] => none
    | c :: _ =>
      match t.proc c.2 with
      | none => none
      | some p =>
        if (t.before c.2 p).isSome || t.shareOut p || p.hold.isSome || p.pc.toNat % 4 != 0 then none
        else match t.fetchAt p with
          | .ok [q] => if q.len = 16 && (t.badPiece [q]).isNone then some q.pa else none
          | _ => none

/-- The page and the process that `withFetchWord` sets up where nothing is about to issue: a page of frame 1 of die 0
with every permission, mapped for context 0 at offset 65,536, and a privileged process of vector class there. -/
def fetchPage : TlbEnt := { ctx := 0, base := 65536, bits := 16, leaf := 0xFCF0000000010000 }
def fetchProc : Proc :=
  { ctx := 0, rank := 0, core := 0, priv := true, vclass := true, st := .running, pc := 65536, resident := true, pool := [(0, ())] }

/-- The state with an instruction of `nbits` bits `w`, zero above, where the next step fetches. A process that is about
to issue keeps all but those bytes; otherwise a process is set up on core 0, as a boot, a load and a launch would.
(DESIGN CHOICE, log entry 3; safe.) -/
def State.withFetchWord (s : State) (nbits w : Nat) : State :=
  let bs := natBytes 16 (w % 2 ^ nbits)
  match s.nextFetch with
  | some pa => { s with mem := memWrite s.mem pa bs }
  | none =>
    let pa := hbmPA 0 65536
    let s := s.modDie 0 fun d =>
      { d with present := true, lost := false, tlb := fetchPage :: (d.tlb.filter fun t => t.ctx != 0),
               migrs := d.migrs.filter fun g => g.ctx != 0 }
    let s := s.modCtx 0 fun c => { c with st := .running, iss := 0, dieTable := [0, 1, 2, 3, 4, 5, 6, 7] }
    let s := s.modCore 0 fun c =>
      { c with live := true, ready := [], slots := [some 1, none, none, none, none, none, none, none] }
    { s with agenda := [], focus := 0, procs := tblSet s.procs 1 fetchProc, mem := memWrite s.mem pa bs,
             ecc := nsDel (nsDel s.ecc (pa / 8)) (pa / 8 + 1) }

end Sys2Proof.Machine
end

