-- ==== Sys2Proof/Safety.lean ====
section
/-! DEFINITION. What counts as a safe step and a well-formed state, and the vocabulary of the statements: when an
instruction comes to its own effect, and the state that it leaves then. -/

namespace Sys2Proof.Machine

/-- A step is safe where the machine goes on: a fault of the manual is delivered to the process and is a next state. -/
def Safe (s : State) : Prop := ∃ t, step s = .next t

/-- Memory is in its canonical form, so that equal memories are equal data. -/
def State.wf (s : State) : Bool := s.mem.wf

/-- The process in focus passes everything that stands before an instruction's own effect: steps 9 and 10 of R76, a
guard that is full and true (R63), marked sources that are full (R64), no destination that awaits an asynchronous
result (R90), no packet that forbids its length (R66), and no conflict with an outstanding tile instruction (R300). -/
structure Ready (e : Entry) (x : Args) (s : State) (p : Proc) : Prop where
  proc : s.proc s.cur = some p
  checks : lateChecks e x s p = none
  guardFull : p.full (.p x.gpred.toNat) = true
  guard : guardTrue x p = true
  sources : (marked e x p).all p.full = true
  dests : (written e x p).all (fun r => !p.pending.contains r) = true
  packet : (p.packet.isSome && multiCycle e.op e.fn x) = false
  tile : (p.cTile != 0 && s.tileClash s.cur p.core (countedRegs e x).1 (countedRegs e x).2) = false

/-- The process with the full bits of the marked operands of its instruction cleared (R64). -/
def taken (e : Entry) (x : Args) (p : Proc) : Proc := (marked e x p).foldl Proc.setEmpty p

/-- The process in focus replaced. -/
def State.withCur (s : State) (q : Proc) : State := { s with procs := tblSet s.procs s.cur q }

/-- The state after an instruction whose whole effect is on its own process: the marks are taken, the effect is
applied, and control passes to the next instruction address (R58). -/
def State.after (s : State) (e : Entry) (x : Args) (p : Proc) (f : Proc → Proc) : State :=
  s.withCur ((f (taken e x p)).retire (p.nextPc x))

/-- The same where control passes to `pc`. -/
def State.afterTo (s : State) (e : Entry) (x : Args) (p : Proc) (pc : Word) (f : Proc → Proc) : State :=
  s.withCur ((f (taken e x p)).retire pc)

/-- The process after an instruction of its own that completes: the marks are taken, the effect is applied, and control
passes to the next instruction address. -/
def procAfter (e : Entry) (x : Args) (p : Proc) (f : Proc → Proc) : Proc := (f (taken e x p)).retire (p.nextPc x)

/-- Bytes outside [a, a + n) read in `t` as in `s`. -/
def OnlyBytes (s t : State) (a n : Nat) : Prop := ∀ c, c < a ∨ a + n ≤ c → memByte t.mem c = memByte s.mem c

/-- Full bits of words other than those in `ws` are the same in `t` as in `s`. -/
def OnlyWords (s t : State) (ws : List Nat) : Prop := ∀ w, w ∉ ws → t.wordFull w = s.wordFull w

/-- Every byte, full bit and uncorrectable mark of memory reads in `t` as in `s`. -/
def SameMemory (s t : State) : Prop :=
  (∀ a n, t.read a n = s.read a n) ∧ (∀ w, t.wordFull w = s.wordFull w) ∧ (∀ w, nsHas t.ecc w = nsHas s.ecc w)

/-- Every byte and full bit of memory reads in `t` as in `s`. -/
def SameData (s t : State) : Prop := (∀ a n, t.read a n = s.read a n) ∧ (∀ w, t.wordFull w = s.wordFull w)

/-- Every process but those in `pids` is the same in `t` as in `s`. -/
def OtherProcs (s t : State) (pids : List Nat) : Prop := ∀ n, n ∉ pids → t.proc n = s.proc n

end Sys2Proof.Machine
end

