-- ==== Sys2Proof/Certificates/Slice0/Obligations.lean ====
section
/-! DEFINITION. The statements for the provers. A statement about an instruction quantifies over rows of a small table:
the constructor, its entry of the opcode map, and what the rule of spec/ says of it. -/

namespace Sys2Proof.Spec

open Sys2Proof.Machine

/-! ### Integer values (R95) -/

/-- The width w of the instruction's type. -/
abbrev width (x : Args) : Nat := tyWidth (tyN x)

/-- A w-bit result extended to 64 bits by the signedness of TY. -/
def widen (x : Args) (v : BitVec (width x)) : Word := if tySigned (tyN x) then v.signExtend 64 else v.setWidth 64

/-- A w-bit operand as an exact number of the type. -/
def exact (x : Args) (v : BitVec (width x)) : Int := if tySigned (tyN x) then v.toInt else v.toNat

/-- The exact result clamped to the type under .sat, and reduced modulo 2^w. -/
def narrow (x : Args) (sat : Bool) (v : Int) : BitVec (width x) :=
  let lo : Int := if tySigned (tyN x) then -2 ^ (width x - 1) else 0
  let hi : Int := if tySigned (tyN x) then 2 ^ (width x - 1) - 1 else 2 ^ width x - 1
  BitVec.ofInt (width x) (if sat then max lo (min hi v) else v)

/-- The low w bits of operand A, and of operand B or the immediate. -/
def argA (e : Entry) (x : Args) (s : State) (p : Proc) : BitVec (width x) := (envOf e x s s.cur p).a.setWidth (width x)
def argB (e : Entry) (x : Args) (s : State) (p : Proc) : BitVec (width x) := (envOf e x s s.cur p).b.setWidth (width x)

/-- The instructions that take .sat, and their exact results. -/
def satRows : List ((Args → Instr) × Entry × (Int → Int → Int)) :=
  [(.add, eAdd, fun a b => a + b), (.sub, eSub, fun a b => a - b), (.mul, eMul, fun a b => a * b),
   (.abs, eAbs, fun a _ => |a|), (.neg, eNeg, fun a _ => -a)]

/-- Zero bits above the highest one bit, and below the lowest one bit; the width where there is none. -/
def leading {w : Nat} (a : BitVec w) : Nat := ((List.range w).find? fun i => a.getLsbD (w - 1 - i)).getD w
def trailing {w : Nat} (a : BitVec w) : Nat := ((List.range w).find? fun i => a.getLsbD i).getD w

/-- The lesser of two operands. -/
def isLess (signed : Bool) {w : Nat} (a b : BitVec w) : Bool := if signed then a.slt b else a.ult b

/-- The other integer instructions of R96, as operations on w-bit patterns. -/
def bitRows : List ((Args → Instr) × Entry × ((w : Nat) → Bool → BitVec w → BitVec w → BitVec w)) :=
  [(.mulh, eMulh, fun w sg a b => BitVec.ofInt w (((if sg then a.toInt else a.toNat) * (if sg then b.toInt else b.toNat)) / 2 ^ w)),
   (.and, eAnd, fun _ _ a b => a &&& b), (.or, eOr, fun _ _ a b => a ||| b), (.xor, eXor, fun _ _ a b => a ^^^ b),
   (.andn, eAndn, fun _ _ a b => a &&& ~~~b),
   (.shl, eShl, fun w _ a b => a <<< (b.toNat % w)), (.shr, eShr, fun w _ a b => a >>> (b.toNat % w)),
   (.sra, eSra, fun w _ a b => a.sshiftRight (b.toNat % w)), (.rol, eRol, fun w _ a b => a.rotateLeft (b.toNat % w)),
   (.clz, eClz, fun w _ a _ => BitVec.ofNat w (leading a)), (.ctz, eCtz, fun w _ a _ => BitVec.ofNat w (trailing a)),
   (.popc, ePopc, fun w _ a _ => BitVec.ofNat w ((List.range w).countP fun i => a.getLsbD i)),
   (.min, eMin, fun _ sg a b => if isLess sg b a then b else a), (.max, eMax, fun _ sg a b => if isLess sg a b then b else a),
   (.mov, eMov, fun _ _ a _ => a)]

/-- The immediate of MOVI by its length (R71, R98), truncated to w. -/
def moviImm (x : Args) : BitVec (width x) :=
  let v : Word := match x.len with
    | .l64 => if tySigned (tyN x) then x.im21.signExtend 64 else x.im21.setWidth 64
    | .l96 => if tySigned (tyN x) then (x.ext.setWidth 32).signExtend 64 else (x.ext.setWidth 32).setWidth 64
    | .l128 => x.ext
  v.setWidth (width x)

/-- POS of EXTB and INSB, and how many bits the field has (R99). -/
def fieldPos (x : Args) : Nat := (x.ext.extractLsb' 0 6).toNat
def fieldLen (x : Args) : Nat := min (fieldPos x + (x.ext.extractLsb' 8 6).toNat + 1) 64 - fieldPos x

/-- B in the bits of the field, A elsewhere. -/
def insert (x : Args) (a b : Word) : Word :=
  BitVec.ofNat 64 (((List.range 64).map fun i =>
    if (if fieldPos x ≤ i ∧ i < fieldPos x + fieldLen x then b.getLsbD (i - fieldPos x) else a.getLsbD i) then 2 ^ i else 0).sum)

/-- The scalar instructions that only move bits (R98 to R100, R102), with the word that each writes to D. -/
def moveRows : List ((Args → Instr) × Entry × (Env → Word)) :=
  [(.movi, eMovi, fun e => widen e.x (moviImm e.x)),
   (.extb, eExtb, fun e =>
      let f := e.a.extractLsb' (fieldPos e.x) (fieldLen e.x)
      if tyN e.x = 0 then f.signExtend 64 else f.setWidth 64),
   (.insb, eInsb, fun e => insert e.x e.a e.b),
   (.sext, eSext, fun e => (e.a.setWidth (mN e.x % 64 + 1)).signExtend 64),
   (.zext, eZext, fun e => (e.a.setWidth (mN e.x % 64 + 1)).setWidth 64),
   (.sel, eSel, fun e => if e.p.predV (cOf .modw e.x).toNat then e.a else e.b)]

/-- The relations of R101 by code, on operands of the type. -/
def relation (r : Nat) (a b : Int) : Prop :=
  match r with
  | 0 => a = b
  | 1 => a ≠ b
  | 2 => a < b
  | 3 => a ≤ b
  | 4 => b < a
  | _ => b ≤ a

/-! ### Floating results (R104 to R110): the entry, the conditions, and what is written -/

/-- No enabled trap stops the instruction: CR.FPC enables none at all, or none of the conditions `c` that arose (R42). -/
def NoTrap (p : Proc) (c : Cond) : Prop := p.fpc.extractLsb' 8 4 = 0 ∨ trapCause p.fpc c = none

/-- The process with the conditions in its flags (R42). -/
def flagged (q : Proc) (c : Cond) : Proc := { q with fpc := q.fpc ||| c.bits }

/-- A floating result in the low bits of D, zero above (R104). -/
def toD (e : Env) (r : FRes) : Cond × (Proc → Proc) := (r.c, fun q => q.wrOp e.x.d.toNat (BitVec.ofNat 64 r.bits))

def floatRows : List ((Args → Instr) × Entry × (Env → Cond × (Proc → Proc))) :=
  [(.fadd, eFadd, fun e => toD e ((fmtTy (tyN e.x)).add e.mode e.payl e.va e.vb)),
   (.fsub, eFsub, fun e => toD e ((fmtTy (tyN e.x)).sub e.mode e.payl e.va e.vb)),
   (.fmul, eFmul, fun e => toD e ((fmtTy (tyN e.x)).mul e.mode e.payl e.va e.vb)),
   (.ffma, eFfma, fun e => toD e ((fmtTy (tyN e.x)).fma e.mode e.payl e.va e.vb e.vc)),
   (.fdiv, eFdiv, fun e => toD e ((fmtTy (tyN e.x)).div e.mode e.payl e.va e.vb)),
   (.fsqrt, eFsqrt, fun e => toD e ((fmtTy (tyN e.x)).sqrt e.mode e.payl e.va)),
   (.fmin, eFmin, fun e => toD e ((fmtTy (tyN e.x)).minMax e.payl false e.fa e.fb)),
   (.fmax, eFmax, fun e => toD e ((fmtTy (tyN e.x)).minMax e.payl true e.fa e.fb)),
   (.fcvt, eFcvt, fun e =>
      let src := fmtTy (mN e.x % 16)
      toD e ((fmtTy (tyN e.x)).convert e.mode e.payl ((mN e.x).testBit 4) (src.decode (e.a.toNat % 2 ^ src.width)).plain)),
   (.icvf, eIcvf, fun e => toD e ((fmtTy (tyN e.x)).ofInt e.mode (intVal (mN e.x % 16) e.a))),
   (.frnd, eFrnd, fun e => toD e ((fmtTy (tyN e.x)).integral e.mode e.payl e.fa)),
   (.fcmp, eFcmp, fun e =>
      let v := fltRel (mN e.x % 8) e.va e.vb
      (v.2, fun q => q.wr (.p e.x.d.toNat) (if v.1 then 1 else 0))),
   (.fcvi, eFcvi, fun e =>
      let src := fmtTy (mN e.x % 16)
      let v := toInteger e.mode (intMin (tyN e.x)) (intMax (tyN e.x)) (src.decode (e.a.toNat % 2 ^ src.width))
      (v.2, fun q => q.wrOp e.x.d.toNat (widen e.x (BitVec.ofInt _ v.1))))]

/-- The bit of a class in the mask of FCLS (R110). -/
def classBit (f : Fmt) : FVal → Nat
  | .inf true => 0
  | .inf false => 7
  | .nan _ true _ _ => 8
  | .nan _ false _ _ => 9
  | .fin neg m _ => if m = 0 then (if neg then 3 else 4) else if m < 2 ^ f.fw then (if neg then 2 else 5) else if neg then 1 else 6

/-- The sign bit of the type's format in a register, and its other bits. -/
def signMask (x : Args) : Word := 1 <<< ((fmtTy (tyN x)).width - 1)
def fltMask (x : Args) : Word := (1 <<< (fmtTy (tyN x)).width) - 1

/-! ### Address registers (R91, R112 to R116) -/

/-- The address register that field A names. -/
def srcA (x : Args) (p : Proc) : AReg := p.addr (x.a.toNat - 40)

/-- [lo, lo + n) lies in the register's range; sums are exact. -/
def inRange (r : AReg) (lo n : Nat) : Prop := r.base.toNat ≤ lo ∧ lo + n ≤ r.base.toNat + r.len.toNat

/-- Authority of `r` is within that of `src` (R112 to R115): the same space, no permission that `src` lacks, and no
byte outside the range of `src`. -/
def within (r src : AReg) : Prop :=
  r.ps.extractLsb' 6 2 = src.ps.extractLsb' 6 2 ∧ (r.ps &&& ~~~src.ps) &&& 0x3E = 0 ∧ inRange src r.base.toNat r.len.toNat

/-! ### Windows (R86, R118, R119) -/

/-- The offset of a branch by its length, sign-extended (R117). -/
def branchOff (x : Args) : Word :=
  match x.len with
  | .l64 => x.im21.signExtend 64
  | .l96 => (x.ext.setWidth 32).signExtend 64
  | .l128 => x.ext

/-- A slide_in of R86 for which register-stack entries are free and no frame spills. -/
def RoomAbove (s : State) (p : Proc) : Prop :=
  p.level + 1 < 2 ^ 24 ∧ p.res ≠ p.depth ∧ s.stackUsed p.core + 24 ≤ 2048

/-- A slide_out of R86 with the frame below resident and nothing that it waits for. -/
def RoomBelow (p : Proc) : Prop :=
  p.level ≠ 0 ∧ 2 ≤ p.res ∧ ∀ j < 24, p.pending.contains (.w (24 * p.level + 8 + j)) = false

/-- The window one level up: its 24 new entries are zero and full. -/
def windowUp (p : Proc) : Proc :=
  let new := (List.range 24).map fun j => 24 * (p.level + 1) + 8 + j
  { p with level := p.level + 1, res := p.res + 1, win := new.foldl tblErase p.win,
           empties := p.empties.filter fun r => !new.any fun n => r == .w n }

/-- The window one level down: the 24 entries above it are released. -/
def windowDown (p : Proc) : Proc :=
  let old := (List.range 24).map fun j => 24 * p.level + 8 + j
  { p with level := p.level - 1, res := p.res - 1, win := old.foldl tblErase p.win,
           empties := p.empties.filter fun r => !old.any fun n => r == .w n }

/-- The process's own control registers that CRR reads, by number (R92). -/
def ownRegs (p : Proc) : List (Nat × Word) :=
  [(0x000, p.cause), (0x001, p.epc), (0x002, p.faddr), (0x003, p.thdl), (0x004, p.spill),
   (0x005, BitVec.ofNat 64 (p.level * 65536 + p.depth * 128 + p.res)), (0x006, p.fpc), (0x007, p.rngctl), (0x008, p.vqtab)]
    ++ (List.range 8).map fun i => (0x010 + i, tblGetD p.fmt i 0)

/-- The control registers of the context, the die, the core and the module that a process reads, by their fields (R92,
R187, R189, R191, R221, R381, R390). -/
def sharedRegs (s : State) (p : Proc) : List (Nat × Word) :=
  let d := coreDie p.core
  let c := s.ctx p.ctx
  let v := fun n => BitVec.ofNat 64 n
  [(0x020, s.mrev),
   (0x021, v ((tblGetD (s.die d).map 0 0).toNat % 2 ^ 32 * 2 ^ 32 + tblGetD c.ack d 0 % 2 ^ 32)),
   (0x022, v (c.dmode * 2 ^ 62 + c.logFull.toNat * 2 ^ 61 + tblGetD c.logEnt d 0 % 2 ^ 32)),
   (0x023, v (c.wdLimit * 2 ^ 32 + c.wdCeil)),
   (0x024, v (s.pcap d * 2 ^ 32 + (s.die d).trans * 2 ^ 16 + min 1000 (min (s.pcap d) (s.die d).trans))),
   (0x030, v (s.core p.core).quant), (0x031, v ((s.die d).ackw * 2 ^ 32 + (s.die d).win))]

/-- What CRW of a process register makes of the process, field by field (R38, R88, R93, R122). -/
def ownWrite (p : Proc) (v : Word) : List (Nat × Proc) :=
  [(0x000, p), (0x001, { p with epc := v }), (0x002, p),
   (0x003, { p with thdl := (v &&& ~~~2) ||| (p.thdl &&& 2) }),
   (0x004, { p with spill := v &&& 0x000FFFF8000FFFF8 }), (0x005, p),
   (0x007, { p with rngctl := v &&& 1 }), (0x008, { p with vqtab := v &&& 0x7F800 })]
    ++ (List.range 8).map fun i => (0x010 + i, { p with fmt := tblSet p.fmt i v })

/-! ### Accesses to LOCAL and CLUSTER memory (R126, R127, R140) -/

/-- The effective address [aA + off] (R73). -/
def ea (x : Args) (p : Proc) : Word := (srcA x p).ptr + branchOff x

/-- Size in bytes of TY (R140). -/
def size (x : Args) : Nat := tyWidth (tyN x) / 8

/-- The bytes of the context's LOCAL window on the core, or CLUSTER window on its cluster (R127). -/
def windowAt (s : State) (core ctx space o : Nat) : Nat :=
  if space = 0 then tcmPA (core / 16) (s.core core).slot ((s.ctx ctx).tbase + o) else padPA (core / 16) ((s.ctx ctx).sbase + o)

abbrev windowPA (s : State) (p : Proc) (space o : Nat) : Nat := windowAt s p.core p.ctx space o

def windowLen (s : State) (p : Proc) (space : Nat) : Nat :=
  if space = 0 then (s.ctx p.ctx).tlen else (s.ctx p.ctx).slen

/-- The first check of R126 before translation that fails for an access to LOCAL (0), CLUSTER (1) or GLOBAL (2). -/
def firstFault (s : State) (p : Proc) (r : AReg) (space ea n align : Nat) (perms : BitVec 8) : Option Nat :=
  if r.ps.getLsbD 5 = false ∨ (r.ps.extractLsb' 6 2).toNat ≠ space then some 15
  else if perms &&& r.ps ≠ perms then some 15
  else if ea < r.base.toNat ∨ r.base.toNat + r.len.toNat < ea + n then some 14
  else if align ≠ 0 ∧ ea % align ≠ 0 then some 16
  else if space = 2 then
    if ea / 2 ^ 43 ≠ s.devId ∨ (s.ctx p.ctx).mapDie (ea / 2 ^ 40 % 8) ≠ coreDie p.core then some 18
    else if n ≠ 0 ∧ (ea + n - 1) / 2 ^ 40 ≠ ea / 2 ^ 40 then some 19
    else none
  else if windowLen s p space < ea + n then some 17
  else none

/-- What a load of TY writes (R140). -/
def loaded (x : Args) (v : Nat) : Word :=
  if tyN x < 4 then (BitVec.ofNat (tyWidth (tyN x)) v).signExtend 64 else BitVec.ofNat 64 (v % 2 ^ tyWidth (tyN x))

def loadRows : List ((Args → Instr) × Entry × Nat) := [(.ldl, eLdl, 0), (.ldc, eLdc, 1)]
def storeRows : List ((Args → Instr) × Entry × Nat) := [(.stl, eStl, 0), (.stc, eStc, 1)]

/-- The new value of an AMO (R144), on w-bit words; .fadd apart. -/
def amoBits (op : Nat) (signed : Bool) {w : Nat} (old b c : BitVec w) : BitVec w :=
  match op with
  | 0 => old + b
  | 1 => old &&& b
  | 2 => old ||| b
  | 3 => old ^^^ b
  | 4 => if isLess signed b old then b else old
  | 5 => if isLess signed old b then b else old
  | 6 => b
  | _ => if old = b then c else old

/-! ### The copy engine (R147 to R153) -/

/-- The space of an address register. -/
def spaceOf (r : AReg) : Nat := (r.ps.extractLsb' 6 2).toNat

/-- An engine operand of `n` bytes, or of a length not known at issue, passes the issue checks of R147. -/
def engineOk (s : State) (p : Proc) (o : AReg × Nat × Option Nat × BitVec 8) : Prop :=
  spaceOf o.1 ≠ 3 ∧ match o.2.2.1 with
    | some n => firstFault s p o.1 (spaceOf o.1) o.2.1 n 0 o.2.2.2 = none
    | none => o.1.ps.getLsbD 5 = true ∧ o.2.2.2 &&& o.1.ps = o.2.2.2

/-- An asynchronous instruction has begun: D awaits its status word and the copy counter rises (R90, R139). -/
def copyStarted (x : Args) (q : Proc) : Proc :=
  { (match q.name x.d.toNat with
      | some r => q.pend r
      | none => q) with cCopy := q.cCopy + 1 }

/-- Row `j` of CPYS under a signed 32-bit stride. -/
def rowAt (ptr : Word) (j : Nat) (stride : BitVec 32) : Nat := (ptr + BitVec.ofNat 64 j * stride.signExtend 64).toNat

/-- An engine instruction: constructor, entry, whether its count is zero, its operands (register, address, bytes,
permissions: EN and WR are 0x0A, EN and RD 0x12), and the work that it queues. -/
structure EngineRow where
  con : Args → Instr
  entry : Entry
  empty : Env → Bool
  operands : Env → List (AReg × Nat × Option Nat × BitVec 8)
  what : Env → EngWhat

def engineRows : List EngineRow :=
  [{ con := .cpy, entry := eCpy, empty := fun e => e.c == 0
     operands := fun e => let n := some e.c.toNat; let d := e.areg e.x.a; let r := e.areg e.x.b
       [(d, d.ptr.toNat, n, 0x0A), (r, r.ptr.toNat, n, 0x12)]
     what := fun e => .cpy (e.areg e.x.a) (e.areg e.x.b) e.c.toNat },
   { con := .cpys, entry := eCpys, empty := fun e => e.c.extractLsb' 32 32 == 0 || e.c.extractLsb' 0 32 == 0
     operands := fun e =>
       let rows := (e.c.extractLsb' 32 32).toNat; let n := some (e.c.extractLsb' 0 32).toNat
       let d := e.areg e.x.a; let r := e.areg e.x.b
       [(d, d.ptr.toNat, n, 0x0A), (d, rowAt d.ptr (rows - 1) (e.f.extractLsb' 32 32), n, 0x0A),
        (r, r.ptr.toNat, n, 0x12), (r, rowAt r.ptr (rows - 1) (e.f.extractLsb' 0 32), n, 0x12)]
     what := fun e => .cpys (e.areg e.x.a) (e.areg e.x.b) (e.c.extractLsb' 32 32).toNat (e.c.extractLsb' 0 32).toNat
       (e.f.extractLsb' 32 32).toInt (e.f.extractLsb' 0 32).toInt },
   { con := .cpyg, entry := eCpyg, empty := fun e => e.f == 0
     operands := fun e => let d := e.areg e.x.a; let r := e.areg e.x.b; let i := e.areg (cOf .modw e.x)
       [(d, d.ptr.toNat, some (size e.x * e.f.toNat), 0x0A), (r, r.ptr.toNat, none, 0x12), (i, i.ptr.toNat, some (4 * e.f.toNat), 0x12)]
     what := fun e => .cpyg (e.areg e.x.a) (e.areg e.x.b) (e.areg (cOf .modw e.x)) e.f.toNat (size e.x) },
   { con := .zenc, entry := eZenc, empty := fun e => e.c.extractLsb' 32 16 == 0
     operands := fun e => let d := e.areg e.x.a; let r := e.areg e.x.b
       [(d, d.ptr.toNat, none, 0x0A), (r, r.ptr.toNat, some (256 * (e.c.extractLsb' 32 16).toNat * size e.x), 0x12)]
     what := fun e => .zenc (e.areg e.x.a) (e.areg e.x.b) (e.c.extractLsb' 32 16).toNat (e.c.extractLsb' 0 16).toInt (tyN e.x == 8) },
   { con := .zdec, entry := eZdec, empty := fun e => e.c.extractLsb' 32 16 == 0
     operands := fun e => let d := e.areg e.x.a; let r := e.areg e.x.b
       [(d, d.ptr.toNat, some (256 * (e.c.extractLsb' 32 16).toNat * size e.x), 0x0A), (r, r.ptr.toNat, none, 0x12)]
     what := fun e => .zdec (e.areg e.x.a) (e.areg e.x.b) (e.c.extractLsb' 32 16).toNat (tyN e.x == 8) }]

/-- A FENCE.rel or SBD has begun that waits for operations and for store-buffer entries below `sb`. -/
def holding (toks : List Nat) (sb : Nat) (all : Bool) (q : Proc) : Proc := { q with hold := some ⟨toks, sb, all⟩ }

/-- The process after an asynchronous operation has ended with a value for its destination (R90). -/
def Landed (q : Proc) (dest : Option RName) (v : Word) : Prop :=
  ∀ r, dest = some r → (∀ i, r ≠ .p i) → q.reg r = v ∧ q.full r = true ∧ q.pending.contains r = false

/-! ### Remote memory (R161, R170 to R173) -/

/-- The message of a remote operation that stands in a die's outbound buffer. -/
def Sent (t : State) (die : Nat) (P : OutMsg → Prop) : Prop := ∃ k m, tblGet (t.die die).out k = some m ∧ P m

/-- The owner can be reached: it is the issuing die, or a live path that PMASK allows leads to it and a hard link budget
is not used up (R170, R185). -/
def Reachable (s : State) (p : Proc) (ea : Word) (pmask dev die : Nat) (owner : Owner) : Prop :=
  s.destOf p.ctx p.die ea.toNat = (dev, die, owner) ∧
  (owner = .die ∨ s.effective p.die dev die pmask ≠ [] ∧ ((s.ctx p.ctx).lkHard && s.lkOut p.die p.ctx) = false)

/-- The process after a remote operation has begun: D is pending where the operation has a result, and its counter rises. -/
def remoteStarted (kind : OpKind) (dest : Option RName) (q : Proc) : Proc :=
  let q := match dest with
    | some r => q.pend r
    | none => q
  if kind == .put then { q with cStore := q.cStore + 1 } else { q with cLoad := q.cLoad + 1 }

/-- `r` is `q` but for its outstanding operations and the path and interval counts of R164. -/
def SameButOps (q r : Proc) : Prop :=
  r = { q with ops := r.ops, pathRotor := r.pathRotor, putCount := r.putCount, fseq := r.fseq, flagsOut := r.flagsOut,
               spoiled := r.spoiled }

/-! ### Waiting as a FENCE.rel does (R167) -/

/-- Nothing is left that a wait as a FENCE.rel of the scope would wait for. -/
def Quiet (s : State) (p : Proc) (scope : Nat) : Prop :=
  p.relToks scope = [] ∧ p.sbMark = none ∧ (s.core p.core).sb = []

/-- What a SPAWN asks for on a core (R211). -/
def childOf (x : Args) (p : Proc) (core rank : Nat) : Seed :=
  { ctx := p.ctx, core := core, kernel := p.kernel, entry := p.entry, rank := rank,
    start := p.pc + 4 * (x.ext.setWidth 32).signExtend 64, prio := p.prio, floor := p.floor, vclass := p.vclass, fpc := p.fpc }

/-- The core on which PLACE puts a SPAWN's child (R211): the issuing core, the core that A names, or the first of the
issuing core and the walk of R213 that has room. -/
def placedOn (x : Args) (s : State) (p : Proc) (core : Nat) : Prop :=
  (spawnPlace x = 0 ∧ core = p.core) ∨
  (spawnPlace x = 1 ∧ core = (p.scalar x.a.toNat).toNat ∧ core < 2048) ∨
  (spawnPlace x = 2 ∧ (p.core :: s.walkOrder p.core 2).find? (fun c => s.hasRoom (childOf x p p.core
    ((p.scalar x.b.toNat).toNat % 2 ^ 32)) c 1) = some core)

/-- The process is `q` but for its state, which its wait with reason join has left: READY, or SUSPENDED where a hold remains
(R211, R212, R218, R219). -/
def Joins (t : State) (n : Nat) (q : Proc) : Prop :=
  ∃ k, t.proc n = some (if t.heldBack q then { q with st := .suspended, stateSeq := k }
    else { q with st := .ready, stateSeq := k, quantum := 0 })

/-- Nothing of orders 1 and 2 of R226 falls due on a core: no hold on a slot's holder, no delayed fault, no halt deferred. -/
def NothingDue (s : State) (core : Nat) : Prop :=
  (∀ h ∈ s.holders core, s.heldBack h.2.2 = false ∧ h.2.2.delayedDue = false) ∧ ∀ e ∈ s.procs, e.2.haltDue = false

/-- The seed of a process from a task record (R217). -/
def taskSeed (core : Nat) (r : TaskRec) : Seed :=
  { ctx := r.ctx, core := core, kernel := r.kernel, entry := r.entry, rank := r.rank, start := r.start, prio := r.prio,
    floor := r.floor, fpc := r.fpc }

/-- The process of a task record, in state `t` under the number `n` (R217). -/
def TaskRuns (t : State) (n core : Nat) (r : TaskRec) : Prop :=
  ∃ q, t.proc n = some q ∧ q.ctx = r.ctx ∧ q.rank = r.rank ∧ q.core = core ∧ q.pc = r.start ∧ q.prio = r.prio ∧
    q.reg (.w 0) = r.arg0 ∧ q.reg (.w 1) = r.arg1

/-- The process parks with reason memory-server until a unit that it asks has answered (R205, R265, R266, R352). -/
def Asks (o : Host.Outcome State Fault Refusal) (s : State) (p : Proc) : Prop :=
  ∃ t q c, o = .next t ∧ t.proc s.cur = some q ∧ q.st = .parked .memoryServer .ask c ∧ q.pc = p.pc ∧ SameMemory s t ∧
    OtherProcs s t [s.cur]

/-! ### Channels (R237 to R251) -/

/-- The receive end of channel `i` lies on the process's die and is open: kind 001 or 010, not closed, no CHB waiting, and
its rank is not moving. -/
def OpenHere (s : State) (p : Proc) (i : Nat) : Prop :=
  ((s.chan p.ctx i).kind = 1 ∨ (s.chan p.ctx i).kind = 2) ∧ (s.chan p.ctx i).closed = false ∧
  s.endPlace p.ctx i = (s.devId, coreDie p.core) ∧ (s.chanEnd p.ctx i).rebind = [] ∧
  nsHas (s.ctx p.ctx).moving ((s.chan p.ctx i).target % 2 ^ 32) = false ∧
  (s.chanEnd p.ctx i).matched = [] ∧ ∀ m ∈ (s.chanEnd p.ctx i).held, m.rsv = none

/-- The binding word of R239. -/
def bindWord (c : Chan) : Word :=
  BitVec.ofNat 64 (c.kind * 2 ^ 61 + c.type * 2 ^ 58 + (if c.closed then 2 ^ 57 else 0) + c.depth * 2 ^ 40 + c.target)

/-- The process has taken a part of a message and keeps the others (R242, R262). -/
def tookPart (x : Args) (i : Nat) (parts : List (List Byte)) (q : Proc) : Proc :=
  let q := { q with rx := if parts.tail.isEmpty then tblErase q.rx i else tblSet q.rx i parts.tail }
  if (mN x).testBit 1 then q.wr (.p (cOf .modw x).toNat) (if parts.length = 1 then 1 else 0) else q

/-- A region of SENDT or RECVT passes the checks of R263. -/
def tileOk (x : Args) (s : State) (p : Proc) (perms : BitVec 8) : Prop :=
  let r := p.addr (x.b.toNat - 40)
  let n := (p.scalar (cOf .modw x).toNat).toNat
  0 < n ∧ n ≤ 65536 ∧ n % 8 = 0 ∧ spaceOf r < 2 ∧ firstFault s p r (spaceOf r) r.ptr.toNat n 8 perms = none ∧ p.cCopy < 65535

/-- The region as the channel keeps it. -/
def tileOf (x : Args) (s : State) (p : Proc) : TileEnd :=
  let r := p.addr (x.b.toNat - 40)
  { area := r, ea := r.ptr, n := (p.scalar (cOf .modw x).toNat).toNat, tok := s.seq }

/-! ### Groups and barriers (R315 to R336) -/

/-- A barrier whose generation has completed (R329). -/
def nextGen (b : Barrier) : Barrier := { b with gen := (b.gen + 1) % 2 ^ 16, count := 0, state := if b.auto then 1 else 3 }

/-- The status and target words of a barrier (R327). -/
def barWord (b : Barrier) (target : Bool) : Nat :=
  if target then b.owner * 2 ^ 49 + (if b.gv then 2 ^ 48 else 0) + b.group * 2 ^ 40 + b.target
  else b.gen * 2 ^ 48 + (if b.ovr then 2 ^ 47 else 0) + b.state * 2 ^ 45 + b.mode * 2 ^ 43 + (if b.auto then 2 ^ 42 else 0) + b.count

/-! ### Vectors (R268 to R277) -/

/-- L, and lane `j` of a vector value of TY. -/
def lanes (x : Args) : Nat := 1024 / width x
def laneBits (x : Args) (v : BitVec 1024) (j : Nat) : BitVec (width x) := v.extractLsb' (width x * j) (width x)
def lane (x : Args) (p : Proc) (f : BitVec 6) (j : Nat) : BitVec (width x) := laneBits x (p.vec f.toNat) j

/-- Lane `j` of B, or the immediate in every lane (R70 to R72). -/
def laneB (e : Entry) (x : Args) (s : State) (p : Proc) (j : Nat) : BitVec (width x) :=
  if x.i then (if tyN x < 8 then argB e x s p else BitVec.ofNat _ (immFloat x (fmtTy (tyN x)))) else lane x p x.b j

/-- Lane `j` is active under mask register `k`; k0 is all ones (R270). -/
def on (p : Proc) (k j : Nat) : Bool := k = 0 || (p.mask k).getLsbD j

/-- A vector result under its mask: active lanes take the result, the others zero under .zm or their old value (R270). -/
def Merged (x : Args) (act : Nat → Bool) (zm : Bool) (old v : BitVec 1024) (res : Nat → Nat) : Prop :=
  ∀ j < lanes x, laneBits x v j = if act j then BitVec.ofNat _ (res j) else if zm then 0 else laneBits x old j

/-- The conditions of several results together. -/
def orAll (cs : List Cond) : Cond :=
  { nv := cs.any (·.nv), dz := cs.any (·.dz), of := cs.any (·.of), uf := cs.any (·.uf), nx := cs.any (·.nx) }

/-- The active lanes of a vector instruction in order. -/
def activeOf (x : Args) (p : Proc) (m : Nat) : List Nat := (List.range (lanes x)).filter (on p (m % 8))

/-- Where lane `j` of a contiguous or strided access lies (R273), and of a gather or scatter (R277). -/
def vecAt (x : Args) (p : Proc) (j : Nat) : Int :=
  ((ea x p).toNat : Int) + j * (if x.b = 56 then (size x : Int) else (p.scalar x.b.toNat).toInt)
def idxAt (x : Args) (p : Proc) (j : Nat) : Int := ((ea x p).toNat : Int) + (lane x p x.b j).toInt * size x

/-- The vector loads and stores of LOCAL and CLUSTER: constructor, entry, space, and where a lane lies. VGAT and VSCA take
the space of their address register. -/
def vecLoadRows (sp : Nat) : List ((Args → Instr) × Entry × Nat × (Args → Proc → Nat → Int)) :=
  [(.vldl, eVldl, 0, vecAt), (.vldc, eVldc, 1, vecAt), (.vgat, eVgat, sp, idxAt)]
def vecStoreRows (sp : Nat) : List ((Args → Instr) × Entry × Nat × (Args → Proc → Nat → Int)) :=
  [(.vstl, eVstl, 0, vecAt), (.vstc, eVstc, 1, vecAt), (.vsca, eVsca, sp, idxAt)]

/-- The bytes and the place among them of element `j` at ea under a format (R33, R274). -/
abbrev place (fmt j : Nat) : Nat × Nat × Nat := elemPlace fmt j

/-- What a lane operation is given: the lanes of A, B and C, the mode, CR.FPC.PAYL, and mask register C. -/
structure VIn (x : Args) where
  a : Nat → BitVec (width x)
  b : Nat → BitVec (width x)
  c : Nat → BitVec (width x)
  mode : Nat
  payl : Bool
  k : BitVec 128

def vIn (e : Entry) (x : Args) (s : State) (p : Proc) : VIn x :=
  { a := lane x p x.a, b := laneB e x s p, c := lane x p (cOf .modw x), mode := modeOf (rndOf .modw x).toNat p.fpc,
    payl := fpcPayl p.fpc, k := p.mask (cOf .modw x).toNat }

/-- Lane results: exact integers narrowed, clamped under .sat, MOD[4] (R278); floating values; bits. -/
abbrev LaneOp := (x : Args) → VIn x → Nat → FRes
def intOp (f : Int → Int → Int → Int) : LaneOp := fun x v j =>
  { bits := (narrow x ((mN x).testBit 4) (f (exact x (v.a j)) (exact x (v.b j)) (exact x (v.c j)))).toNat }
def fltOp (f : Fmt → Nat → Bool → FVal → FVal → FVal → FRes) : LaneOp := fun x v j =>
  let g := fmtTy (tyN x)
  f g v.mode v.payl (g.decode (v.a j).toNat) (g.decode (v.b j).toNat) (g.decode (v.c j).toNat)
def bitOp (f : (x : Args) → VIn x → Nat → BitVec (width x)) : LaneOp := fun x v j => { bits := (f x v j).toNat }

/-- The lane of two registers, one after the other, that a position names (R286). -/
def ofPair (x : Args) (v : VIn x) (k : Nat) : BitVec (width x) := if k < lanes x then v.a k else v.c (k - lanes x)

def isInt (t : Nat) : Bool := t < 8
def isFlt (t : Nat) : Bool := 8 ≤ t

/-- The instructions of R278 to R282, R286 to R288 that write lanes of D: constructor, entry, types, lane result. -/
def vecRows : List ((Args → Instr) × Entry × (Nat → Bool) × LaneOp) :=
  [(.vadd, eVadd, isInt, intOp fun a b _ => a + b), (.vsub, eVsub, isInt, intOp fun a b _ => a - b),
   (.vmul, eVmul, isInt, intOp fun a b _ => a * b), (.vfma, eVfma, isInt, intOp fun a b c => a * b + c),
   (.vmin, eVmin, isInt, intOp fun a b _ => min a b), (.vmax, eVmax, isInt, intOp fun a b _ => max a b),
   (.vabs, eVabs, isInt, intOp fun a _ _ => |a|), (.vneg, eVneg, isInt, intOp fun a _ _ => -a),
   (.vadd, eVadd, isFlt, fltOp fun g m q a b _ => g.add m q a b), (.vsub, eVsub, isFlt, fltOp fun g m q a b _ => g.sub m q a b),
   (.vmul, eVmul, isFlt, fltOp fun g m q a b _ => g.mul m q a b), (.vfma, eVfma, isFlt, fltOp fun g m q a b c => g.fma m q a b c),
   (.vdiv, eVdiv, isFlt, fltOp fun g m q a b _ => g.div m q a b), (.vsqrt, eVsqrt, isFlt, fltOp fun g m q a _ _ => g.sqrt m q a),
   (.vmin, eVmin, isFlt, fun x v j => (fmtTy (tyN x)).minMax v.payl false (v.a j).toNat (v.b j).toNat),
   (.vmax, eVmax, isFlt, fun x v j => (fmtTy (tyN x)).minMax v.payl true (v.a j).toNat (v.b j).toNat),
   (.vabs, eVabs, isFlt, bitOp fun x v j => v.a j &&& ~~~BitVec.twoPow _ (width x - 1)),
   (.vneg, eVneg, isFlt, bitOp fun x v j => v.a j ^^^ BitVec.twoPow _ (width x - 1)),
   (.vsel, eVsel, fun _ => true, bitOp fun _ v j => if v.k.getLsbD j then v.a j else v.b j),
   (.vand, eVand, fun _ => true, bitOp fun _ v j => v.a j &&& v.b j), (.vor, eVor, fun _ => true, bitOp fun _ v j => v.a j ||| v.b j),
   (.vxor, eVxor, fun _ => true, bitOp fun _ v j => v.a j ^^^ v.b j),
   (.vshl, eVshl, isInt, bitOp fun x v j => v.a j <<< ((v.b j).toNat % width x)),
   (.vshr, eVshr, isInt, bitOp fun x v j => v.a j >>> ((v.b j).toNat % width x)),
   (.vsra, eVsra, isInt, bitOp fun x v j => (v.a j).sshiftRight ((v.b j).toNat % width x)),
   (.vprm, eVprm, fun _ => true, bitOp fun x v j => ofPair x v ((v.b j).toNat % (2 * lanes x))),
   (.vshf, eVshf, fun _ => true, bitOp fun x v j => ofPair x v (j + mN x / 16)),
   (.vexp, eVexp, isFlt, fltOp fun g m q a _ _ => g.fun m q .exp a), (.vlog, eVlog, isFlt, fltOp fun g m q a _ _ => g.fun m q .log a),
   (.vsin, eVsin, isFlt, fltOp fun g m q a _ _ => g.fun m q .sin a), (.vcos, eVcos, isFlt, fltOp fun g m q a _ _ => g.fun m q .cos a),
   (.vtanh, eVtanh, isFlt, fltOp fun g m q a _ _ => g.fun m q .tanh a), (.verf, eVerf, isFlt, fltOp fun g m q a _ _ => g.fun m q .erf a),
   (.vrsq, eVrsq, isFlt, fltOp fun g m q a _ _ => g.rsqrt m q a), (.vrcp, eVrcp, isFlt, fltOp fun g m q a _ _ => g.recip m q a)]

/-- The bits of a mask result: those below L follow `b`, or stay or clear where the lane is inactive (R280). -/
def MaskIs (x : Args) (act : Nat → Bool) (zm : Bool) (old v : BitVec 128) (b : Nat → Bool) : Prop :=
  ∀ j < 128, v.getLsbD j = (decide (j < lanes x) && if act j then b j else !zm && old.getLsbD j)

def maskRows : List ((Args → Instr) × Entry × (BitVec 128 → BitVec 128 → BitVec 128)) :=
  [(.kand, eKand, fun a b => a &&& b), (.kor, eKor, fun a b => a ||| b), (.kxor, eKxor, fun a b => a ^^^ b),
   (.knot, eKnot, fun a _ => ~~~a)]

/-- The active lanes of a block of VSCL. -/
def blockLanes (x : Args) (p : Proc) (g : Nat) : List Nat :=
  let bs := 16 * 2 ^ (mN x / 256 % 4)
  ((List.range bs).map fun i => 16 * g / bs * bs + i).filter (on p (mN x % 8))

/-! ### Tiles (R294 to R314) -/

/-- The registers of a scale string of `nb` blocks at `c`, where the format takes one, exist (R298), and no outstanding
tile instruction of the process conflicts with reading them (R300). -/
def StringReady (s : State) (p : Proc) (f c nb : Nat) : Prop :=
  let regs := if scaledFmt f then stringRegs c nb else []
  (∀ r ∈ regs, r ≤ 31) ∧ s.tileClash s.cur p.core (regs.map .v) [] = false

/-- Rows of a TLD or TST (R305). -/
def tileRow (x : Args) (p : Proc) (r : Nat) : Int :=
  ((ea x p).toNat : Int) + r * (if (mO x).testBit 1 then (p.scalar x.b.toNat).toInt else (rowBytes (tyN x) : Int))

/-- A TLD or TST without .sc whose rows lie in LOCAL or CLUSTER space, pass the checks of R126 and stand in one region of
the format of TY that takes no scales. -/
def TileMoves (x : Args) (s : State) (p : Proc) (sp : Nat) (perms : BitVec 8) (g : FmtRegion) : Prop :=
  sp < 2 ∧ spaceOf (srcA x p) = sp ∧ (mO x).testBit 0 = false ∧ scaledFmt (tyN x) = false ∧ g.fmt = tyN x ∧
  (ea x p).toNat % 8 = 0 ∧ ((mO x).testBit 1 = true → (p.scalar x.b.toNat).toInt % 8 = 0) ∧
  ∀ r < tileRows (tyN x), 0 ≤ tileRow x p r ∧ tileRow x p r < 2 ^ 64 ∧
    firstFault s p (srcA x p) sp (tileRow x p r).toNat (rowBytes (tyN x)) 0 perms = none ∧
    s.findRegion p sp (tileRow x p r).toNat {} (fun _ => [((tileRow x p r).toNat, rowBytes (tyN x))]) = .region g

/-- What the checks of R305 and R306 make of each row of a TLD or TST, in any space and with or without scales. -/
def firstRegion (e : Env) : Option FmtRegion :=
  match e.rowRegion (e.areg e.x.a).space (tyN e.x) e.ea.toNat with
  | .region g => some g
  | _ => none

def rowPlans (e : Env) (store : Bool) : List RowPlan :=
  let f := tyN e.x
  let even := e.ea.toNat % 8 == 0 && (!(mO e.x).testBit 1 || e.b.toInt % 8 == 0)
  (List.range (tileRows f)).map fun r =>
    e.rowPlan (e.areg e.x.a) store ((mO e.x).testBit 0) even (!store || (e.p.ybuf e.x.d.toNat).fmt == f) f
      (firstRegion e) (tileRow e.x e.p r)

/-- The block code of the tile's region, and the registers of its scale string under .sc (R298, R305). -/
def tileBlk (e : Env) : Nat := if tyN e.x = 11 then 1 else ((firstRegion e).map (·.blk)).getD 0
def scRegs (e : Env) : List Nat :=
  if (mO e.x).testBit 0 then stringRegs (cOf .offset e.x).toNat (tileBlocks (tyN e.x) (tileBlk e)) else []

/-- No row is refused, and every page is present. -/
def RowsPass (ps : List RowPlan) : Prop := ∀ r ∈ ps, r.fault = none ∧ r.accs.flatMap Acc.misses = []

/-- What a TLD or TST leaves in the load-store pipe. -/
def tileOpOf (x : Args) (s : State) (p : Proc) (sp blk : Nat) (what : TileWhat) : TileOp :=
  { pid := s.cur, ctx := p.ctx, what := what, fmt := tyN x, blk := if tyN x = 11 then 1 else blk, space := sp,
    rows := (List.range (tileRows (tyN x))).map fun r => (tileRow x p r).toNat,
    sb := (s.core p.core).sbSeq, toks := p.relToks 4, seq := s.seq }

/-- The same from the plans of its rows, with the scale bytes and the registers that they take. -/
def plannedOp (e : Env) (store : Bool) : TileOp :=
  let regs := scRegs e
  { pid := e.pid, ctx := e.p.ctx, fmt := tyN e.x, blk := tileBlk e, space := spaceOf (e.areg e.x.a),
    what := if store then .store e.x.d.toNat regs else .load e.x.d.toNat regs,
    rows := (rowPlans e store).map fun r => r.va, scales := (rowPlans e store).flatMap fun r => r.scales,
    sb := (e.s0.core e.p.core).sbSeq, toks := e.p.relToks 4, seq := e.s0.seq }

/-- The process's instruction has joined a tile pipe that has room, and counts in the tile counter (R300). -/
def Piped (e : Entry) (x : Args) (s : State) (p : Proc) (pipe : Nat) (op : TileOp) (u : State) : Prop :=
  tblGetD u.pipes (2 * p.core + pipe) [] = tblGetD s.pipes (2 * p.core + pipe) [] ++ [op] ∧
  u.proc s.cur = some (procAfter e x p fun q => { q with cTile := q.cTile + 1 }) ∧ SameMemory s u ∧ OtherProcs s u [s.cur]

/-! ### The host (R194 to R204, R388) -/

/-- The command at the head of queue 0 has left, and its completion entry waits for the ring: tag, then SEQ, STATUS and
CAUSE (R200). -/
def Answered (s t : State) (w : List Word) (seq status cause : Nat) : Prop :=
  (t.queue 0).recs = (s.queue 0).recs.tail ∧ (t.queue 0).waiting = (s.queue 0).waiting ++
    [(w.getD 3 0, BitVec.ofNat 64 (seq % 2 ^ 32 * 2 ^ 32 + status * 256 + cause))]

/-- The host's window and the queue's I/O die can be reached (R26, R197). -/
def HostReaches (s : State) (n : Nat) : Prop := s.funcUp = true ∧ s.queueUp n = true

/-- The state of a context by its number. -/
abbrev ctxSt (s : State) (n : Nat) : CState := (s.ctx n).st

/-- What a bind needs of the machine and of firmware's choice (R203). -/
def Bindable (s : State) (ctx : Nat) (b : List Word) (tb sb tab : Nat) : Prop :=
  let n := s.bound (s.ctx ctx) b tb sb tab
  ctxSt s ctx = .loading ∧ bindShape b = true ∧ s.planned b = true ∧ s.scratchOk ctx n.scr = true ∧
  (((b.getD 41 0).extractLsb' 61 3).toNat = 4 → (s.queue ((b.getD 41 0).extractLsb' 17 40).toNat).en = true ∧
    (s.queue ((b.getD 41 0).extractLsb' 17 40).toNat).ctx = ctx) ∧
  hasGap (s.tcmUsed ctx) (2 ^ 19) (n.tlen + n.dpool) = true ∧ hasGap (s.padUsed ctx) (2 ^ 22) n.slen = true ∧
  tb % 4096 = 0 ∧ sb % 4096 = 0 ∧ tab % 65536 = 0 ∧ fits (s.tcmUsed ctx) (2 ^ 19) tb (n.tlen + n.dpool) = true ∧
  fits (s.padUsed ctx) (2 ^ 22) sb n.slen = true ∧
  ∀ d ∈ s.liveDies, s.framesFree d (tab / 65536) (n.tabLen / 65536) = true

/-- What a restore needs of the target module (R183): firmware that accepts the image, the same module revision, a header that
names the image's revisions and dies (R204), a context die table that gives each die of the image a live one, room for its
windows, die-scratch slices, tables, frames, processes and task records. -/
def Restorable (s : State) (ctx image : Nat) (accepts : Bool) (tb sb : Nat) (m : Image) (table : List Nat)
    (sh : List (Nat × Nat)) (tabs : List (Nat × Nat × Nat)) (ps : List (Nat × Proc × Proc)) : Prop :=
  let to_ (d : Nat) : Nat := table.getD d 255
  ctxSt s ctx = .empty ∧ ctx < 64 ∧ (m.fwrev = (tblGetD s.map 1 0).toNat / 2 ^ 32 ∨ accepts = true) ∧
  m.mrev = s.mrev.toNat % 256 ∧ s.headerOk image m = true ∧ s.scratchOk ctx (m.scrOn to_) = true ∧
  (∀ i < 8, if m.dies.contains i = true then s.dieLive (to_ i) = true else to_ i = 255) ∧
  hasGap (s.tcmUsed ctx) (2 ^ 19) (m.ctx.tlen + m.ctx.dpool) = true ∧ hasGap (s.padUsed ctx) (2 ^ 22) m.ctx.slen = true ∧
  tb % 4096 = 0 ∧ sb % 4096 = 0 ∧ fits (s.tcmUsed ctx) (2 ^ 19) tb (m.ctx.tlen + m.ctx.dpool) = true ∧
  fits (s.padUsed ctx) (2 ^ 22) sb m.ctx.slen = true ∧
  s.newTables m.ctx.tabLen (fun i => to_ (m.ctx.mapDie i)) (m.ctx.tables.map (·.1)) [] = some tabs ∧
  s.shifts m table m.dies [] (tabs.map fun t => (t.2.1, t.2.2 / 65536, m.ctx.tabLen / 65536)) = some sh ∧
  s.placeProcs ctx m.ctx table ((m.procs.filter fun p => p.2.st != .stopped) ++ m.kids) [] = some ps ∧
  s.barsMeet m table ps = false ∧ s.tasksFit m (s.landing table ps) = true

/-! ### The fabric (R354 to R390) -/

/-- A GET or RAMO without a block form waits for its one message, which stands in a die's outbound buffer. -/
structure LoadOp (s : State) (die k : Nat) (m : OutMsg) (p : Proc) (o : Op) : Prop where
  entry : tblGet (s.die die).out k = some m
  sorted : tblSorted (s.die die).out = true
  kind : m.kind = 2 ∧ o.kind = .get ∨ m.kind = 4 ∧ o.kind = .ramo
  proc : s.proc m.pid = some p
  op : tblGet p.ops m.tok = some o
  last : o.left = 1
  clean : o.fails = []
  delayed : o.precise = false
  scalar : o.block = false
  room : p.delayed.length < 16
  live : (s.core p.core).live = true
  inside : m.qp = none

/-- The operation has ended with a value: its entry has gone, the load counter has fallen and D has the value. -/
def LoadEnds (t : State) (die k : Nat) (m : OutMsg) (p : Proc) (o : Op) (v : Word) : Prop :=
  tblGet (t.die die).out k = none ∧ ∃ q, t.proc m.pid = some q ∧ q.cLoad = p.cLoad - 1 ∧ Landed q o.dest v

/-- The operation has ended by a delayed fault (R166): D has zero. -/
def LoadFails (s t : State) (die k : Nat) (m : OutMsg) (p : Proc) (o : Op) (cause : Nat) : Prop :=
  LoadEnds t die k m p o 0 ∧ SameMemory s t ∧ ∃ q, t.proc m.pid = some q ∧
    q.delayed = p.delayed ++ [{ cause := cause, info := opInfo o.kind false 0, faddr := o.ea + BitVec.ofNat 64 m.off }]

/-- A PUT waits for its one message. -/
structure StoreOp (s : State) (die k : Nat) (m : OutMsg) (p : Proc) (o : Op) : Prop where
  entry : tblGet (s.die die).out k = some m
  sorted : tblSorted (s.die die).out = true
  proc : s.proc m.pid = some p
  op : tblGet p.ops m.tok = some o
  kind : o.kind = .put
  last : o.left = 1
  clean : o.fails = []
  delayed : o.precise = false
  scalar : o.block = false ∧ o.dest = none
  inside : m.qp = none

def StoreEnds (t : State) (die k : Nat) (m : OutMsg) (p : Proc) : Prop :=
  tblGet (t.die die).out k = none ∧ ∃ q, t.proc m.pid = some q ∧ q.cStore = p.cStore - 1

/-- A die may send control messages to another die of the device (R356, R375). -/
def MayTell (s : State) (die ddie : Nat) : Prop :=
  ddie ≠ die ∧ s.livePaths die s.devId ddie ≠ [] ∧ s.epochFree die s.devId = true

/-- A control message has left for another die, as identical fragments on live paths, with AGE 255 (R356, R367, R378). -/
def Tells (s t : State) (c : Ctl) : Prop :=
  ∃ fs, t.wire = s.wire ++ fs ∧ fs.length = s.ctlCopies c.sdie c.ddev ∧ ∀ f ∈ fs, f.ctl = some c ∧ f.kind = c.kind ∧ f.age = 255 ∧
    f.k = 1 ∧ f.slot = 0 ∧ f.sdie = c.sdie ∧ f.ddie = c.ddie ∧ f.msgid = (s.die c.sdie).msgid ∧
    f.path ∈ s.livePaths c.sdie c.ddev c.ddie

/-- Message `m` of a live die may be sent now (R356, R370, R375): `e` are its paths, `g` its grant. -/
structure Sendable (s : State) (die k : Nat) (m : OutMsg) (e : List Nat) (g : Nat) (gs : List Nat) : Prop where
  entry : tblGet (s.die die).out k = some m
  queued : m.st = .queued
  elsewhere : m.ddev = s.devId ∧ m.ddie ≠ die
  order : s.sameAddrHeld die k m = false ∧ s.chanHeld die k m = false
  paths : s.effective die m.ddev m.ddie m.pmask = e ∧ e ≠ []
  key : s.epochFree die m.ddev = true
  grant : tblGetD (s.die die).grants (destKey m.ddev m.ddie) [] = g :: gs


/-! ### What an instruction's register write leaves (R61, R64) -/

/-- What of a process an instruction that writes registers keeps: all but its register files, full bits and address, and
what it kept for issuing again. -/
def Kept (p q : Proc) : Prop :=
  q = { p with win := q.win, glob := q.glob, areg := q.areg, pred := q.pred, empties := q.empties, v := q.v, k := q.k,
               pc := q.pc, packet := p.packet.map fun k => { k with count := k.count + 1 },
               sbMark := none, granted := [], phase := 0, wakeVal := none, waitsOn := none }

/-- Scalar registers, address registers, predicates, vectors and masks of `q` read as those of `p`. -/
def SameScalars (p q : Proc) : Prop := ∀ r, (∀ i, r ≠ .p i) → q.reg r = p.reg r
def SameAddrs (p q : Proc) : Prop := ∀ i, q.addr i = p.addr i
def SamePreds (p q : Proc) : Prop := ∀ i, q.predV i = p.predV i
def SameVectors (p q : Proc) : Prop := (∀ i, q.vec i = p.vec i) ∧ ∀ i, q.mask i = p.mask i

/-- Full bits after an instruction that takes its marked operands and then writes `d`. -/
def FullBits (e : Entry) (x : Args) (p q : Proc) (d : Option RName) : Prop :=
  ∀ r, q.full r = true ↔ r = .p 0 ∨ d = some r ∨ (p.full r = true ∧ r ∉ marked e x p)

/-- An instruction whose fields are zero, guarded by p0. -/
def plain : Args :=
  { len := .l64, gpred := 0, gsense := false, i := false, d := 0, a := 0, b := 0, sa := false, sb := false, e := false,
    ty := 0, im21 := 0, ext := 0 }

/-- Words that spec/ writes out, and their instructions: base word, bytes of the extension, extension. -/
def exampleWords : List (Nat × Nat × Nat × Instr) :=
  [(0x0000000000200008, 0, 0, .mul { plain with d := 8 }),
   (0x0000180000600058, 0, 0, .movi { plain with d := 24, im21 := 3 }),
   (0xFFFFA00000000108, 0, 0, .call { plain with im21 := -12 }),
   (0x0000000000000110, 0, 0, .ret plain),
   (0x000080802B140190, 0, 0, .ldg { plain with d := 5, a := 43, ty := 1, im21 := 16 }),
   (0x00200001AB00019D, 4, 8, .stf { plain with len := .l96, a := 43, b := 6, im21 := 0x400, ext := 8 }),
   (0x006022026A040385, 4, 0x40, .tld { plain with len := .l96, d := 1, a := 42, b := 9, ty := 4, im21 := 0xC04, ext := 0x40 }),
   (0x000001004000038C, 0, 0, .tmma { plain with d := 0, a := 0, b := 1, ty := 2 }),
   (0x0008048E2B100310, 0, 0, .vldg { plain with d := 4, a := 43, b := 56, ty := 9, im21 := 0x100 })]
end Sys2Proof.Spec

open Sys2Proof Sys2Proof.Machine

/-- R95, R96: ADD, SUB, MUL, ABS and NEG complete: they write the exact result, clamped under .sat, modulo 2^w, extended
by the type; MULH, AND, OR, XOR, ANDN, SHL, SHR, SRA, ROL, CLZ, CTZ, POPC, MIN, MAX and MOV complete with their operations
on w-bit patterns. Nothing else of the machine changes but the marks and the instruction address. -/
def Obligations.IntegerArithmetic : Prop :=
  (∀ r ∈ Spec.satRows, ∀ (x : Args) (s : State) (p : Proc), Ready r.2.1 x s p → tyN x < 8 →
    exec (r.1 x) s = .next (s.after r.2.1 x p fun q => q.wrOp x.d.toNat
      (Spec.widen x (Spec.narrow x ((modOf .modw x).getLsbD 0)
        (r.2.2 (Spec.exact x (Spec.argA r.2.1 x s p)) (Spec.exact x (Spec.argB r.2.1 x s p))))))) ∧
  (∀ r ∈ Spec.bitRows, ∀ (x : Args) (s : State) (p : Proc), Ready r.2.1 x s p → tyN x < 8 →
    (modOf .modw x).getLsbD 0 = false →
    exec (r.1 x) s = .next (s.after r.2.1 x p fun q => q.wrOp x.d.toNat
      (Spec.widen x (r.2.2 (Spec.width x) (tySigned (tyN x)) (Spec.argA r.2.1 x s p) (Spec.argB r.2.1 x s p)))))

/-- R97: DIV and REM, OP 0x04 and 0x05, of a nonzero divisor complete: they write the quotient truncated toward zero, or
the remainder with the sign of the dividend; a zero divisor, from a register or an immediate, delivers fault 8 with the
instruction's own address and writes nothing. The most negative s value by −1 gives that value and the remainder 0. -/
def Obligations.IntegerDivides : Prop :=
  (∀ (x : Args) (s : State) (p : Proc), Ready eDiv x s p → tyN x < 8 → (modOf .modw x).getLsbD 0 = false →
    exec (.div x) s = .next (if Spec.argB eDiv x s p = 0 then s.deliver s.cur { cause := 8 } p.pc
      else s.after eDiv x p fun q => q.wrOp x.d.toNat (Spec.widen x
        (BitVec.ofInt _ ((Spec.exact x (Spec.argA eDiv x s p)).tdiv (Spec.exact x (Spec.argB eDiv x s p))))))) ∧
  (∀ (x : Args) (s : State) (p : Proc), Ready eRem x s p → tyN x < 8 → (modOf .modw x).getLsbD 0 = false →
    exec (.rem x) s = .next (if Spec.argB eRem x s p = 0 then s.deliver s.cur { cause := 8 } p.pc
      else s.after eRem x p fun q => q.wrOp x.d.toNat (Spec.widen x
        (BitVec.ofInt _ ((Spec.exact x (Spec.argA eRem x s p)).tmod (Spec.exact x (Spec.argB eRem x s p))))))) ∧
  (∀ x : Args, opcodeOf (.div x) = some (0x04, 0, x) ∧ opcodeOf (.rem x) = some (0x05, 0, x))

/-- R98 to R103: MOVI, EXTB, INSB, SEXT, ZEXT and SEL complete and write D; CMP and PSET complete and write the predicate
D. -/
def Obligations.IntegerMoves : Prop :=
  (∀ r ∈ Spec.moveRows, ∀ (x : Args) (s : State) (p : Proc), Ready r.2.1 x s p → tyN x < 8 →
    exec (r.1 x) s = .next (s.after r.2.1 x p fun q => q.wrOp x.d.toNat (r.2.2 (envOf r.2.1 x s s.cur p)))) ∧
  (∀ (x : Args) (s : State) (p : Proc), Ready eCmp x s p → tyN x < 8 → ∃ b : Bool,
    exec (.cmp x) s = .next (s.after eCmp x p fun q => q.wr (.p x.d.toNat) (if b then 1 else 0)) ∧
    (b = true ↔ Spec.relation (mN x % 8) (Spec.exact x (Spec.argA eCmp x s p)) (Spec.exact x (Spec.argB eCmp x s p)))) ∧
  (∀ (x : Args) (s : State) (p : Proc), Ready ePset x s p →
    exec (.pset x) s = .next (s.after ePset x p fun q => q.wr (.p x.d.toNat)
      (if (modOf .modw x).getLsbD (2 * (p.predV x.a.toNat).toNat + (p.predV x.b.toNat).toNat) then 1 else 0)))

/-- R42, R104 to R109: FADD, FSUB, FMUL, FFMA, FDIV, FSQRT, FMIN, FMAX, FCVT, ICVF, FRND, FCMP and FCVI complete in every
state whose CR.FPC enables no trap, and in every other where no condition that arises is enabled: they OR their conditions
into CR.FPC and write their result to D, FCMP to a predicate. Where a condition that arose is enabled, the lowest of
causes 9 to 12 among them is delivered: the flags are set, D is not written, and CR.EPC is the instruction's own address.
R43, R105, R110: FABS and FNEG complete, change the sign bit alone and raise nothing; FCLS completes with the one bit of
its operand's class. -/
def Obligations.FloatingInstructions : Prop :=
  (∀ r ∈ Spec.floatRows, ∀ (x : Args) (s : State) (p : Proc), Ready r.2.1 x s p →
    let v := r.2.2 (envOf r.2.1 x s s.cur p)
    Spec.NoTrap p v.1 → exec (r.1 x) s = .next (s.after r.2.1 x p fun q => v.2 (Spec.flagged q v.1))) ∧
  (∀ r ∈ Spec.floatRows, ∀ (x : Args) (s : State) (p : Proc) (k : Nat), Ready r.2.1 x s p →
    let c := (r.2.2 (envOf r.2.1 x s s.cur p)).1
    let on (i : Nat) : Bool := p.fpc.getLsbD (8 + i)
    (k = if c.nv && on 0 then 9 else if c.dz && on 1 then 10 else if c.of && on 2 then 11 else 12) →
    (c.nv && on 0 || c.dz && on 1 || c.of && on 2 || c.uf && on 3) = true →
    exec (r.1 x) s = .next ((s.withCur (Spec.flagged p c)).deliver s.cur { cause := k } p.pc)) ∧
  (∀ (x : Args) (s : State) (p : Proc),
    (Ready eFabs x s p → exec (.fabs x) s = .next (s.after eFabs x p fun q =>
      q.wrOp x.d.toNat (p.scalar x.a.toNat &&& Spec.fltMask x &&& ~~~Spec.signMask x))) ∧
    (Ready eFneg x s p → exec (.fneg x) s = .next (s.after eFneg x p fun q =>
      q.wrOp x.d.toNat ((p.scalar x.a.toNat &&& Spec.fltMask x) ^^^ Spec.signMask x))) ∧
    (Ready eFcls x s p → exec (.fcls x) s = .next (s.after eFcls x p fun q => q.wrOp x.d.toNat
      (1 <<< Spec.classBit (fmtTy (tyN x)) ((fmtTy (tyN x)).decode (p.scalar x.a.toNat &&& Spec.fltMask x).toNat)))))

/-- R39: rounding a value that the format represents gives that value, in every mode, and raises nothing. -/
def Obligations.RoundingKeepsRepresentable : Prop :=
  ∀ c ≤ 8, ∀ (mode bits m : Nat) (neg : Bool) (e : Int), bits < 2 ^ (fmtOf c).width →
    (fmtOf c).decode bits = .fin neg m e → (fmtOf c).round mode neg m e = { bits := bits }

/-- R111 to R115: AGET, ANAR, ASETP complete with the part or the register that their rules give; AADV moves the pointer
within [BASE, BASE + LEN], and otherwise delivers fault 15 or 13 and leaves aD.
R112: AMK makes the register [B, B + C) with the PS given, its reserved bit zero (R10, R91); from a source register the checks come in the order of
the rule, fault 15 before fault 14; from zero only the size is checked. -/
def Obligations.AddressRegisterResults : Prop :=
  (∀ (x : Args) (s : State) (p : Proc),
    (Ready eAget x s p → exec (.aget x) s = .next (s.after eAget x p fun q => q.wrOp x.d.toNat
      (match mN x % 4 with
        | 0 => (Spec.srcA x p).ptr
        | 1 => (Spec.srcA x p).base
        | 2 => (Spec.srcA x p).len.setWidth 64
        | _ => (Spec.srcA x p).ps.setWidth 64))) ∧
    (Ready eAnar x s p → exec (.anar x) s = .next (s.after eAnar x p fun q => q.wrAddr x.d.toNat
      { Spec.srcA x p with ps := (Spec.srcA x p).ps &&& ((modOf .modw x).setWidth 8 ||| 0xC1) })) ∧
    (Ready eAsetp x s p → x.i = false → exec (.asetp x) s = .next (s.after eAsetp x p fun q => q.wrAddr x.d.toNat
      { Spec.srcA x p with ptr := p.scalar x.b.toNat })) ∧
    (Ready eAadv x s p → x.i = false →
      let src := Spec.srcA x p
      let to_ : Int := (src.ptr.toNat : Int) + (p.scalar x.b.toNat).toInt +
        (if x.len = .l64 then 0 else (Spec.branchOff x).toInt)
      exec (.aadv x) s = .next (
        if src.ps.getLsbD 5 = false then s.deliver s.cur { cause := 15, faddr := BitVec.ofInt 64 to_ } p.pc
        else if to_ < src.base.toNat ∨ (src.base.toNat : Int) + src.len.toNat < to_ then
          s.deliver s.cur { cause := 13, faddr := BitVec.ofInt 64 to_ } p.pc
        else s.after eAadv x p fun q => q.wrAddr x.d.toNat { src with ptr := BitVec.ofInt 64 to_ }))) ∧
  (∀ (x : Args) (s : State) (p : Proc), Ready eAmk x s p →
    let src := Spec.srcA x p
    let base := p.scalar x.b.toNat
    let len := (p.scalar (cOf .modw x).toNat).toNat
    let ps : BitVec 8 := (modOf .modw x).setWidth 8 &&& 0xFE
    let made : State := s.after eAmk x p fun q => q.wrAddr x.d.toNat
      { ps := ps, len := BitVec.ofNat 40 len, base := base, ptr := base }
    (x.a = 56 → x.i = false →
      (len < 2 ^ 40 ∧ base.toNat + len ≤ 2 ^ 64 → exec (.amk x) s = .next made) ∧
      (¬ (len < 2 ^ 40 ∧ base.toNat + len ≤ 2 ^ 64) → exec (.amk x) s = .next (s.deliver s.cur { cause := 14 } p.pc))) ∧
    (x.a ≠ 56 → x.i = false →
      let ok15 := src.ps.getLsbD 5 = true ∧ ps.extractLsb' 6 2 = src.ps.extractLsb' 6 2 ∧ (ps &&& ~~~src.ps) &&& 0x3E = 0
      let ok14 := len < 2 ^ 40 ∧ Spec.inRange src base.toNat len
      (ok15 ∧ ok14 → exec (.amk x) s = .next made) ∧
      (¬ ok15 → exec (.amk x) s = .next (s.deliver s.cur { cause := 15 } p.pc)) ∧
      (ok15 ∧ ¬ ok14 → exec (.amk x) s = .next (s.deliver s.cur { cause := 14 } p.pc))))

/-- R112 to R114: no instruction that derives an address register from another widens its authority: AMK from a register,
ANAR and AADV either deliver a fault or write a register within the source. -/
def Obligations.AuthorityNeverWidens : Prop :=
  ∀ r ∈ [(Instr.amk, eAmk), (.anar, eAnar), (.aadv, eAadv)], ∀ (x : Args) (s : State) (p : Proc), Ready r.2 x s p →
    x.a ≠ 56 → (∃ c ∈ [13, 14, 15], ∃ fa, exec (r.1 x) s = .next (s.deliver s.cur { cause := c, faddr := fa } p.pc)) ∨
      ∃ v : AReg, Spec.within v (Spec.srcA x p) ∧ exec (r.1 x) s = .next (s.after r.2 x p fun q => q.wrAddr x.d.toNat v)

/-- R116: ACHK, OP 0x35, completes: it writes the predicate that says whether the access would be allowed, and never
faults. -/
def Obligations.AccessCheck : Prop :=
  (∀ x : Args, opcodeOf (.achk x) = some (0x35, 0, x)) ∧ ∀ (x : Args) (s : State) (p : Proc), Ready eAchk x s p → x.i = false → ∃ b : Bool,
    exec (.achk x) s = .next (s.after eAchk x p fun q => q.wr (.p x.d.toNat) (if b then 1 else 0)) ∧
    (b = true ↔ (Spec.srcA x p).ps.getLsbD 5 = true ∧
      (∀ i, 1 ≤ i → i ≤ 5 → (modOf .modw x).getLsbD i = true → (Spec.srcA x p).ps.getLsbD i = true) ∧
      Spec.inRange (Spec.srcA x p) (Spec.srcA x p).ptr.toNat (p.scalar x.b.toNat).toNat)

/-- R117 to R119, R86: BRA, JMP, CALL, CALLR and RET complete. BRA and JMP pass control to their targets; CALL and CALLR
move the window up, put the link in the new w7 and pass control; RET moves it down and passes control to the callee's w7.
A CALL whose frame does not fit below CR.SPILL.LIMIT delivers fault 25 with the spill slot's address and CR.EPC at the
CALL. -/
def Obligations.ControlTransfers : Prop :=
  (∀ (x : Args) (s : State) (p : Proc),
    (Ready eBra x s p → exec (.bra x) s = .next (s.afterTo eBra x p (p.pc + 4 * Spec.branchOff x) fun q => q)) ∧
    (Ready eJmp x s p →
      exec (.jmp x) s = .next (s.afterTo eJmp x p (p.scalar x.a.toNat + x.im21.signExtend 64) fun q => q)) ∧
    (Ready eCall x s p → Spec.RoomAbove s p → exec (.call x) s = .next (s.afterTo eCall x p (p.pc + 4 * Spec.branchOff x)
      fun q => (Spec.windowUp q).wrOp 7 (nextAddr p.pc x.len.bytes))) ∧
    (Ready eCallr x s p → Spec.RoomAbove s p →
      exec (.callr x) s = .next (s.afterTo eCallr x p (p.scalar x.a.toNat + x.im21.signExtend 64)
        fun q => (Spec.windowUp q).wrOp 7 (nextAddr p.pc x.len.bytes))) ∧
    (Ready eRet x s p → Spec.RoomBelow p → p.pending.contains (.w (24 * p.level + 7)) = false →
      exec (.ret x) s = .next (s.afterTo eRet x p (p.reg (.w (24 * p.level + 7))) Spec.windowDown))) ∧
  (∀ (x : Args) (s : State) (p : Proc), Ready eCall x s p → p.level + 1 < 2 ^ 24 → p.res = p.depth →
    p.spillLimit < p.spillBase + 192 * (p.level + 1 - p.depth + 1) →
    exec (.call x) s = .next (s.deliver s.cur
      { cause := 25, faddr := BitVec.ofNat 64 (p.spillBase + 192 * (p.level + 1 - p.depth)) } p.pc))

/-- R94, R229: a fault of a process whose handler is enabled and not active, for which the slide can proceed, is one step:
CR.CAUSE, CR.FADDR and CR.EPC are written, the window moves up, ACT is set, and control passes to CR.THDL.ADDR · 4. Nothing
else of the machine changes. -/
def Obligations.FaultEntersHandler : Prop :=
  ∀ (s : State) (p : Proc) (f : FaultInfo) (epc : Word), s.proc s.cur = some p → p.packet = none →
    p.thdl.getLsbD 0 = true → p.thdl.getLsbD 1 = false → Spec.RoomAbove s p → f.cause < 64 →
    f.info < 2 ^ 32 → ∃ q : Proc,
      s.deliver s.cur f epc = s.withCur q ∧
      q = { Spec.windowUp p with
        cause := BitVec.ofNat 64 (f.info * 2 ^ 32 + f.cause), faddr := f.faddr, epc := epc, thdl := p.thdl ||| 2,
        pc := p.thdl &&& ~~~3, held := none, sbMark := none, granted := [], phase := 0, wakeVal := none, waitsOn := none }

/-- R229, R230: without a handler, or while one is active, a fault makes the process FAULTED: it leaves its issue slot,
and a record with its rank, core, cause, EPC and address, NESTED where a handler was active, is held on its core. Its
registers are written as a delivery would write them. -/
def Obligations.FaultWithoutHandler : Prop :=
  ∀ (s : State) (p : Proc) (f : FaultInfo) (epc : Word), s.proc s.cur = some p → p.packet = none →
    (p.thdl.getLsbD 0 = false ∨ p.thdl.getLsbD 1 = true) → ∃ (t : State) (q : Proc),
      s.deliver s.cur f epc = t ∧ t.proc s.cur = some q ∧ q.st = .faulted ∧ q.pc = p.pc ∧
      q.epc = epc ∧ q.faddr = f.faddr ∧ q.cause = BitVec.ofNat 64 (f.info % 2 ^ 32 * 2 ^ 32 + f.cause % 64) ∧
      (t.core p.core).slots.all (· != some s.cur) = true ∧
      (t.core p.core).records = (s.core p.core).records ++
        [({ rank := p.rank, core := p.core, ctx := p.ctx, nested := p.thdl.getLsbD 1, code := f.cause, info := f.info,
            epc := epc, faddr := f.faddr }, some s.cur)] ∧
      SameMemory s t ∧ OtherProcs s t [s.cur]

/-- R121: ERET outside a handler delivers fault 4; in one it completes: it moves the window down, clears ACT and continues
at CR.EPC. -/
def Obligations.ReturnFromHandler : Prop :=
  ∀ (x : Args) (s : State) (p : Proc), Ready eEret x s p →
    (p.thdl.getLsbD 1 = false → exec (.eret x) s = .next (s.deliver s.cur { cause := 4 } p.pc)) ∧
    (p.thdl.getLsbD 1 = true → Spec.RoomBelow p → exec (.eret x) s = .next (s.afterTo eEret x p p.epc fun q =>
      { Spec.windowDown q with thdl := q.thdl &&& ~~~2 }))

/-- R92, R122: CRR completes: it reads a process's own control registers as they stand, and those of its context, die,
core and module, CR.RMVER, CR.OLOG, CR.WDOG, CR.CLKCAP, CR.DECWIN, CR.QUANT and CR.MREV, by their fields. A read of CR.FPC
waits for TMMA (R302). R123, R124: TICK and SELF complete: they write the count and the field that they name. -/
def Obligations.ControlRegisterReads : Prop :=
  (∀ (x : Args) (s : State) (p : Proc), Ready eCrr x s p → (crNum x = 6 → s.tmmaBusy s.cur p.core = false) →
    ∀ r ∈ Spec.ownRegs p ++ Spec.sharedRegs s p, crNum x = r.1 →
      exec (.crr x) s = .next (s.after eCrr x p fun q => q.wrOp x.d.toNat r.2)) ∧
  (∀ (x : Args) (s : State) (p : Proc),
    (Ready eTick x s p → exec (.tick x) s = .next (s.after eTick x p fun q => q.wrOp x.d.toNat
      (BitVec.ofNat 64 (s.core p.core).tick))) ∧
    (Ready eSelf x s p → mN x < 6 → ∃ v, exec (.self x) s = .next (s.after eSelf x p fun q => q.wrOp x.d.toNat (BitVec.ofNat 64 v)) ∧
      [p.rank, p.core, p.ctx, s.devId, p.prio, p.priv.toNat][mN x]? = some v))

/-- R38, R88, R93, R122, R221, R381: CRW completes: it writes each field of a control register under its access code:
reserved and read-only fields keep their value, the sticky flags of CR.FPC clear by ones, CR.QUANT and CR.DECWIN take
their least values. A write of CR.FPC waits for TMMA (R302). -/
def Obligations.ControlRegisterWrites : Prop :=
  ∀ (x : Args) (s : State) (p : Proc), Ready eCrw x s p →
    let v := p.scalar x.a.toNat
    (∀ n q, (n, q) ∈ Spec.ownWrite (taken eCrw x p) v → crNum x = n →
      exec (.crw x) s = .next (s.after eCrw x p fun _ => q)) ∧
    (crNum x = 0x020 → exec (.crw x) s = .next (s.after eCrw x p fun q => q)) ∧
    (s.tmmaBusy s.cur p.core = false → crNum x = 6 → exec (.crFpcWrite x) s = .next (s.after eCrw x p fun q =>
      { q with fpc := (v &&& 0xBF00) ||| ((p.fpc &&& 0x1F) &&& ~~~v) })) ∧
    (∃ t, exec (.crQuantWrite x) s = .next t ∧ (t.core p.core).quant = max 64 (v.toNat % 65536) ∧
      SameMemory s t ∧ OtherProcs s t [s.cur]) ∧
    (∃ t, exec (.crDecwinWrite x) s = .next t ∧ (t.die (coreDie p.core)).ackw = max 1 (v.toNat / 2 ^ 32 % 65536) ∧
      (t.die (coreDie p.core)).win = max 1024 (v.toNat % 2 ^ 32) ∧ SameMemory s t ∧ OtherProcs s t [s.cur])

/-- R126, R140: an LDL or LDC that no check of R126 refuses completes: it writes the bytes at its address, extended by TY,
and nothing else; one that a check refuses delivers the first failing check's cause with the effective address; an
uncorrectable word delivers fault 24 with the word's address. An STL or STC that no check refuses completes: it stores
B[8n − 1:0] at its address, and changes no other byte, no full bit, no register and no other process; one that a check
refuses delivers the cause and stores nothing. -/
def Obligations.LocalAccesses : Prop :=
  (∀ r ∈ Spec.loadRows, ∀ (x : Args) (s : State) (p : Proc), Ready r.2.1 x s p →
    let ea := (Spec.ea x p).toNat
    let pa := Spec.windowPA s p r.2.2 ea
    match Spec.firstFault s p (Spec.srcA x p) r.2.2 ea (Spec.size x) (Spec.size x) 0x10 with
    | some c => exec (r.1 x) s = .next (s.deliver s.cur { cause := c, faddr := Spec.ea x p } p.pc)
    | none =>
      (s.badWord pa (Spec.size x) = none → exec (r.1 x) s = .next (s.after r.2.1 x p fun q =>
        q.wrOp x.d.toNat (Spec.loaded x (s.readNat pa (Spec.size x))))) ∧
      (∀ w, s.badWord pa (Spec.size x) = some w → exec (r.1 x) s = .next (s.deliver s.cur
        { cause := 24, faddr := BitVec.ofNat 64 (ea - ea % 64 + (w - (pa - pa % 64))) } p.pc))) ∧
  (∀ r ∈ Spec.storeRows, ∀ (x : Args) (s : State) (p : Proc), Ready r.2.1 x s p → x.i = false → s.wf = true →
    let ea := (Spec.ea x p).toNat
    let pa := Spec.windowPA s p r.2.2 ea
    match Spec.firstFault s p (Spec.srcA x p) r.2.2 ea (Spec.size x) (Spec.size x) 0x08 with
    | some c => exec (r.1 x) s = .next (s.deliver s.cur { cause := c, faddr := Spec.ea x p } p.pc)
    | none => ∃ t, exec (r.1 x) s = .next t ∧
        t.readNat pa (Spec.size x) = (p.scalar x.b.toNat).toNat % 256 ^ Spec.size x ∧ OnlyBytes s t pa (Spec.size x) ∧
        t.empty = s.empty ∧ t.proc s.cur = some (procAfter r.2.1 x p fun q => q) ∧ OtherProcs s t [s.cur])

/-- R133, R134, R140: an LDG whose bytes one piece gives completes: it takes the youngest covering entry of the core's
store buffer, waits for one that overlaps, reads memory where no entry overlaps and L1 holds its lines, and otherwise
parks with reason memory-server until a line returns. R132, R139, R140: an STG completes: it takes the next entry of its
core's store buffer and counts in the store counter; memory does not change yet. With sixteen entries it is not ready. -/
def Obligations.GlobalAccesses : Prop :=
  (∀ (x : Args) (s : State) (p : Proc) (q : Piece), Ready eLdg x s p →
    let ea := (Spec.ea x p).toNat
    s.check p.ctx p.core p.priv (Spec.srcA x p) ea (Spec.size x) 2 0x10 (Spec.size x) { rd := true } = .ok [q] →
    match s.forward p.core p.ctx ea (Spec.size x) with
    | .data bs => exec (.ldg x) s = .next (s.after eLdg x p fun q => q.wrOp x.d.toNat (Spec.loaded x (bytesNat bs)))
    | .wait => p.packet = none → exec (.ldg x) s = .next { s with stalled := true }
    | .none_ =>
      ((∀ l ∈ unitsOf 64 q.pa q.len, q.l1 = true ∧ nsHas (s.core p.core).l1 l = true ∨ l ∈ p.granted) →
        s.badPiece [q] = none →
        exec (.ldg x) s = .next (s.after eLdg x p fun r => r.wrOp x.d.toNat (Spec.loaded x (s.readNat q.pa q.len)))) ∧
      (∀ l, unitsOf 64 q.pa q.len = [l] → nsHas (s.core p.core).l1 l = false → l ∉ p.granted → p.packet = none →
        ∃ t r c, exec (.ldg x) s = .next t ∧ t.proc s.cur = some r ∧ r.st = .parked .memoryServer (.line l) c ∧ r.pc = p.pc ∧
          SameMemory s t ∧ OtherProcs s t [s.cur])) ∧
  (∀ (x : Args) (s : State) (p : Proc) (q : Piece), Ready eStg x s p → x.i = false →
    let ea := (Spec.ea x p).toNat
    s.check p.ctx p.core p.priv (Spec.srcA x p) ea (Spec.size x) 2 0x08 (Spec.size x) { wr := true } = .ok [q] →
    ((s.core p.core).sb.length < 16 → p.cStore < 65535 → ∃ t, exec (.stg x) s = .next t ∧
      (t.core p.core).sb = (s.core p.core).sb ++ [⟨(s.core p.core).sbSeq, s.cur, p.ctx,
        .store ea q.pa (natBytes (Spec.size x) (p.scalar x.b.toNat).toNat)⟩] ∧
      t.proc s.cur = some (procAfter eStg x p fun r => { r with cStore := r.cStore + 1 }) ∧
      SameMemory s t ∧ OtherProcs s t [s.cur]) ∧
    ((s.core p.core).sb.length = 16 → p.packet = none → exec (.stg x) s = .next { s with stalled := true }))

/-- R132, R139: STORE_BUFFER_PERFORM completes: it performs the oldest entry of a core: its bytes land, no other byte
changes, the entry leaves and the store counter of its process falls. R134: LDG_MISS_RETURN completes: it gives a process
that waits for a line its data, and wakes it: READY, or SUSPENDED where its context or a debug halt holds it back. Its
instruction issues again. -/
def Obligations.StoreBufferAndMisses : Prop :=
  (∀ (s : State) (core : Nat) (e : SbEntry) (rest : List SbEntry) (p : Proc) (va pa : Nat) (bs : List Byte),
    (s.core core).sb = e :: rest → e.what = .store va pa bs → s.proc e.pid = some p → s.wf = true →
    ∃ t q, exec (.storeBufferPerform core) s = .next t ∧ t.read pa bs.length = bs ∧ OnlyBytes s t pa bs.length ∧
      (t.core core).sb = rest ∧ t.proc e.pid = some q ∧ q.cStore = p.cStore - 1) ∧
  (∀ (s : State) (pid : Nat) (p : Proc) (r : Reason) (l c : Nat), s.proc pid = some p → p.st = .parked r (.line l) c →
    ∃ t q, exec (.ldgMissReturn pid) s = .next t ∧ t.proc pid = some q ∧ l ∈ q.granted ∧ q.pc = p.pc ∧
      q.st = (if s.heldBack p then .suspended else .ready) ∧ SameData s t ∧ OtherProcs s t [pid])

/-- R136, R137, R141, R142, in LOCAL and CLUSTER space, at words on which nothing waits: LDS of a full word completes: it
writes its value and .c empties it; STF completes: it stores and fills. LDS of an empty word, and STF.e of a full one,
park with reason full-bit. R137: an STF to a word at which one LDS waits gives that load the stored value: its destination
takes it, and its process is READY at its next instruction, or SUSPENDED where it is held back. -/
def Obligations.SynchronisingWords : Prop :=
  (∀ (x : Args) (s : State) (p : Proc) (space : Nat), space < 2 → ((Spec.srcA x p).ps.extractLsb' 6 2).toNat = space →
    s.wf = true → x.i = false →
    let ea := (Spec.ea x p).toNat
    let pa := Spec.windowPA s p space ea
    let w := pa / 8
    let m0 := (modOf .offset x).getLsbD 0
    tblGetD s.waiters w [] = [] →
    (Ready eLds x s p → Spec.firstFault s p (Spec.srcA x p) space ea 8 8 (if m0 then 0x18 else 0x10) = none →
      (s.wordFull w = true → s.badWord pa 8 = none → ∃ t, exec (.lds x) s = .next t ∧
        t.proc s.cur = some (procAfter eLds x p fun q => q.wrOp x.d.toNat (BitVec.ofNat 64 (s.readNat pa 8))) ∧
        t.mem = s.mem ∧ t.wordFull w = !m0 ∧ OtherProcs s t [s.cur]) ∧
      (s.wordFull w = false → p.packet = none → ∃ t q c, exec (.lds x) s = .next t ∧ t.proc s.cur = some q ∧
        q.st = .parked .fullBit (.word w) c ∧ q.pc = p.pc ∧ t.mem = s.mem ∧ t.empty = s.empty)) ∧
    (Ready eStf x s p → Spec.firstFault s p (Spec.srcA x p) space ea 8 8 0x08 = none →
      ((m0 = false ∨ s.wordFull w = false) → ∃ t, exec (.stf x) s = .next t ∧
        t.proc s.cur = some (procAfter eStf x p fun q => q) ∧ t.readNat pa 8 = (p.scalar x.b.toNat).toNat ∧
        OnlyBytes s t pa 8 ∧ t.wordFull w = true ∧ OtherProcs s t [s.cur]) ∧
      (m0 = true → s.wordFull w = true → p.packet = none → ∃ t q c, exec (.stf x) s = .next t ∧
        t.proc s.cur = some q ∧ q.st = .parked .fullBit (.word w) c ∧ t.mem = s.mem ∧ t.empty = s.empty))) ∧
  (∀ (s : State) (w v : Nat) (p : Proc) (wt : Waiter) (r : RName) (reason : Reason) (wait : Wait) (c : Nat),
    tblGetD s.waiters w [] = [wt] → tblSorted s.waiters = true → s.wordFull w = false → nsHas s.ecc w = false → s.wf = true →
    wt.op = .lds false → wt.dest = some r → wt.marks = [] → s.proc wt.pid = some p → p.st = .parked reason wait c →
    s.readNat (8 * w) 8 = v → (∀ i, r ≠ .p i) →
    ∃ q, (s.setWord w true).proc wt.pid = some q ∧ q.reg r = BitVec.ofNat 64 v ∧ q.full r = true ∧ q.pc = wt.next ∧
      q.st = (if s.heldBack p then .suspended else .ready) ∧ (s.setWord w true).wordFull w = true ∧
      (s.setWord w true).mem = s.mem ∧ tblGetD (s.setWord w true).waiters w [] = [])

/-- R143: FEB.set and FEB.clr of a range in LOCAL or CLUSTER space complete: they give every word of the range the bit,
leave every other word's bit and every byte of memory, and FEB.rd completes: it reads the bits into D; a count of zero
does nothing. -/
def Obligations.FullEmptyRanges : Prop :=
  ∀ (x : Args) (s : State) (p : Proc) (space : Nat), space < 2 → ((Spec.srcA x p).ps.extractLsb' 6 2).toNat = space →
    x.i = false → s.waiters = [] → Ready eFeb x s p →
    let ea := (Spec.ea x p).toNat
    let n := (p.scalar x.b.toNat).toNat
    let pa := Spec.windowPA s p space ea
    let ws := (List.range n).map fun i => pa / 8 + i
    pa % 8 = 0 →
    (∀ r ∈ [(Instr.febSet, true), (.febClr, false)],
      (n = 0 ∨ Spec.firstFault s p (Spec.srcA x p) space ea (8 * n) 8 0x08 = none) → ∃ t, exec (r.1 x) s = .next t ∧
        (∀ w ∈ ws, t.wordFull w = r.2) ∧ OnlyWords s t ws ∧ t.mem = s.mem ∧
        t.proc s.cur = some (procAfter eFeb x p fun q => q) ∧ OtherProcs s t [s.cur]) ∧
    ((n = 0 ∨ Spec.firstFault s p (Spec.srcA x p) space ea (8 * n) 8 0x10 = none) → ∃ v : Word,
      exec (.febRd x) s = .next (s.after eFeb x p fun q => q.wrOp x.d.toNat v) ∧
      ∀ i < 64, v.getLsbD i = (decide (i < n) && s.wordFull (pa / 8 + i)))

/-- R138, R144: an integer AMO in LOCAL or CLUSTER space completes: it writes the old value, extended by TY, to D and the
new value to memory in one step; the full bit and every other byte stay. -/
def Obligations.Atomics : Prop :=
  ∀ (x : Args) (s : State) (p : Proc) (space : Nat), space < 2 → ((Spec.srcA x p).ps.extractLsb' 6 2).toNat = space →
    Ready eAmo x s p → s.wf = true → x.len ≠ .l64 → x.i = false → tyN x ∈ [0, 1, 4, 5] → mN x % 16 < 8 →
    let ea := (Spec.ea x p).toNat
    let pa := Spec.windowPA s p space ea
    let w := Spec.width x
    let old := BitVec.ofNat w (s.readNat pa (Spec.size x))
    let new := Spec.amoBits (mN x % 16) (tySigned (tyN x)) old ((p.scalar x.b.toNat).setWidth w)
      ((envOf eAmo x s s.cur p).c.setWidth w)
    match Spec.firstFault s p (Spec.srcA x p) space ea (Spec.size x) (Spec.size x) 0x1C with
    | some c => exec (.amo x) s = .next (s.deliver s.cur { cause := c, faddr := Spec.ea x p } p.pc)
    | none => s.badWord pa (Spec.size x) = none → ∃ t, exec (.amo x) s = .next t ∧
        t.proc s.cur = some (procAfter eAmo x p fun q => q.wrOp x.d.toNat (Spec.loaded x old.toNat)) ∧
        t.readNat pa (Spec.size x) = new.toNat ∧ OnlyBytes s t pa (Spec.size x) ∧ t.empty = s.empty ∧
        OtherProcs s t [s.cur]

/-- R145, R146: PRF completes, and changes no memory, no other process and of its own only the address; CLN and INV of no
bytes do nothing; of a range that the checks of R126 and every present page allow they take one store-buffer entry, which
names the lines of its present pages, and count in the store counter; a check that refuses delivers its cause. -/
def Obligations.CacheHints : Prop :=
  ∀ (x : Args) (s : State) (p : Proc),
    (Ready ePrf x s p → ∃ t, exec (.prf x) s = .next t ∧ t.proc s.cur = some (procAfter ePrf x p fun q => q) ∧
      SameData s t ∧ OtherProcs s t [s.cur]) ∧
    (∀ r ∈ [(Instr.cln, eCln, (0x10 : BitVec 8)), (.inv, eInv, 0x08)], Ready r.2.1 x s p → x.i = false →
      let src := Spec.srcA x p
      let n := (p.scalar x.b.toNat).toNat
      let inv : Bool := r.2.2 == 0x08
      let refused := Spec.firstFault s p src 2 src.ptr.toNat n (if inv then 64 else 0) r.2.2
      (n = 0 → exec (r.1 x) s = .next (s.after r.2.1 x p fun q => q)) ∧
      (n ≠ 0 → (inv = true → n % 64 = 0) →
        (∀ c, refused = some c → exec (r.1 x) s = .next (s.deliver s.cur { cause := c, faddr := src.ptr } p.pc)) ∧
        (∀ ps, refused = none → joinAcc ((splitUnits src.ptr.toNat n).map fun u =>
            s.rangePart p.die p.ctx p.priv (if inv then { wr := true } else { rd := true }) u.1 u.2) = .ok ps →
          (s.core p.core).sb.length < 16 → p.cStore < 65535 → ∃ t, exec (r.1 x) s = .next t ∧
            (t.core p.core).sb = (s.core p.core).sb ++ [⟨(s.core p.core).sbSeq, s.cur, p.ctx,
              if inv then .inval (pieceLines ps) else .clean (pieceLines ps)⟩] ∧
            t.proc s.cur = some (procAfter r.2.1 x p fun q => { q with cStore := q.cStore + 1 }) ∧
            SameMemory s t ∧ OtherProcs s t [s.cur])))

/-- R147 to R153: an engine instruction of a zero count writes 0 to D; one whose operands pass the issue checks is queued
behind the cluster's others, its D pending, and completes; nothing in memory changes yet. -/
def Obligations.EngineIssue : Prop :=
  ∀ r ∈ Spec.engineRows, ∀ (x : Args) (s : State) (p : Proc), Ready r.entry x s p → x.i = false →
    let e := envOf r.entry x s s.cur p
    (r.empty e = true → exec (r.con x) s = .next (s.after r.entry x p fun q => q.wrOp x.d.toNat 0)) ∧
    (r.empty e = false → (∀ o ∈ r.operands e, Spec.engineOk s p o) →
      ((modOf .modw x).getLsbD 7 = true → mN x % 128 < 96) → (s.cluster (p.core / 16)).engine.length < 64 →
      p.cCopy < 65535 → ∃ t en, exec (r.con x) s = .next t ∧
        (t.cluster (p.core / 16)).engine = (s.cluster (p.core / 16)).engine ++ [en] ∧ en.pid = s.cur ∧ en.what = r.what e ∧
        en.dest = p.name x.d.toNat ∧ en.bytes = 0 ∧ en.finished = false ∧
        t.proc s.cur = some (procAfter r.entry x p (Spec.copyStarted x)) ∧ SameMemory s t ∧ OtherProcs s t [s.cur])

/-- R148, R136: the events of the engine complete. COPY_ENGINE_CHUNK of a CPY between LOCAL and CLUSTER memory moves the
next 256 bytes or fewer, fills the words that they touch, and changes no other byte. R139, R147: ENGINE_COMPLETE of an
instruction that has finished writes its status word, cause and bytes, to D, lowers the copy counter, and brings the next
instruction to the head. -/
def Obligations.EngineEvents : Prop :=
  (∀ (s : State) (c : Nat) (en : EngEntry) (rest : List EngEntry) (p : Proc) (d r : AReg) (n : Nat),
    (s.cluster c).engine = en :: rest → en.what = .cpy d r n → s.proc en.pid = some p → en.finished = false →
    en.stalled = false → s.sbDone en.core en.sb = true → p.opsDone en.toks = true → Spec.spaceOf d < 2 → Spec.spaceOf r < 2 →
    s.tileStoresBefore en.pid en.core en.seq = false → en.buf = none → en.early = [] → en.bar = none → s.waiters = [] →
    s.wf = true →
    let k := min 256 (n - en.bytes)
    let src := Spec.windowAt s en.core en.ctx (Spec.spaceOf r) (r.ptr.toNat + en.bytes)
    let dst := Spec.windowAt s en.core en.ctx (Spec.spaceOf d) (d.ptr.toNat + en.bytes)
    s.badWord src k = none → ∃ t, exec (.copyEngineChunk c) s = .next t ∧ t.read dst k = s.read src k ∧ OnlyBytes s t dst k ∧
      (∀ w ∈ wordsOf dst k, t.wordFull w = true) ∧
      (t.cluster c).engine = { en with bytes := en.bytes + k, done := en.done + 1, finished := decide (n ≤ en.bytes + k) } :: rest) ∧
  (∀ (s : State) (c : Nat) (en : EngEntry) (rest : List EngEntry) (p : Proc), (s.cluster c).engine = en :: rest →
    en.finished = true → s.proc en.pid = some p → ∃ t q, exec (.engineComplete c) s = .next t ∧
      (t.cluster c).engine = rest ∧ t.proc en.pid = some q ∧ q.cCopy = p.cCopy - 1 ∧ SameMemory s t ∧
      Spec.Landed q en.dest (BitVec.ofNat 64 (en.cause % 64 * 2 ^ 40 + en.bytes % 2 ^ 40)))

/-- R154, R252, R253: an MSRQ on an open channel that the checks accept completes: it reads its record from LOCAL memory
and joins the queue of the server of its own die that the channel names; where the server is another die's it hands its
record to the outbound buffer and waits for the answer (the model's choice, log entry 29). MEMORY_SERVER_REQUEST_TAKE
takes the oldest with the cause of its first failing check; MEMORY_SERVER_REQUEST_COMPLETE of one with a cause ends it,
with its status word in D; of a read that no check has stopped, it moves the bytes of the next line to the local range,
whose words become full, and with the last line it ends the request with CAUSE 0. -/
def Obligations.MemoryServerRequests : Prop :=
  (∀ (x : Args) (s : State) (p : Proc), Ready eMsrq x s p → x.i = false →
    let h := p.scalar x.a.toNat
    let target := (s.chan p.ctx (hIndex h)).target
    let die := target / 256 % 8
    let r := p.addr (x.b.toNat - 40)
    let pa := Spec.windowPA s p 0 r.ptr.toNat
    let words := [0, 8, 16, 24].map fun i => BitVec.ofNat 64 (s.readNat (pa + i) 8)
    s.hcheck p.ctx p.rank h false [0] [3] = none → Spec.firstFault s p r 0 r.ptr.toNat 32 8 0x10 = none →
    s.badWord pa 32 = none → (s.chan p.ctx (hIndex h)).closed = false →
    (s.chanEnd p.ctx (hIndex h)).rebind = [] → ((s.ctx p.ctx).msHard && s.msOut die p.ctx) = false →
    p.cCopy < 65535 →
    (s.isFar p.ctx (hIndex h) p.die = false → (tblGetD (s.die die).servers (target % 4) []).length < 64 → p.st = .running →
      ∃ t q, exec (.msrq x) s = .next t ∧
        tblGetD (t.die die).servers (target % 4) [] = tblGetD (s.die die).servers (target % 4) [] ++ [q] ∧ q.pid = s.cur ∧
        q.words = words ∧ t.proc s.cur = some (procAfter eMsrq x p (Spec.copyStarted x)) ∧ SameMemory s t ∧
        OtherProcs s t [s.cur]) ∧
    (s.isFar p.ctx (hIndex h) p.die = true → 32 ≤ s.unitSize p.die s.devId → p.packet = none → ∃ t q c,
      exec (.msrq x) s = .next t ∧ t.proc s.cur = some q ∧ q.pc = p.nextPc x ∧ q.cCopy = p.cCopy + 1 ∧
        q.st = .parked .memoryServer (.chan s.seq) c ∧
        Spec.Sent t p.die (fun m => m.kind = 6 ∧ m.pid = s.cur ∧ m.ddie = die ∧ m.payload = s.read pa 32) ∧
        SameMemory s t ∧ OtherProcs s t [s.cur])) ∧
  (∀ (s : State) (die srv : Nat) (r : MsReq) (rest : List MsReq), tblGetD (s.die die).servers srv [] = r :: rest →
    r.ready = true → r.taken = false → s.serverReady r = true → ((s.ctx r.ctx).msHard || !s.msOut die r.ctx) = true →
    ∃ t, exec (.memoryServerRequestTake die srv) s = .next t ∧
      tblGetD (t.die die).servers srv [] = { r with taken := true, cause := s.serverCheck die r } :: rest ∧ SameMemory s t) ∧
  (∀ (s : State) (die srv : Nat) (r : MsReq) (rest : List MsReq) (p : Proc), tblGetD (s.die die).servers srv [] = r :: rest →
    r.taken = true → r.stalled = false → r.cause ≠ 0 → r.viaSend = false → r.word 3 = 0 → s.proc r.pid = some p →
    (∀ c ∈ s.ctxs, ∀ e ∈ c.2.ends, e.2.sends = []) →
    ∃ t q, exec (.memoryServerRequestComplete die srv) s = .next t ∧ tblGetD (t.die die).servers srv [] = rest ∧
      t.proc r.pid = some q ∧ q.cCopy = p.cCopy - 1 ∧ SameMemory s t ∧
      Spec.Landed q r.dest (BitVec.ofNat 64 (r.cause % 64 * 2 ^ 40 + r.bytes % 2 ^ 40))) ∧
  (∀ (s : State) (die srv : Nat) (r : MsReq) (rest : List MsReq) (p : Proc) (q : Piece),
    tblGetD (s.die die).servers srv [] = r :: rest → r.taken = true → r.stalled = false → r.cause = 0 → r.op = 0 →
    r.bytes < r.count → r.count ≤ 65536 → r.viaSend = false → r.word 3 = 0 → s.proc r.pid = some p →
    (∀ c ∈ s.ctxs, ∀ e ∈ c.2.ends, e.2.sends = []) → s.wf = true → s.waiters = [] →
    let va := r.gaddr + r.bytes
    let n := min (64 - va % 64) (r.count - r.bytes)
    (va + n - 1) % 2 ^ 40 < scratchOff → s.resolve die r.ctx r.priv { rd := true } va n = .ok [q] → q.len = n → s.badPiece [q] = none →
    let dst := s.serverLocal r (r.loff + r.bytes)
    ∃ t, exec (.memoryServerRequestComplete die srv) s = .next t ∧ t.read dst n = s.read q.pa n ∧ OnlyBytes s t dst n ∧
      (∀ w ∈ wordsOf dst n, t.wordFull w = true) ∧
      (r.bytes + n < r.count → tblGetD (t.die die).servers srv [] = { r with done := r.done + 1, bytes := r.bytes + n } :: rest) ∧
      (r.count = r.bytes + n → tblGetD (t.die die).servers srv [] = rest ∧ ∃ u, t.proc r.pid = some u ∧ u.cCopy = p.cCopy - 1 ∧
        Spec.Landed u r.dest (BitVec.ofNat 64 r.count)))

/-- R161, R170 to R173: a GET, PUT or RAMO that rcheck accepts and whose owner can be reached completes: it hands one
message to the outbound buffer, with its address, kind and bytes; its counter rises and D awaits the result. A PUT.f
carries the counts of the PUTs before it. A GET whose bytes PUTs in the buffer cover takes them from there; one that
overlaps entries in another way is not ready, and takes nothing from them afterwards. Block forms of a zero count write 0
to D. -/
def Obligations.RemoteIssue : Prop :=
  ∀ (x : Args) (s : State) (p : Proc) (dev die : Nat) (owner : Owner), x.i = false →
    let a := (Spec.srcA x p).ptr + (if x.len = .l64 then 0 else Spec.branchOff x)
    let n := Spec.size x
    let v := (p.scalar x.b.toNat).toNat
    let c := p.scalar (cOf .modw x).toNat
    let mine (m : OutMsg) : Prop := m.pid = s.cur ∧ m.addr = a ∧ m.ddev = dev ∧ m.ddie = die
    (Ready eGet x s p → getBlk x = false → s.rcheck p.ctx (Spec.srcA x p) a.toNat n 0x10 n = none →
      Spec.Reachable s p a (c.extractLsb' 48 16).toNat dev die owner → p.cLoad < 65535 →
      match s.buffered p.die p.ctx a.toNat n with
      | .data bs =>
        (p.phase ≠ 1 → exec (.get x) s = .next (s.after eGet x p fun q => q.wrOp x.d.toNat (Spec.loaded x (bytesNat bs)))) ∧
        (p.phase = 1 → p.packet = none → exec (.get x) s = .next { s with stalled := true })
      | .wait => p.packet = none → exec (.get x) s = .next { s.withCur { p with phase := 1 } with stalled := true }
      | .send => ∃ t q, exec (.get x) s = .next t ∧ t.proc s.cur = some q ∧
          Spec.SameButOps (procAfter eGet x p (Spec.remoteStarted .get (p.name x.d.toNat))) q ∧
          Spec.Sent t p.die (fun m => mine m ∧ m.kind = 2 ∧ m.count = n) ∧ SameMemory s t ∧ OtherProcs s t [s.cur]) ∧
    (Ready ePut x s p → getBlk x = false → s.rcheck p.ctx (Spec.srcA x p) a.toNat n 0x08 n = none →
      Spec.Reachable s p a (c.extractLsb' 48 16).toNat dev die owner → (s.die p.die).entries < 2048 → p.cStore < 65535 →
      let counts := (List.range 16).map fun i => tblGetD p.putCount (16 * dev + i) 0
      (mN x % 4 ≠ 2 → (∀ i, tblGetD p.putCount (16 * dev + i) 0 + 1 < 2 ^ 32) →
        ∃ t q, exec (.put x) s = .next t ∧ t.proc s.cur = some q ∧
          Spec.SameButOps (procAfter ePut x p (Spec.remoteStarted .put none)) q ∧
          Spec.Sent t p.die (fun m => mine m ∧ m.kind = 0 ∧ m.payload = natBytes n v) ∧ SameMemory s t ∧
          OtherProcs s t [s.cur]) ∧
      (mN x % 4 = 2 → tblGetD p.flagsOut dev 0 < 16 → nsHas p.spoiled dev = false →
        ∃ t q, exec (.put x) s = .next t ∧ t.proc s.cur = some q ∧
          Spec.SameButOps (procAfter ePut x p (Spec.remoteStarted .put none)) q ∧
          Spec.Sent t p.die (fun m => mine m ∧ m.kind = 1 ∧ m.fseq = tblGetD p.fseq dev 0 ∧
            m.payload = natBytes n v ++ counts.flatMap (natBytes 4)) ∧ SameMemory s t ∧ OtherProcs s t [s.cur])) ∧
    (Ready eRamo x s p → s.rcheck p.ctx (Spec.srcA x p) a.toNat n 0x1C n = none → Spec.Reachable s p a 0 dev die owner →
      (s.die p.die).entries < 2048 → p.cLoad < 65535 → (s.ctx p.ctx).dmode ≠ 2 →
      (s.ctx p.ctx).log.length < (s.ctx p.ctx).logCap ∨ (s.ctx p.ctx).dmode ≠ 1 →
      ∃ t q, exec (.ramo x) s = .next t ∧ t.proc s.cur = some q ∧
        Spec.SameButOps (procAfter eRamo x p (Spec.remoteStarted .ramo (p.name x.d.toNat))) q ∧
        Spec.Sent t p.die (fun m => mine m ∧ m.kind = 4 ∧ m.payload.take n = natBytes n v) ∧ SameMemory s t ∧
        OtherProcs s t [s.cur]) ∧
    (∀ r ∈ [(Instr.getBlk, eGet), (.putBlk, ePut)], Ready r.2 x s p → getBlk x = true → c.extractLsb' 0 32 = 0 →
      exec (r.1 x) s = .next (s.after r.2 x p fun q => q.wrOp x.d.toNat 0))

/-- R170, R171: a GET.blk of a positive count, from a block that rcheck accepts to LOCAL or CLUSTER memory that R126
allows, completes: it hands its request to the outbound buffer, and D awaits the status word; PUT.blk completes: it reads
its source at issue and hands the messages of its bytes over. -/
def Obligations.RemoteBlocks : Prop :=
  ∀ (x : Args) (s : State) (p : Proc) (dev die : Nat) (owner : Owner), x.i = false → getBlk x = true →
    let off := if x.len = .l64 then 0 else Spec.branchOff x
    let c := p.scalar (cOf .modw x).toNat
    let n := (c.extractLsb' 0 32).toNat
    let ra := p.addr (x.a.toNat - 40)
    let rb := p.addr (x.b.toNat - 40)
    0 < n → n ≤ 65536 → n % 8 = 0 →
    (Ready eGet x s p → s.rcheck p.ctx rb (rb.ptr + off).toNat n 0x10 8 = none → Spec.spaceOf ra < 2 →
      Spec.firstFault s p ra (Spec.spaceOf ra) ra.ptr.toNat n 8 0x0A = none →
      Spec.Reachable s p (rb.ptr + off) (c.extractLsb' 48 16).toNat dev die owner → p.cLoad < 65535 →
      ((s.die p.die).out.all fun m => !m.2.isEntry) = true → ∃ t q, exec (.getBlk x) s = .next t ∧ t.proc s.cur = some q ∧
        Spec.SameButOps (procAfter eGet x p (Spec.remoteStarted .get (p.name x.d.toNat))) q ∧
        Spec.Sent t p.die (fun m => m.pid = s.cur ∧ m.kind = 2 ∧ m.addr = rb.ptr + off ∧ m.count = n ∧ m.dst = some ra) ∧
        SameMemory s t ∧ OtherProcs s t [s.cur]) ∧
    (Ready ePut x s p → s.rcheck p.ctx ra (ra.ptr + off).toNat n 0x08 8 = none → Spec.spaceOf rb < 2 →
      Spec.firstFault s p rb (Spec.spaceOf rb) rb.ptr.toNat n 8 0x12 = none →
      Spec.Reachable s p (ra.ptr + off) (c.extractLsb' 48 16).toNat dev die owner → p.cStore < 65535 → p.sbMark = none →
      (s.core p.core).sb = [] → s.tileStoresBefore s.cur p.core s.seq = false →
      s.badWord (Spec.windowPA s p (Spec.spaceOf rb) rb.ptr.toNat) n = none →
      (s.die p.die).entries + (unitOffsets n (s.unitSize p.die dev)).length ≤ 2048 → 0 < s.unitSize p.die dev →
      (∀ i, tblGetD p.putCount (16 * dev + i) 0 = 0) → ∃ t q, exec (.putBlk x) s = .next t ∧ t.proc s.cur = some q ∧
        Spec.SameButOps (procAfter ePut x p (Spec.remoteStarted .put (p.name x.d.toNat))) q ∧
        (∀ k ∈ unitOffsets n (s.unitSize p.die dev), Spec.Sent t p.die (fun m => m.pid = s.cur ∧ m.kind = 0 ∧
          m.addr = ra.ptr + off + BitVec.ofNat 64 k ∧ m.ddev = dev ∧ m.ddie = die ∧ m.payload =
            ((s.read (Spec.windowPA s p (Spec.spaceOf rb) rb.ptr.toNat) n).drop k).take (s.unitSize p.die dev))) ∧
        SameMemory s t ∧ OtherProcs s t [s.cur])

/-- R162, R166, R172, R173: OWNER_ON_ISSUING_DIE_PERFORM completes: it carries out a PUT whose owner is the issuing die
and whose page is present: its bytes land and no others change, its entry leaves the buffer, and the store counter of its
process falls; a GET gives D the bytes; a RAMO outside the order log writes the new value and gives D the old one. -/
def Obligations.OwnerPerforms : Prop :=
  ∀ (s : State) (die k : Nat) (m : OutMsg) (p : Proc) (o : Op) (q : Piece), tblGet (s.die die).out k = some m →
    tblSorted (s.die die).out = true →
    m.ddev = s.devId → m.ddie = die → m.st = .queued → s.sameAddrHeld die k m = false → m.miss = [] → m.declined = false →
    m.got = none → s.proc m.pid = some p → tblGet p.ops m.tok = some o → o.left = 1 → o.fails = [] → o.precise = false → o.block = false →
    s.wf = true →
    (m.kind = 0 → m.opw / 512 % 2 = 0 → o.kind = .put → o.dest = none →
      s.resolve die m.ctx m.priv { wr := true } m.addr.toNat m.payload.length = .ok [q] → q.len = m.payload.length →
      ∃ t r, exec (.ownerOnIssuingDiePerform die k) s = .next t ∧ t.read q.pa q.len = m.payload ∧ OnlyBytes s t q.pa q.len ∧
        tblGet (t.die die).out k = none ∧ t.proc m.pid = some r ∧ r.cStore = p.cStore - 1) ∧
    (m.kind = 2 → m.dst = none → o.kind = .get → s.resolve die m.ctx m.priv { rd := true } m.addr.toNat m.count = .ok [q] →
      s.badPiece [q] = none →
      ∃ t r, exec (.ownerOnIssuingDiePerform die k) s = .next t ∧ SameMemory s t ∧ tblGet (t.die die).out k = none ∧
        t.proc m.pid = some r ∧ r.cLoad = p.cLoad - 1 ∧ Spec.Landed r o.dest (loadExt (m.opw % 16) (s.readNat q.pa q.len))) ∧
    (m.kind = 4 → m.dst = none → o.kind = .ramo → q.len = tyBytes (m.opw % 16) → s.badPiece [q] = none → logged [q] = false →
      s.resolve die m.ctx m.priv { rd := true, wr := true, at_ := true } m.addr.toNat q.len = .ok [q] →
      let old := s.readNat q.pa q.len
      let new := amoNew (m.opw / 16 % 16) (m.opw % 16) old (bytesNat (m.payload.take q.len)) (bytesNat (m.payload.drop q.len))
      ∃ t r, exec (.ownerOnIssuingDiePerform die k) s = .next t ∧ t.read q.pa q.len = natBytes q.len new ∧
        OnlyBytes s t q.pa q.len ∧ tblGet (t.die die).out k = none ∧ t.proc m.pid = some r ∧ r.cLoad = p.cLoad - 1 ∧
        Spec.Landed r o.dest (loadExt (m.opw % 16) old))

/-- R167, R174 to R176: FENCE.acq and FENCE.full complete once what their scope covers has ended, and otherwise complete
and park, FENCE.full also for entries of the store buffer alone; FENCE.rel and SBD complete and hold later instructions; WAITC completes where the counters are at their limits and
otherwise completes and parks. -/
def Obligations.FencesAndWaits : Prop :=
  ∀ (x : Args) (s : State) (p : Proc),
    (Ready eFence x s p → p.packet = none →
      (p.acqToks (mN x / 4 % 8) = [] → exec (.fenceAcq x) s = .next (s.after eFence x p fun q => q)) ∧
      (p.acqToks (mN x / 4 % 8) ≠ [] → ∃ t q c, exec (.fenceAcq x) s = .next t ∧ t.proc s.cur = some q ∧ q.pc = p.nextPc x ∧
        q.st = .parked .memoryServer (.ops (p.acqToks (mN x / 4 % 8)) 0) c) ∧
      exec (.fenceRel x) s = .next (s.after eFence x p (Spec.holding (p.relToks (mN x / 4 % 8)) (s.core p.core).sbSeq false)) ∧
      (p.relToks (mN x / 4 % 8) = [] → (∀ e ∈ (s.core p.core).sb, (s.core p.core).sbSeq ≤ e.seq) →
        exec (.fenceFull x) s = .next (s.after eFence x p fun q => q)) ∧
      (p.relToks (mN x / 4 % 8) ≠ [] → ∃ t q c, exec (.fenceFull x) s = .next t ∧ t.proc s.cur = some q ∧ q.pc = p.nextPc x ∧
        q.st = .parked .memoryServer (.ops (p.relToks (mN x / 4 % 8)) (s.core p.core).sbSeq) c) ∧
      ((∃ e ∈ (s.core p.core).sb, e.seq < (s.core p.core).sbSeq) → ∃ t q c, exec (.fenceFull x) s = .next t ∧
        t.proc s.cur = some q ∧ q.pc = p.nextPc x ∧
        q.st = .parked .memoryServer (.ops (p.relToks (mN x / 4 % 8)) (s.core p.core).sbSeq) c)) ∧
    (Ready eSbd x s p → exec (.sbd x) s = .next (s.after eSbd x p (Spec.holding [] (s.core p.core).sbSeq true))) ∧
    (Ready eWaitc x s p → p.packet = none → ∀ l st c t4 : Option Nat, waitLimits x = [l, st, c, t4] →
      (atMost p.cLoad l && atMost p.cStore st && atMost p.cCopy c && atMost p.cTile t4) = true →
      exec (.waitc x) s = .next (s.after eWaitc x p fun q => q)) ∧
    (Ready eWaitc x s p → p.packet = none → ∀ l st c t4 : Option Nat, waitLimits x = [l, st, c, t4] →
      (atMost p.cLoad l && atMost p.cStore st && atMost p.cCopy c && atMost p.cTile t4) = false →
      ∃ t q k, exec (.waitc x) s = .next t ∧ t.proc s.cur = some q ∧ q.pc = p.nextPc x ∧
        q.st = .parked .memoryServer (.counters l st c t4) k)

/-- R351, R352: the page-service instructions of a die or address that the operand checks accept, with nothing outstanding
that they wait for: TLBI hands its invalidation to the die and parks at its next instruction. FBRD, RPLY and PHOT park until
the die has answered, and complete with its answer (that they ask in a step of their own is the model's choice, log entry 28):
FBRD reads a record, the status word, or zero; RPLY.one and RPLY.decl release the entry of a slot and free it; RPLY.all
releases every entry of the context and clears DROP; PHOT reads the counters of a translated page, and .clr clears them. -/
def Obligations.PageService : Prop :=
  ∀ (x : Args) (s : State) (p : Proc), p.packet = none → p.relToks 3 = [] → (s.core p.core).sb = [] → x.i = false →
    let a := p.scalar x.a.toNat
    let b := p.scalar x.b.toNat
    let die := (s.ctx p.ctx).mapDie a.toNat
    let home := (s.ctx p.ctx).mapDie (a.toNat / 2 ^ 40 % 8)
    (Ready eTlbi x s p → a.toNat / 2 ^ 43 = s.devId → s.dieLive home = true → a.toNat % 2 ^ 40 < windowOff → ∃ t q c,
      exec (.tlbiPg x) s = .next t ∧ (t.die home).invals = (s.die home).invals ++ [⟨s.cur, p.ctx, false, a⟩] ∧
      t.proc s.cur = some q ∧ q.pc = p.nextPc x ∧ q.st = .parked .memoryServer (.answer 0) c ∧ SameMemory s t) ∧
    (Ready eTlbi x s p → a.toNat / 2 ^ 43 = s.devId → s.dieLive home = true → windowOff ≤ a.toNat % 2 ^ 40 →
      exec (.tlbiPg x) s = .next (s.after eTlbi x p fun q => q)) ∧
    (∀ r ∈ [(Instr.fbrd, eFbrd), (.rplyOne, eRply), (.rplyDecl, eRply), (.rplyAll, eRply)], Ready r.2 x s p → a.toNat < 8 →
      s.dieLive die = true → b.toNat < 8 → p.phase ≠ 1 → Spec.Asks (exec (r.1 x) s) s p) ∧
    (Ready ePhot x s p → a.toNat / 2 ^ 43 = s.devId → s.dieLive home = true → p.phase ≠ 1 →
      Spec.Asks (exec (.phot x) s) s p) ∧
    (Ready eTlbi x s p → a.toNat < 8 → s.dieLive die = true → ∃ t q c, exec (.tlbiAll x) s = .next t ∧
      (t.die die).invals = (s.die die).invals ++ [⟨s.cur, p.ctx, true, BitVec.ofNat 64 (a.toNat * 2 ^ 40)⟩] ∧
      t.proc s.cur = some q ∧ q.pc = p.nextPc x ∧ q.st = .parked .memoryServer (.answer 0) c ∧ SameMemory s t) ∧
    (Ready eFbrd x s p → p.phase = 1 → a.toNat < 8 → s.dieLive die = true → b.toNat ≤ 8 → (b.toNat = 8 → mN x % 4 = 0) →
      exec (.fbrd x) s = .next (s.after eFbrd x p fun q => q.wrOp x.d.toNat
        (if b.toNat = 8 then s.fbufStatus die p.ctx else match tblGet (s.die die).fbuf b.toNat with
          | some f => if f.ctx = p.ctx then f.word (mN x % 4) else 0
          | none => 0))) ∧
    (∀ r ∈ [(Instr.rplyOne, false), (.rplyDecl, true)], Ready eRply x s p → p.phase = 1 → a.toNat < 8 → s.dieLive die = true →
      b.toNat < 8 → tblSorted (s.die die).fbuf = true → ∃ t, exec (r.1 x) s = .next t ∧ t.proc s.cur = some (procAfter eRply x p fun q => q) ∧
        (t.die die).misses = (s.die die).misses.map (fun m =>
          if m.ctx = p.ctx ∧ m.st = .recorded b.toNat then { m with st := .released r.2 } else m) ∧ SameMemory s t ∧
        ((∃ m ∈ (s.die die).misses, m.ctx = p.ctx ∧ m.st = .recorded b.toNat) → tblGet (t.die die).fbuf b.toNat = none)) ∧
    (Ready eRply x s p → p.phase = 1 → a.toNat < 8 → s.dieLive die = true → ∃ t, exec (.rplyAll x) s = .next t ∧
      t.proc s.cur = some (procAfter eRply x p fun q => q) ∧ SameMemory s t ∧
      (t.die die).misses = (s.die die).misses.map (fun m => if m.unserved p.ctx then { m with st := .released false } else m) ∧
      (t.die die).drop = tblErase (s.die die).drop p.ctx) ∧
    (Ready ePhot x s p → p.phase = 1 → a.toNat / 2 ^ 43 = s.devId → s.dieLive home = true →
      let held := if windowOff ≤ a.toNat % 2 ^ 40 then none else s.tlbFind home p.ctx a.toNat
      let v : Word := held.elim 0 fun e => BitVec.ofNat 64 (e.hot.zipIdx.map fun h => h.1 * 2 ^ (16 * h.2)).sum
      ((mN x).testBit 0 = false → exec (.phot x) s = .next (s.after ePhot x p fun q => q.wrOp x.d.toNat v)) ∧
      ((mN x).testBit 0 = true → ∃ t, exec (.phot x) s = .next t ∧
        t.proc s.cur = some (procAfter ePhot x p fun q => q.wrOp x.d.toNat v) ∧ SameMemory s t ∧ OtherProcs s t [s.cur] ∧
        (held.isSome = true → ∃ e, t.tlbFind home p.ctx a.toNat = some e ∧ e.hot = [0, 0, 0, 0])))

/-- R343 to R345, R349: the events of translation complete. PAGE_WALK that ends at a leaf releases its miss-table entry
and translates its address by the leaf; one that finds no page, with a slot free and no entry of the page recorded,
records it there. REQUESTER_RETRANSMIT removes a released entry and wakes a process that waits on it alone, with fault 21
where the page service has declined; TLBI_COMPLETE ends the oldest invalidation of a die with its translations gone. R353:
MIGRATION_COPY_DONE moves the page's words to its new frames and writes PA and SLICE of the leaf; its process wakes with
1. -/
def Obligations.WalksAndMigrations : Prop :=
  ((∀ (s : State) (die i : Nat) (m : Miss) (bits at_ : Nat) (leaf : Word), (s.die die).misses[i]? = some m →
    m.st = .walking → s.migrating die m.ctx m.base = false → s.walk die m.ctx m.base = .leaf bits at_ leaf →
    s.tlbFind die m.ctx m.base = none → m.base < 2 ^ 43 →
    ∃ t e, exec (.pageWalk die i) s = .next t ∧ t.tlbFind die m.ctx m.base = some e ∧ e.leaf = leaf ∧ e.bits = bits ∧
      (t.die die).misses = (s.die die).misses.map (fun n => if n.ticket = m.ticket then { n with st := .released false } else n) ∧
      SameMemory s t) ∧
  (∀ (s : State) (die i : Nat) (m : Miss) (bits k : Nat) (bad : Bool), (s.die die).misses[i]? = some m →
    m.st = .walking → s.migrating die m.ctx m.base = false → s.walk die m.ctx m.base = .stop bits bad →
    (∀ n ∈ (s.die die).misses, n.ctx ≠ m.ctx ∨ n.ticket = m.ticket) →
    (s.die die).freeFbuf = some k → ∃ t f, exec (.pageWalk die i) s = .next t ∧ tblGet (t.die die).fbuf k = some f ∧
      f.ctx = m.ctx ∧ f.va = m.va ∧ f.bad = bad ∧ f.write = m.write ∧ f.seq = ((s.die die).fseq + 1) % 2 ^ 32 ∧ SameMemory s t) ∧
  (∀ (s : State) (die i pid c : Nat) (m : Miss) (declined : Bool) (p : Proc) (a : Word), (s.die die).misses[i]? = some m →
    m.st = .released declined → (s.die die).commits = [] → m.reqs = [.proc pid] → s.proc pid = some p →
    p.st = .parked .page (.miss die [(m.ticket, a)]) c → ∃ t q, exec (.requesterRetransmit die i) s = .next t ∧
      (∀ n ∈ (t.die die).misses, n.ticket ≠ m.ticket) ∧ t.proc pid = some q ∧ q.pc = p.pc ∧
      q.st = (if s.heldBack p then .suspended else .ready) ∧
      (declined = true → q.wakeFault = some { cause := 21, faddr := a }) ∧ SameMemory s t) ∧
  (∀ (s : State) (die : Nat) (v : Inval) (rest : List Inval), (s.die die).invals = v :: rest →
    (∀ c ∈ s.cores, c.2.sb = []) → s.waiters = [] → (∀ c ∈ s.clusters, ∀ e ∈ c.2.engine, e.early = []) →
    (s.die die).migrs = [] → ∃ t, exec (.tlbiComplete die) s = .next t ∧
      (t.die die).invals = rest ∧ (t.die die).tlb = (s.die die).tlb.filter (fun e => !v.names e) ∧ SameMemory s t)) ∧
  (∀ (s : State) (die : Nat) (g : Migr) (rest : List Migr) (p : Proc) (r : Reason) (w : Wait) (c : Nat),
    (s.die die).migrs = g :: rest → s.wf = true → (∀ k ∈ s.cores, k.2.sb = []) →
    (∀ k ∈ s.clusters, ∀ e ∈ k.2.engine, e.early = []) →
    ((s.ctx g.ctx).msHard || !s.msOut die g.ctx) = true → s.proc g.pid = some p → p.st = .parked r w c →
    let size := 2 ^ g.bits
    let old := hbmPA die (leafFrame g.leaf * 2 ^ 16)
    let new := hbmPA die (leafFrame g.newLeaf * 2 ^ 16)
    let leafAt := hbmPA die (tblGetD (s.ctx g.ctx).tables (g.base / 2 ^ 40) 0 + g.leafAt)
    (leafAt + 8 ≤ new ∨ new + size ≤ leafAt) → ∃ t q, exec (.migrationCopyDone die) s = .next t ∧
      (∀ i < size, memByte t.mem (new + i) = memByte s.mem (old + i)) ∧ t.readNat leafAt 8 = (moveLeaf (BitVec.ofNat 64 (s.readNat leafAt 8)) g.newLeaf).toNat ∧
      (∀ a, (a < new ∨ new + size ≤ a) → (a < leafAt ∨ leafAt + 8 ≤ a) → memByte t.mem a = memByte s.mem a) ∧
      (t.die die).migrs = rest ∧ t.proc g.pid = some q ∧ q.wakeVal = some 1 ∧
      q.st = (if s.heldBack p then .suspended else .ready))

/-- R192, R193, R353: PMIG, RMV, RMACK, OMARK and WDOG complete. PMIG of a page that is not present writes 0; of a page
that can move to frames of the context it makes the page MIGRATING and waits, and writes the value with which it wakes.
RMV reads a word of the resource map. RMACK of a version that is not the current one writes 0, of one that every live die
has acknowledged 1, and otherwise waits. OMARK takes an ordinal, records its event where the mode is recording, and passes
its own entry where it is replay. WDOG.kick of counts within the limit zeroes the die's; WDOG.lim sets the limit. -/
def Obligations.PlacementInstructions : Prop :=
  ∀ (x : Args) (s : State) (p : Proc), x.i = false →
    let a := p.scalar x.a.toNat
    let b := p.scalar x.b.toNat
    let home := (s.ctx p.ctx).mapDie (a.toNat / 2 ^ 40 % 8)
    let here : Prop := a.toNat / 2 ^ 43 = s.devId ∧ s.dieLive home = true ∧ b &&& ~~~0x0001E01FFFFF0000 = 0 ∧
      a.toNat % 2 ^ 40 < windowOff ∧ Spec.Quiet s p 3 ∧ ∀ m ∈ (s.die home).misses, m.st ≠ .migrating
    (Ready ePmig x s p → p.wakeVal = none → p.phase ≠ 1 → p.packet = none → here → Spec.Asks (exec (.pmig x) s) s p) ∧
    (Ready ePmig x s p → p.wakeVal = none → p.phase = 1 → here →
      (∀ bits bad, s.walk home p.ctx (a.toNat % 2 ^ 43) = .stop bits bad →
        exec (.pmig x) s = .next (s.after ePmig x p fun q => q.wrOp x.d.toNat 0)) ∧
      (∀ bits at_ leaf, s.walk home p.ctx (a.toNat % 2 ^ 43) = .leaf bits at_ leaf → p.packet = none →
        leafFrame b % 2 ^ (bits - 16) = 0 → framesOverlap (leafFrame b) (leafFrame leaf) bits = false →
        s.ownsFrames home p.ctx (leafFrame b) bits = true → ∃ t q g c, exec (.pmig x) s = .next t ∧
          (t.die home).migrs = (s.die home).migrs ++ [g] ∧ g.pid = s.cur ∧ g.bits = bits ∧ g.leaf = leaf ∧
          g.newLeaf = moveLeaf leaf b ∧ t.proc s.cur = some q ∧ q.pc = p.pc ∧
          q.st = .parked .memoryServer (.answer g.ticket) c ∧ SameMemory s t)) ∧
    (∀ v, Ready ePmig x s p → p.wakeVal = some v →
      exec (.pmig x) s = .next (s.after ePmig x p fun q => q.wrOp x.d.toNat v)) ∧
    (Ready eRmv x s p → a.toNat < 512 →
      exec (.rmv x) s = .next (s.after eRmv x p fun q => q.wrOp x.d.toNat (tblGetD (s.die p.die).map a.toNat 0))) ∧
    (Ready eRmack x s p → p.phase = 0 →
      (a.toNat ≠ s.curVersion p.die → exec (.rmack x) s = .next (s.after eRmack x p fun q => q.wrOp x.d.toNat 0)) ∧
      (a.toNat = s.curVersion p.die → s.acked p.ctx a.toNat = true →
        exec (.rmack x) s = .next (s.after eRmack x p fun q => q.wrOp x.d.toNat 1)) ∧
      (a.toNat = s.curVersion p.die → s.acked p.ctx a.toNat = false → p.packet = none → ∃ t q c,
        exec (.rmack x) s = .next t ∧ t.rmacks = s.rmacks ++ s.liveDies.map (fun d => (d, p.ctx, a.toNat)) ∧
        t.proc s.cur = some q ∧ q.st = .parked .memoryServer (.rmack a.toNat) c ∧ SameMemory s t)) ∧
    (Ready eRmack x s p → p.phase = 1 → exec (.rmack x) s = .next (s.after eRmack x p fun q => q.wrOp x.d.toNat 1)) ∧
    (Ready eOmark x s p → (s.ctx p.ctx).dmode = 0 → exec (.omark x) s = .next (s.after eOmark x p fun q =>
      { q with ordinal := (q.ordinal + 1) % 2 ^ 32 })) ∧
    (Ready eOmark x s p → (s.ctx p.ctx).dmode = 1 → (s.ctx p.ctx).log.length < (s.ctx p.ctx).logCap → ∃ t,
      exec (.omark x) s = .next t ∧ (t.ctx p.ctx).log = (s.ctx p.ctx).log ++ [⟨p.rank, p.ordinal, 3, 0, a, 0⟩] ∧
      t.proc s.cur = some (procAfter eOmark x p fun q => { q with ordinal := (q.ordinal + 1) % 2 ^ 32 }) ∧ SameMemory s t) ∧
    (∀ l, Ready eOmark x s p → (s.ctx p.ctx).dmode = 2 →
      (s.ctx p.ctx).log.find? (fun l => l.rank == p.rank && l.ord == p.ordinal) = some l → l.kind = 3 → l.value = a → ∃ t,
      exec (.omark x) s = .next t ∧ SameMemory s t ∧
      t.proc s.cur = some (procAfter eOmark x p fun q => { q with ordinal := (q.ordinal + 1) % 2 ^ 32 })) ∧
    (Ready eWdog x s p → (∀ c, c / 256 = p.die → tblSorted (s.core c).watch = true) →
      ((s.ctx p.ctx).wdLimit = 0 ∨ ∀ c, c / 256 = p.die → tblGetD (s.core c).watch p.ctx 0 ≤ (s.ctx p.ctx).wdLimit * 65536) →
      ∃ t, exec (.wdogKick x) s = .next t ∧
      (∀ c, c / 256 = p.die → tblGetD (t.core c).watch p.ctx 0 = 0) ∧
      t.kicks = s.kicks ++ (s.liveDies.filter (· != p.die)).map (fun d => (d, p.ctx)) ∧
      t.proc s.cur = some (procAfter eWdog x p fun q => q) ∧ SameMemory s t ∧ OtherProcs s t [s.cur]) ∧
    (Ready eWdog x s p → mN x ≠ 0 → ∃ t, exec (.wdogLim x) s = .next t ∧ (t.ctx p.ctx).wdLimit =
        (if a = 0 ∨ (s.ctx p.ctx).wdCeil < a.toNat then (s.ctx p.ctx).wdCeil else a.toNat) ∧
      t.proc s.cur = some (procAfter eWdog x p fun q => q) ∧ SameMemory s t ∧ OtherProcs s t [s.cur])

/-- R184 to R188, R190, R192, R193: the events of a context complete. An acknowledgement that arrives is recorded, or held
where its version is not installed; a window that ends unacknowledged, and a watchdog count past the limit, suspend the
context with a record of cause 50 or 52; a kick zeroes counts, and suspends the context where one had passed the limit
before it; a budget period of 65,536 core cycles, or twice as many die cycles, ends and the next starts at zero (that the
first begins at cycle 0 is the model's choice, log entry 70); a recorded log area drains; a context that drains ends with
its last operation. -/
def Obligations.ContextEvents : Prop :=
  (∀ (s : State) (i d ctx v : Nat), s.rmacks[i]? = some (d, ctx, v) → v ≤ s.curVersion d → ∃ t,
    exec (.rmackArrival i) s = .next t ∧ t.rmacks = s.rmacks.eraseIdx i ∧
    tblGetD (t.ctx ctx).ack d 0 = max v (tblGetD (s.ctx ctx).ack d 0)) ∧
  (∀ (s : State) (i d ctx v : Nat), s.rmacks[i]? = some (d, ctx, v) → s.curVersion d < v → ∃ t,
    exec (.rmackArrival i) s = .next t ∧ (t.die d).heldAcks = (s.die d).heldAcks ++ [(ctx, v)]) ∧
  (∀ (s : State) (d ctx v : Nat), (s.ctx ctx).st = .running → (s.die d).windows = [(ctx, v, 0)] →
    ∃ t, exec (.rmapAckWindowExpiry d ctx) s = .next t ∧ (t.ctx ctx).st = .suspended ∧
    (t.die d).windows = [] ∧ (t.core (256 * d)).records = (s.core (256 * d)).records ++ [(bareRecord ctx 50, none)]) ∧
  (∀ (s : State) (core ctx : Nat), (s.ctx ctx).st = .running → (s.ctx ctx).wdLimit ≠ 0 →
    (s.ctx ctx).wdLimit * 65536 < tblGetD (s.core core).watch ctx 0 → ∃ t r,
    exec (.watchdogExpiry core ctx) s = .next t ∧ (t.ctx ctx).st = .suspended ∧
    (t.core core).records = (s.core core).records ++ [(r, none)] ∧ r.code = 52 ∧ r.ctx = ctx ∧ r.context = true) ∧
  (∀ (s : State) (i d ctx : Nat), s.kicks[i]? = some (d, ctx) → (∀ c, c / 256 = d → tblSorted (s.core c).watch = true) → ∃ t,
    exec (.wdogKickArrival i) s = .next t ∧ t.kicks = s.kicks.eraseIdx i ∧
    (∀ c, c / 256 = d → tblGetD (t.core c).watch ctx 0 = 0) ∧
    ((s.ctx ctx).st = .running → (s.ctx ctx).wdLimit ≠ 0 →
      (∃ c, c / 256 = d ∧ (s.ctx ctx).wdLimit * 65536 < tblGetD (s.core c).watch ctx 0) → (t.ctx ctx).st = .suspended)) ∧
  (∀ (s : State) (u : Nat),
    ((s.die u).period + 131072 ≤ (s.die u).cycle → ∃ t, exec (.budgetPeriodStart true u) s = .next t ∧ (t.die u).msUsed = [] ∧
      (t.die u).lkUsed = [] ∧ (t.die u).period = (s.die u).period + 131072) ∧
    ((s.core u).period + 65536 ≤ (s.core u).cycle → ∃ t, exec (.budgetPeriodStart false u) s = .next t ∧ (t.core u).share = [] ∧
      (t.core u).period = (s.core u).period + 65536) ∧
    ((s.die u).cycle < (s.die u).period + 131072 → exec (.budgetPeriodStart true u) s = .next s)) ∧
  (∀ (s : State) (ctx : Nat), (s.ctx ctx).dmode = 1 → ∃ t, exec (.orderLogDrain ctx) s = .next t ∧ (t.ctx ctx).log = [] ∧
    (t.ctx ctx).logFull = false) ∧
  (∀ (s : State) (ctx : Nat), (s.ctx ctx).st = .draining → s.ctxBusy ctx = false → tblSorted s.ctxs = true → ∃ t,
    exec (.contextDrainEnd ctx) s = .next t ∧ tblGet t.ctxs ctx = none ∧ (∀ n q, t.proc n = some q → q.ctx ≠ ctx) ∧
    (∀ d, ∀ e ∈ (t.die d).tlb, e.ctx ≠ ctx) ∧ t.mem = s.mem)

/-- R211 to R216, R219: SPAWN completes: it makes one READY process that starts at its target with the registers copied, D
takes the core, and its creator, whose wait with reason join ends in the same step, is READY again beyond the instruction. FORKR
on a CLUSTER cell completes: it makes one process for each block, with its bounds, index and number, and adds their number to
the cell. JINIT and JOIN complete: they set and count a LOCAL or CLUSTER cell. PUSHK completes: it puts a task record at the
youngest end of the core's deque. That the creator's wait ends at once is the model's choice (log entry 42). -/
def Obligations.ProcessesAndJoins : Prop :=
  ∀ (x : Args) (s : State) (p : Proc), x.i = false → s.wf = true → s.waiters = [] → s.cur < s.seq →
    (∀ n, s.seq ≤ n → s.proc n = none) →
    let a := p.scalar x.a.toNat
    let b := p.scalar x.b.toNat
    let src := Spec.srcA x p
    let space := Spec.spaceOf src
    let ea := (Spec.ea x p).toNat
    let pa := Spec.windowPA s p space ea
    (∀ core, Ready eSpawn x s p → Spec.Quiet s p 3 → p.packet = none → Spec.placedOn x s p core →
      (∀ i < spawnN x, p.pending.contains (.w (24 * p.level + spawnF x + i)) = false) → spawnF x + spawnN x ≤ 32 →
      (s.newProc s.occupants (Spec.childOf x p core (b.toNat % 2 ^ 32))).isSome = true →
      s.rankHeld p.ctx (b.toNat % 2 ^ 32) = false → ∃ t q, exec (.spawn x) s = .next t ∧
        Spec.Joins t s.cur (procAfter eSpawn x p fun r => r.wrOp x.d.toNat (BitVec.ofNat 64 core)) ∧
        t.proc s.seq = some q ∧ q.ctx = p.ctx ∧ q.core = core ∧ q.rank = b.toNat % 2 ^ 32 ∧ q.prio = p.prio ∧
        q.priv = false ∧ q.pc = p.pc + 4 * (x.ext.setWidth 32).signExtend 64 ∧
        (∀ i < spawnN x, q.reg (.w i) = p.scalar (spawnF x + i)) ∧ SameMemory s t ∧ OtherProcs s t [s.cur, s.seq]) ∧
    (Ready eForkr x s p → Spec.Quiet s p 3 → p.packet = none → p.phase = 0 → spawnPlace x = 0 →
      let c := p.addr ((cOf .modw x).toNat - 40)
      let g := b.toNat % 2 ^ 32
      let rb := b.toNat / 2 ^ 32
      let w := (a.toNat + g - 1) / g
      let cell := Spec.windowPA s p 1 c.ptr.toNat
      let e := envOf eForkr x s s.cur p
      0 < g → 0 < w → w ≤ 65536 → rb + w ≤ 2 ^ 32 → spawnN x ≤ 4 → spawnF x + spawnN x ≤ 32 →
      Spec.firstFault s p c 1 c.ptr.toNat 8 8 0x1C = none → s.badWord cell 8 = none →
      (∀ k < w, s.rankHeld p.ctx (rb + k) = false) →
      (e.children (s.recruit (e.childSeed 0 0) p.core 0 w) w a.toNat g rb).isSome = true →
      ∃ t, exec (.forkr x) s = .next t ∧ t.readNat cell 8 = (s.readNat cell 8 + w) % 2 ^ 64 ∧ OnlyBytes s t cell 8 ∧
        Spec.Joins t s.cur (procAfter eForkr x p fun r => r.wrOp x.d.toNat (BitVec.ofNat 64 w)) ∧
        (∀ n < s.seq, n ≠ s.cur → t.proc n = s.proc n) ∧
        ∀ k < w, ∃ n q, t.proc n = some q ∧ q.ctx = p.ctx ∧ q.rank = rb + k ∧ q.addr 0 = c ∧
          q.pc = p.pc + 4 * (x.ext.setWidth 32).signExtend 64 ∧ q.reg (.w 0) = BitVec.ofNat 64 (k * g) ∧
          q.reg (.w 1) = BitVec.ofNat 64 (min a.toNat ((k + 1) * g)) ∧ q.reg (.w 2) = BitVec.ofNat 64 k ∧
          q.reg (.w 3) = BitVec.ofNat 64 w ∧ ∀ j < spawnN x, q.reg (.w (4 + j)) = p.scalar (spawnF x + j)) ∧
    (Ready eJinit x s p → p.phase = 0 → space < 2 → Spec.firstFault s p src space ea 8 8 0x08 = none → ∃ t,
      exec (.jinit x) s = .next t ∧ t.readNat pa 8 = b.toNat ∧ OnlyBytes s t pa 8 ∧ (∀ w ∈ wordsOf pa 8, t.wordFull w = true) ∧
      t.proc s.cur = some (procAfter eJinit x p fun q => q) ∧ OtherProcs s t [s.cur]) ∧
    (Ready eJoin x s p → p.phase = 0 → space < 2 → Spec.Quiet s p 4 → Spec.firstFault s p src space ea 8 8 0x1C = none →
      s.badWord pa 8 = none →
      let old := s.readNat pa 8
      (old = 0 → exec (.join x) s = .next (s.deliver s.cur { cause := 41 } p.pc)) ∧
      (old = 1 → ∃ t, exec (.join x) s = .next t ∧ t.readNat pa 8 = 0 ∧ OnlyBytes s t pa 8 ∧
        t.proc s.cur = some (procAfter eJoin x p fun q => q) ∧ OtherProcs s t [s.cur]) ∧
      (2 ≤ old → p.packet = none → ∃ t q, exec (.join x) s = .next t ∧ t.readNat pa 8 = old - 1 ∧ OnlyBytes s t pa 8 ∧
        t.proc s.cur = some q ∧ q.st = .stopped ∧ OtherProcs s t [s.cur])) ∧
    (Ready ePushk x s p → Spec.Quiet s p 2 → (s.core p.core).deque.length < 256 → s.badWord (Spec.windowPA s p 0 ea) 32 = none →
      Spec.firstFault s p src 0 ea 32 8 0x10 = none →
      let word (i : Nat) : Word := BitVec.ofNat 64 (s.readNat (Spec.windowPA s p 0 ea + 8 * i) 8)
      ∃ t, exec (.pushk x) s = .next t ∧ (t.core p.core).deque = (s.core p.core).deque ++
        [{ ctx := p.ctx, kernel := p.kernel, entry := p.entry, start := word 0, rank := (word 1).toNat / 2 ^ 32, arg0 := word 2,
           arg1 := word 3, prio := p.prio, floor := p.floor, fpc := p.fpc &&& 0xBF00 }] ∧
        t.proc s.cur = some (procAfter ePushk x p fun q => q) ∧ SameMemory s t ∧ OtherProcs s t [s.cur])

/-- R233 to R236: STOP, YIELD, SPRI, SLEEP and NOP complete. STOP of a process with nothing outstanding and no delayed
fault makes it STOPPED, and otherwise waits or delivers the fault; YIELD acts at the next boundary; SPRI sets the priority
and writes the old one, or raises fault 4 above the floor; SLEEP waits for its tick. NOP changes nothing but the
instruction address (R58). R120: TRAP delivers fault 6 and BRK fault 5, with the code of IMM21[15:0] in INFO; CR.EPC is
the next instruction address of the TRAP and the address of the BRK. -/
def Obligations.NopTrapStopYieldSleep : Prop :=
  (∀ (x : Args) (s : State) (p : Proc),
    let a := p.scalar x.a.toNat
    let now := (s.core p.core).tick
    let till := if (mN x).testBit 0 then a.toNat else min (now + a.toNat) (2 ^ 64 - 1)
    (Ready eStop x s p → s.drained s.cur p = true → p.delayed = [] → p.overflow = none → p.packet = none →
      ∃ t q, exec (.stop x) s = .next t ∧ t.proc s.cur = some q ∧ q.st = .stopped ∧
        (t.core p.core).slots.all (· != some s.cur) = true ∧ SameMemory s t ∧ OtherProcs s t [s.cur]) ∧
    (Ready eStop x s p → s.drained s.cur p = false → p.packet = none → ∃ t q c, exec (.stop x) s = .next t ∧
      t.proc s.cur = some q ∧ q.st = .parked .memoryServer .drained c ∧ q.pc = p.pc ∧ SameMemory s t) ∧
    (∀ f rest, Ready eStop x s p → s.drained s.cur p = true → p.delayed = f :: rest → p.overflow = none → f.cause ≠ 6 →
      exec (.stop x) s = .next ((s.withCur { p with delayed := rest }).deliver s.cur f p.pc)) ∧
    (Ready eYield x s p → exec (.yield x) s = .next (s.after eYield x p fun q => { q with yielded := true })) ∧
    (Ready eSpri x s p → exec (.spri x) s = .next (if p.priv = false ∧ a.toNat % 4 < p.floor
      then s.deliver s.cur { cause := 4, info := p.floor } p.pc
      else s.after eSpri x p fun q => { q.wrOp x.d.toNat (BitVec.ofNat 64 p.prio) with prio := a.toNat % 4, lowered := true })) ∧
    (Ready eSleep x s p → till ≤ now → exec (.sleep x) s = .next (s.after eSleep x p fun q => q)) ∧
    (Ready eSleep x s p → now < till → p.packet = none → ∃ t q c, exec (.sleep x) s = .next t ∧ t.proc s.cur = some q ∧
      q.pc = p.nextPc x ∧ q.st = .parked .sleep (.tick till) c ∧ SameMemory s t ∧ OtherProcs s t [s.cur])) ∧
  ((∀ (x : Args) (s : State) (p : Proc), Ready eNop x s p → exec (.nop x) s = .next (s.after eNop x p fun q => q)) ∧
  (∀ (x : Args) (s : State) (p : Proc),
    (Ready eTrap x s p → exec (.trap x) s = .next (s.deliver s.cur
      { cause := 6, info := (x.im21.extractLsb' 0 16).toNat } (nextAddr p.pc x.len.bytes))) ∧
    (Ready eBrk x s p → exec (.brk x) s = .next (s.deliver s.cur
      { cause := 5, info := (x.im21.extractLsb' 0 16).toNat } p.pc))))

/-- R94, R137, R166, R217, R218, R220, R223, R229, R231, R236: the events of scheduling complete. A free slot goes to the
first resident READY process; a process of a better priority displaces the slot's holder; a slot turns over when its
quantum ends; evicted processes become resident; waits end; fault deliveries that fall due are taken; task records become
processes. -/
def Obligations.SchedulingEvents : Prop :=
  (∀ (s : State) (core k pid : Nat) (rest : List Nat), (s.core core).freeSlot = some k → s.readyResident core = pid :: rest →
    ∃ t q, exec (.slotTake core) s = .next t ∧ (t.core core).slots[k]? = some (some pid) ∧ t.proc pid = some q ∧
      q.st = .running ∧ (∀ pr, pid ∉ tblGetD (t.core core).ready pr []) ∧ SameMemory s t ∧ OtherProcs s t [pid]) ∧
  (∀ (s : State) (core k pid n : Nat) (rest : List Nat) (p pn : Proc), (s.core core).freeSlot = none →
    s.readyResident core = pid :: rest → s.proc pid = some p → displaced p.prio (s.holders core) = some (k, n, pn) →
    Spec.NothingDue s core → pn.st = .running → ∃ t q r, exec (.preemption core) s = .next t ∧ (t.core core).slots[k]? = some (some pid) ∧
      t.proc pid = some q ∧ q.st = .running ∧ t.proc n = some r ∧ r.st = .ready ∧ SameMemory s t ∧ OtherProcs s t [pid, n]) ∧
  (∀ (s : State) (core k pid n : Nat) (pn : Proc), (s.core core).slots[k]? = some (some n) → s.proc n = some pn →
    Spec.NothingDue s core → (s.core core).freeSlot = none →
    pn.st = .running → (s.core core).quant ≤ pn.quantum → pn.packet = none →
    (s.readyResident core).find? (fun i => (s.proc i).map (·.prio) == some pn.prio) = some pid →
    ∃ t q r, exec (.quantumExpiry core k) s = .next t ∧ (t.core core).slots[k]? = some (some pid) ∧ t.proc pid = some q ∧
      q.st = .running ∧ t.proc n = some r ∧ r.st = .ready ∧ r.quantum = 0 ∧ SameMemory s t ∧ OtherProcs s t [pid, n]) ∧
  (∀ (s u : State) (core pid : Nat) (p : Proc), (s.core core).queue = [pid] → s.proc pid = some p → p.resident = false →
    s.fill pid = some u → ∃ q, exec (.processFill core) s = .next u ∧ u.proc pid = some q ∧ q.resident = true ∧
      q.rank = p.rank ∧ q.pc = p.pc ∧ q.st = p.st ∧ 1 ≤ q.res) ∧
  (∀ (s : State) (pid c till : Nat) (p : Proc), s.proc pid = some p → p.st = .parked .sleep (.tick till) c →
    till ≤ (s.core p.core).tick → ∃ t q, exec (.sleepWake pid) s = .next t ∧ t.proc pid = some q ∧
      q.st = (if s.heldBack p then .suspended else .ready) ∧ q.pc = p.pc ∧ SameMemory s t ∧ OtherProcs s t [pid]) ∧
  (∀ (s : State) (pid since : Nat) (p : Proc) (why : Reason) (w : Wait), s.proc pid = some p → p.st = .parked why w since →
    (why = .fullBit ∨ (∃ b g, w = .generation b g) ∨ ∃ e i, w = .collective e i) → (s.ctx p.ctx).waitlim ≠ 0 → (s.ctx p.ctx).waitlim < (s.core p.core).cycle - since → p.held = none → ∃ t q,
    exec (.waitLimitExpiry pid) s = .next t ∧ t.proc pid = some q ∧ q.wakeFault = some { cause := 27 } ∧
      q.st = (if s.heldBack p then .suspended else .ready) ∧ (∀ v ∈ t.waiters, ∀ y ∈ v.2, y.pid ≠ pid) ∧ SameMemory s t) ∧
  (∀ (s : State) (pid : Nat) (p : Proc), s.proc pid = some p → p.st = .stopped → s.procBusy pid p = false →
    tblSorted s.procs = true → ∃ t, exec (.processFree pid) s = .next t ∧ t.proc pid = none ∧ SameMemory s t ∧
      OtherProcs s t [pid]) ∧
  (∀ (s : State) (pid : Nat) (p : Proc) (f : FaultInfo), s.proc pid = some p → p.st = .running → p.held = none →
    (p.wakeFault = some f → p.delayedDue = false → exec (.faultDelivery pid) s = .next
      ((s.modProc pid fun q => { q with wakeFault := none }).deliver pid f p.pc)) ∧
    (∀ rest, p.packet = none → p.thdl.getLsbD 1 = false → p.overflow = none → p.delayed = f :: rest →
      exec (.delayedFaultDelivery pid) s = .next ((s.modProc pid fun q => { q with delayed := rest }).deliverLate pid f p.pc))) ∧
  (∀ (s : State) (core : Nat) (r : TaskRec) (older : List TaskRec), (s.core core).deque = older ++ [r] →
    (s.ctx r.ctx).st = .running → s.underloaded core = true → s.rankHeld r.ctx r.rank = false →
    (s.newProc s.occupants (Spec.taskSeed core r)).isSome = true → ∃ t, exec (.taskRecordTake core) s = .next t ∧
      (t.core core).deque = older ∧ Spec.TaskRuns t s.seq core r ∧ SameMemory s t) ∧
  (∀ (s : State) (core v : Nat) (r : TaskRec) (younger : List TaskRec), (s.core core).deque = [] →
    (stealOrder core).find? s.stealable = some v →
    (s.core v).deque = r :: younger → (s.ctx r.ctx).st = .running → s.underloaded core = true →
    s.rankHeld r.ctx r.rank = false → (s.newProc s.occupants (Spec.taskSeed core r)).isSome = true → ∃ t,
      exec (.taskRecordSteal core) s = .next t ∧ (t.core v).deque = younger ∧ Spec.TaskRuns t s.seq core r ∧ SameMemory s t)

/-- R244, R247, R261, R262: on an open channel of this die with a free place, SEND and SENDV complete: they put their part into
it, opening a packet where the part is not the last. RECV and RECVV complete: they take the oldest message held, its first part
into D, and keep the rest. Without a message RECV parks with reason channel. -/
def Obligations.ChannelParts : Prop :=
  ∀ (x : Args) (s : State) (p : Proc), p.packet = none → p.st = .running → p.wakeVal = none → p.phase = 0 →
    let a := p.scalar x.a.toNat
    let i := hIndex a
    let ch := s.chan p.ctx i
    let e := s.chanEnd p.ctx i
    Spec.OpenHere s p i → e.sends = [] → e.rcvs = [] → tblGetD p.rx i [] = [] →
    (∀ r ∈ [(Instr.send, eSend, 0, natBytes 8 (p.scalar x.b.toNat).toNat),
        (.sendv, eSendv, 1, natBytes 128 (p.vec x.b.toNat).toNat)], Ready r.2.1 x s p → x.i = false →
      s.hcheck p.ctx p.rank a false [r.2.2.1] [1, 2, 3, 5] = none → Spec.Quiet s p 2 → e.held.length < ch.depth →
      ∃ t, exec (r.1 x) s = .next t ∧ (t.chanEnd p.ctx i).held = e.held ++
          [{ ticket := s.seq, pid := s.cur, parts := [r.2.2.2], closed := x.e }] ∧
        t.proc s.cur = some (procAfter r.2.1 x p fun q =>
          if x.e then q else { q with packet := some ⟨a, s.seq, 0, [r.2.2.2]⟩ }) ∧
        SameMemory s t ∧ OtherProcs s t [s.cur]) ∧
    (∀ m rest, e.held = m :: rest → m.closed = true → m.parts ≠ [] → ch.depth ≠ 0 →
      (Ready eRecv x s p → s.hcheck p.ctx p.rank a true [0, 4] [1, 2] = none → ∃ t, exec (.recv x) s = .next t ∧
        (t.chanEnd p.ctx i).held = rest ∧ t.proc s.cur = some (procAfter eRecv x p fun q =>
          Spec.tookPart x i m.parts (q.wrOp x.d.toNat (BitVec.ofNat 64 (bytesNat (m.parts.headD []))))) ∧
        SameMemory s t ∧ OtherProcs s t [s.cur]) ∧
      (Ready eRecvv x s p → s.hcheck p.ctx p.rank a true [1] [1, 2] = none → ∃ t, exec (.recvv x) s = .next t ∧
        (t.chanEnd p.ctx i).held = rest ∧ t.proc s.cur = some (procAfter eRecvv x p fun q =>
          Spec.tookPart x i m.parts (q.setVec x.d.toNat (BitVec.ofNat 1024 (bytesNat (m.parts.headD []))))) ∧
        SameMemory s t ∧ OtherProcs s t [s.cur])) ∧
    (e.held = [] → Ready eRecv x s p → s.hcheck p.ctx p.rank a true [0, 4] [1, 2] = none → ∃ t q c,
      exec (.recv x) s = .next t ∧ t.proc s.cur = some q ∧ q.st = .parked .channel (.chan s.seq) c ∧ q.pc = p.pc ∧
        (t.chanEnd p.ctx i).rcvs = [{ ticket := s.seq, pid := s.cur }] ∧ SameMemory s t ∧ OtherProcs s t [s.cur])

/-- R239, R246, R248, R251, R263 to R267: SENDT and RECVT on an open rendezvous channel with nobody waiting complete: they join
the end, D pending. CHB completes: it binds and writes the old binding word. CHQ and CHCL park until the channel's ordering
point has answered, and then complete: the binding or status word is read, or the channel is CLOSED. ALTB opens an alt, ALTG
adds a guard, and ALTW chooses the lowest ready guard, and completes, or parks. -/
def Obligations.ChannelControl : Prop :=
  ∀ (x : Args) (s : State) (p : Proc), p.packet = none → p.st = .running → x.i = false →
    let a := p.scalar x.a.toNat
    let b := p.scalar x.b.toNat
    let i := hIndex a
    let ch := s.chan p.ctx i
    let e := s.chanEnd p.ctx i
    (Spec.OpenHere s p i → ch.depth = 0 → e.sends = [] → e.rcvs = [] →
      (Ready eSendt x s p → s.hcheck p.ctx p.rank a false [2] [1, 2, 5] = none → Spec.tileOk x s p 0x12 → Spec.Quiet s p 2 →
        s.tileStoresBefore s.cur p.core s.seq = false →
        ∃ t q, exec (.sendt x) s = .next t ∧
          (t.chanEnd p.ctx i).sends = [{ ticket := s.seq, pid := s.cur, tile := some (Spec.tileOf x s p) }] ∧
          t.proc s.cur = some q ∧ Spec.SameButOps (procAfter eSendt x p (Spec.copyStarted x)) q ∧ SameMemory s t ∧
          OtherProcs s t [s.cur]) ∧
      (Ready eRecvt x s p → s.hcheck p.ctx p.rank a true [2] [1, 2] = none → Spec.tileOk x s p 0x0A →
        ∃ t q, exec (.recvt x) s = .next t ∧
          (t.chanEnd p.ctx i).rcvs = [{ ticket := s.seq, pid := s.cur, tile := some (Spec.tileOf x s p) }] ∧
          t.proc s.cur = some q ∧ Spec.SameButOps (procAfter eRecvt x p (Spec.copyStarted x)) q ∧ SameMemory s t ∧
          OtherProcs s t [s.cur])) ∧
    (Ready eChb x s p → s.hcheck12 p.ctx a [0, 1, 2, 3, 4] none = none → e = {} → s.transferring p.ctx i = false → s.unsentSends p.ctx i = [] →
      let kind := b.toNat / 2 ^ 61
      let target := b.toNat % 2 ^ 40
      kind < 3 → (kindTypes kind).contains ch.type = true → target = target &&& targetMask kind → (i = 0 → p.priv = true) →
      ∃ t, exec (.chb x) s = .next t ∧ t.chan p.ctx i = { ch with kind := kind, target := target, closed := false } ∧
        t.proc s.cur = some (procAfter eChb x p fun q => q.wrOp x.d.toNat (Spec.bindWord ch)) ∧ SameMemory s t ∧
        OtherProcs s t [s.cur]) ∧
    (Ready eChq x s p → s.hcheck12 p.ctx a [0, 1, 2, 3, 4] none = none → p.phase ≠ 1 →
      Spec.Asks (exec (.chqBind x) s) s p ∧ Spec.Asks (exec (.chqStat x) s) s p) ∧
    (Ready eChq x s p → s.hcheck12 p.ctx a [0, 1, 2, 3, 4] none = none → p.phase = 1 →
      exec (.chqBind x) s = .next (s.after eChq x p fun q => q.wrOp x.d.toNat (Spec.bindWord ch)) ∧
      exec (.chqStat x) s = .next (s.after eChq x p fun q => q.wrOp x.d.toNat (s.chanStat p.ctx i))) ∧
    (Ready eChcl x s p → s.hcheck12 p.ctx a [0, 1, 2, 3, 4] none = none → (i = 0 → p.priv = true) →
      (p.phase ≠ 1 → Spec.Asks (exec (.chcl x) s) s p) ∧
      (p.phase = 1 → ch.closed = true → ∃ t, exec (.chcl x) s = .next t ∧ t.chan p.ctx i = ch ∧
        t.proc s.cur = some (procAfter eChcl x p fun q => q) ∧ SameMemory s t) ∧
      (p.phase = 1 → ch.closed = false → e.sends = [] → e.rcvs = [] → p.ops = [] → ∃ t, exec (.chcl x) s = .next t ∧ (t.chan p.ctx i).closed = true ∧
        t.proc s.cur = some (procAfter eChcl x p fun q => q) ∧ SameMemory s t)) ∧
    (Ready eAltb x s p → (s.ctx p.ctx).ends = [] → exec (.altb x) s = .next (s.after eAltb x p fun q =>
      { q with alt := some [], altFair := mN x == 1, altT0 := none })) ∧
    (∀ gs, Ready eAltg x s p → p.alt = some gs → gs.length < 8 → ∀ g : Guard,
      ((mN x = 0 ∧ g = .recv a ∧ s.hcheck p.ctx p.rank a true [0, 1, 2, 4] [1, 2] = none) ∨
       (mN x = 1 ∧ g = .send a ∧ s.hcheck p.ctx p.rank a false [0, 1, 2, 4] [1, 2] = none) ∨
       (mN x = 2 ∧ g = .timeout a.toNat) ∨ (mN x = 3 ∧ g = .barrier a.toNat (b.toNat % 2 ^ 16) ∧ a.toNat < 96) ∨
       (mN x = 4 ∧ g = .pred x.a.toNat)) →
      exec (.altg x) s = .next (s.after eAltg x p fun q => { q with alt := some (gs ++ [g]) })) ∧
    (∀ gs k g, Ready eAltw x s p → p.alt = some gs → p.altFair = false → (s.ctx p.ctx).dmode = 0 → gs[k]? = some g →
      let now := { p with altT0 := p.altT0.or (some (s.core p.core).tick) }
      s.guardReady now g = true → (∀ j < k, ∀ h, gs[j]? = some h → s.guardReady now h = false) → ∃ t,
        exec (.altw x) s = .next t ∧ t.proc s.cur = some (procAfter eAltw x p fun q =>
          { q.wrOp x.d.toNat (BitVec.ofNat 64 k) with alt := none, altT0 := none, ordinal := (q.ordinal + 1) % 2 ^ 32 }) ∧
        SameMemory s t ∧ OtherProcs s t [s.cur]) ∧
    (∀ gs, Ready eAltw x s p → p.alt = some gs → gs ≠ [] → (s.ctx p.ctx).dmode = 0 →
      (∀ g ∈ gs, s.guardReady { p with altT0 := p.altT0.or (some (s.core p.core).tick) } g = false) → ∃ t q c,
        exec (.altw x) s = .next t ∧ t.proc s.cur = some q ∧ q.st = .parked .alt .alt c ∧ q.pc = p.pc ∧ q.alt = p.alt ∧
        SameMemory s t ∧ OtherProcs s t [s.cur])

/-- R230, R244, R249, R250, R254, R412: the events of channels complete. A message that arrives takes a place, and its
sender's die is told; a notice of acceptance, or of a refusal, wakes the sender; a tile's bytes land; a lost end wakes every
process parked on it with 34; an ALTW wakes; a fault record goes to its endpoint. -/
def Obligations.ChannelEvents : Prop :=
  (∀ (s : State) (k : Nat) (w : ChanWire) (dev die : Nat),
    let e := s.chanEnd w.ctx w.chan
    let ch := s.chan w.ctx w.chan
    s.chanIn[k]? = some w → (∀ v ∈ s.chanIn.take k, ¬(v.ctx = w.ctx ∧ v.chan = w.chan ∧ v.msg.pid = w.msg.pid)) →
    ch.kind = 1 ∨ ch.kind = 2 → (s.endPlace w.ctx w.chan).1 = s.devId → w.msg.drop = false → ch.closed = false → e.rebind = [] → e.matched = [] →
    e.sends = [] → e.rcvs = [] → e.held.length < ch.depth → (∀ m ∈ e.held, m.rsv = none ∧ m.ticket ≠ w.msg.ticket) →
    w.msg.tile = none → w.msg.link = some (dev, die) → ∃ t, exec (.channelMessageArrival k) s = .next t ∧
      (t.chanEnd w.ctx w.chan).held = e.held ++ [w.msg] ∧ t.chanIn = s.chanIn.eraseIdx k ∧
      Spec.Sent t (s.endDie w.ctx w.chan) (fun m => m.kind = 17 ∧ m.ddev = dev ∧ m.ddie = die) ∧ SameMemory s t) ∧
  (∀ (s : State) (k c : Nat) (w : ChanWire) (p : Proc) (r : Reason), s.notices[k]? = some w → w.msg.pid ≠ 0 →
    w.msg.tile = none → w.msg.req = none → s.proc w.msg.pid = some p → p.st = .parked r (.chan w.msg.ticket) c → ∃ t q,
      exec (.channelNotice k) s = .next t ∧ t.notices = s.notices.eraseIdx k ∧ t.proc w.msg.pid = some q ∧
      q.st = (if s.heldBack p then .suspended else .ready) ∧ (w.cause ≠ 0 → q.wakeFault = some { cause := w.cause }) ∧
      (w.cause = 0 → q.wakeVal = some (BitVec.ofNat 64 (bytesNat (w.msg.parts.headD [])))) ∧ SameMemory s t) ∧
  (∀ (s : State) (k : Nat) (m : Tile) (pid pid' : Nat) (u v : TileEnd) (p p' : Proc), s.tiles[k]? = some m →
    m.from_ = some (pid, u) → m.to_ = some (pid', v) → s.proc pid = some p → s.proc pid' = some p' → s.wf = true →
    s.waiters = [] → Spec.spaceOf u.area < 2 → Spec.spaceOf v.area < 2 →
    let src := Spec.windowPA s p (Spec.spaceOf u.area) u.ea.toNat
    let dst := Spec.windowPA s p' (Spec.spaceOf v.area) v.ea.toNat
    s.badWord src u.n = none → ∃ t, exec (.tileTransferComplete k) s = .next t ∧ t.read dst u.n = s.read src u.n ∧
      OnlyBytes s t dst u.n ∧ (∀ w ∈ wordsOf dst u.n, t.wordFull w = true) ∧ t.tiles = s.tiles.eraseIdx k) ∧
  (∀ (s : State) (i n : Nat) (p : Proc) (w : Wait) (c : Nat) (h : Word) (code : Nat), s.proc n = some p →
    p.st = .parked .channel w c → p.waitsOn = some (h, code) → code ≠ 0 → hIndex h = i → p.ops = [] → ∃ t q,
      exec (.endLost p.ctx i) s = .next t ∧ (t.chanEnd p.ctx i).sends = [] ∧ t.proc n = some q ∧
      q.wakeFault = some { cause := 34 } ∧ q.st = (if s.heldBack p then .suspended else .ready) ∧ SameMemory s t) ∧
  (∀ (s : State) (pid c : Nat) (p : Proc) (gs : List Guard), s.proc pid = some p → p.st = .parked .alt .alt c →
    p.alt = some gs → s.altReady p = true → ∃ t q, exec (.timeoutFiring pid) s = .next t ∧ t.proc pid = some q ∧
      q.st = (if s.heldBack p then .suspended else .ready) ∧ SameMemory s t ∧ OtherProcs s t [pid]) ∧
  (∀ (s : State) (core : Nat) (r : FRec) (o : Option Nat) (rest : List (FRec × Option Nat)),
    (s.core core).records = (r, o) :: rest → (s.core core).recFlight = 0 → s.earlierVersion r = false → (s.chan r.ctx 0).kind = 6 → (s.chan r.ctx 0).closed = false → ∃ t, exec (.faultRecordSend core) s = .next t ∧
      (t.core core).records = rest ∧ t.toMgmt = s.toMgmt ++ [((s.chan r.ctx 0).target, r)] ∧ SameMemory s t)

/-- R327 to R336: BINI, BARV, BADD, BAW, BWT and BGEN complete. BINI opens a barrier; BARV and BADD add to it, and complete
its generation with the last arrival, or send the core's arrival where it is bound to a group, and a BADD of zero does nothing;
BAW adds and waits, and writes the generation with which it wakes; BWT waits for a generation to pass; BGEN reads. -/
def Obligations.Barriers : Prop :=
  ∀ (x : Args) (s : State) (p : Proc), x.i = false → p.st = .running →
    let n := (p.scalar x.a.toNat).toNat
    let b := p.scalar x.b.toNat
    let c := p.scalar (cOf .modw x).toNat
    let old := s.bar p.core n
    n < 96 →
    (Ready eBini x s p → (old.owner = p.ctx ∨ old.state = 0) → old.state ≠ 2 → (old.state = 1 → old.count = 0) →
      let auto := (mN x).testBit 2
      let opened (m : Nat) (g : Option Nat) (k : Nat) : Barrier :=
        { gen := old.gen, state := 1, mode := m, auto := auto, owner := p.ctx, gv := g.isSome, group := g.getD 0, target := k }
      (mN x % 4 < 2 → b ≠ 0 → b.toNat < (if mN x % 4 = 0 then 2 ^ 32 else 2 ^ 40) → ∃ t, exec (.bini x) s = .next t ∧
        t.bar p.core n = opened (mN x % 4) none b.toNat ∧ t.proc s.cur = some (procAfter eBini x p fun q => q) ∧
        SameMemory s t ∧ OtherProcs s t [s.cur]) ∧
      (mN x % 4 = 2 → s.groupUsable p.ctx c = true → (s.group p.ctx c.toNat).has p.rank = true → ∃ t,
        exec (.bini x) s = .next t ∧ t.bar p.core n = opened 2 (some c.toNat) 1 ∧
        t.proc s.cur = some (procAfter eBini x p fun q => q) ∧ SameMemory s t ∧ OtherProcs s t [s.cur])) ∧
    (∀ r ∈ [(Instr.barv, eBarv, 1, (1 : Word)), (.badd, eBadd, b.toNat % 2 ^ 40, b)], Ready r.2.1 x s p → old.owner = p.ctx →
      old.state = 1 → old.mode = 0 → r.2.2.2 ≠ 0 → Spec.Quiet s p 2 →
      let by_ := r.2.2.1
      (old.count + by_ < old.target → ∃ t, exec (r.1 x) s = .next t ∧ t.bar p.core n = { old with count := old.count + by_ } ∧
        t.proc s.cur = some (procAfter r.2.1 x p fun q => q) ∧ SameMemory s t ∧ OtherProcs s t [s.cur]) ∧
      (old.count + by_ = old.target → ∃ t, exec (r.1 x) s = .next t ∧ t.bar p.core n = Spec.nextGen old ∧
        t.proc s.cur = some (procAfter r.2.1 x p fun q => q) ∧ SameMemory s t) ∧
      (old.target < old.count + by_ → exec (r.1 x) s = .next (s.deliver s.cur { cause := 37 } p.pc))) ∧
    (Ready eBadd x s p → old.owner = p.ctx → old.state ≠ 0 → old.mode < 2 → b = 0 →
      exec (.badd x) s = .next (s.after eBadd x p fun q => q)) ∧
    (Ready eBarv x s p → old.owner = p.ctx → old.state = 1 → old.mode = 2 → (s.group p.ctx old.group).has p.rank = true →
      Spec.Quiet s p 4 → ∃ t, exec (.barv x) s = .next t ∧ t.bar p.core n = { old with state := 2 } ∧
        t.gArrive = s.gArrive ++ [(p.ctx, old.group, n, p.core)] ∧ t.proc s.cur = some (procAfter eBarv x p fun q => q) ∧
        SameMemory s t ∧ OtherProcs s t [s.cur]) ∧
    (Ready eBaw x s p → p.phase = 0 → old.owner = p.ctx → old.state = 1 → old.mode = 0 → Spec.Quiet s p 2 → old.gen < 2 ^ 16 →
      (old.count + 1 = old.target → ∃ t, exec (.baw x) s = .next t ∧ t.bar p.core n = Spec.nextGen old ∧ t.proc s.cur =
        some (procAfter eBaw x p fun q => q.wrOp x.d.toNat (BitVec.ofNat 64 ((old.gen + 1) % 2 ^ 16))) ∧ SameMemory s t) ∧
      (old.count + 1 < old.target → p.packet = none → ∃ t q k, exec (.baw x) s = .next t ∧
        t.bar p.core n = { old with count := old.count + 1 } ∧ t.proc s.cur = some q ∧ q.pc = p.pc ∧
        q.st = .parked .barrier (.generation n old.gen) k ∧ SameMemory s t ∧ OtherProcs s t [s.cur])) ∧
    (Ready eBaw x s p → p.phase = 1 → old.gen ≠ p.seenGen → exec (.baw x) s = .next (s.after eBaw x p fun q =>
      q.wrOp x.d.toNat (BitVec.ofNat 64 old.gen))) ∧
    (Ready eBwt x s p →
      (old.gen ≠ b.toNat % 2 ^ 16 → exec (.bwt x) s = .next (s.after eBwt x p fun q =>
        q.wrOp x.d.toNat (BitVec.ofNat 64 old.gen))) ∧
      (old.gen = b.toNat % 2 ^ 16 → p.packet = none → ∃ t q k, exec (.bwt x) s = .next t ∧ t.proc s.cur = some q ∧
        q.pc = p.pc ∧ q.st = .parked .barrier (.generation n old.gen) k ∧ SameMemory s t ∧ OtherProcs s t [s.cur])) ∧
    (Ready eBgen x s p → exec (.bgen x) s = .next (s.after eBgen x p fun q =>
      q.wrOp x.d.toNat (BitVec.ofNat 64 (Spec.barWord old (mN x != 0)))))

/-- R205, R315 to R326: GSEND, GRED, GQRY, GSW and QPOST complete. GSEND of a member hands its packet to the Diffuser; GRED
contributes and parks, and writes the result with which it wakes; GQRY reads an entry; GSW of an entry with nothing under way
replaces its set; QPOST parks until the queue unit has answered, then puts its record into the queue and writes 1, and
QPOST.try of a full queue writes 0. -/
def Obligations.GroupsAndQueues : Prop :=
  ∀ (x : Args) (s : State) (p : Proc), x.i = false →
    let a := p.scalar x.a.toNat
    let b := p.scalar x.b.toNat
    let c := p.scalar (cOf .modw x).toNat
    let g := s.group p.ctx a.toNat
    let r := p.addr (x.b.toNat - 40)
    (Ready eGsend x s p → s.groupUsable p.ctx a = true → g.has p.rank = true →
      let n := c.toNat % 2 ^ 17
      let off := c.toNat / 2 ^ 40 % 2 ^ 23
      c.toNat / 2 ^ 17 % 2 ^ 23 = 0 → ((mN x).testBit 7 = true → mN x % 128 < 96) →
      (n = 0 → exec (.gsend x) s = .next (s.after eGsend x p fun q => q.wrOp x.d.toNat 0)) ∧
      (0 < n → n ≤ 65536 → n % 8 = 0 → off % 8 = 0 →
        off + n ≤ (if c.getLsbD 63 then (s.ctx p.ctx).slen else (s.ctx p.ctx).tlen) → Spec.spaceOf r < 2 →
        Spec.firstFault s p r (Spec.spaceOf r) r.ptr.toNat n 8 0x12 = none → p.cCopy < 65535 → ∃ t q k,
          exec (.gsend x) s = .next t ∧ t.gpackets = s.gpackets ++ [k] ∧ k.pid = s.cur ∧ k.entry = a.toNat ∧ k.count = n ∧
          k.off = off ∧ k.dsp = c.getLsbD 63 ∧ k.src = r.ptr.toNat ∧ k.bytes = none ∧ t.proc s.cur = some q ∧
          Spec.SameButOps (procAfter eGsend x p (Spec.copyStarted x)) q ∧ SameMemory s t ∧ OtherProcs s t [s.cur])) ∧
    (∀ v, Ready eGred x s p → p.wakeVal = some v →
      exec (.gred x) s = .next (s.after eGred x p fun q => q.wrOp x.d.toNat v)) ∧
    (Ready eGred x s p → p.wakeVal = none → p.packet = none → s.groupUsable p.ctx a = true → g.has p.rank = true →
      Spec.Quiet s p 3 → ∃ t q key i k, exec (.gred x) s = .next t ∧ t.proc s.cur = some q ∧ q.pc = p.pc ∧
        q.st = .parked .memoryServer (.collective a.toNat i) k ∧ key.op = mN x % 8 ∧ key.ty = tyN x ∧
        t.gContrib = s.gContrib ++ [(p.ctx, a.toNat, i, key, ⟨s.cur, p.rank, b⟩)] ∧ SameMemory s t ∧ OtherProcs s t [s.cur]) ∧
    (Ready eGqry x s p → a.toNat < 256 →
      (mN x = 2 → exec (.gqry x) s = .next (s.after eGqry x p fun q =>
        q.wrOp x.d.toNat (BitVec.ofNat 64 (g.first * 2 ^ 32 + g.stride)))) ∧
      (mN x = 3 → exec (.gqry x) s = .next (s.after eGqry x p fun q =>
        q.wrOp x.d.toNat (BitVec.ofNat 64 (g.state * 2 ^ 62 + g.kslot * 2 ^ 48 + g.gen * 2 ^ 32 + g.count)))) ∧
      (mN x = 1 → 2 ≤ g.state → b.toNat < g.count → exec (.gqry x) s = .next (s.after eGqry x p fun q =>
        q.wrOp x.d.toNat (BitVec.ofNat 64 (g.first + b.toNat * g.stride))))) ∧
    (Ready eGsw x s p → p.phase = 0 → s.groupUsable p.ctx a = true → g.state = 2 → g.draining = 0 → Spec.Quiet s p 3 →
      s.legalSet p.ctx a.toNat (b.toNat / 2 ^ 32) (b.toNat % 2 ^ 32) (c.toNat % 2 ^ 32) = true → ∃ t,
        exec (.gsw x) s = .next t ∧ t.group p.ctx a.toNat =
          { g with first := b.toNat / 2 ^ 32, stride := b.toNat % 2 ^ 32, count := c.toNat % 2 ^ 32, gen := (g.gen + 1) % 2 ^ 16 } ∧
        t.proc s.cur = some (procAfter eGsw x p fun q => q) ∧ SameMemory s t ∧ OtherProcs s t [s.cur]) ∧
    (Ready eGsw x s p → p.phase = 1 → exec (.gsw x) s = .next (s.after eGsw x p fun q => q)) ∧
    (Ready eQpost x s p → s.hcheck p.ctx p.rank a false [3] [4] = none → p.packet = none → Spec.Quiet s p 4 →
      let pa := Spec.windowPA s p 0 r.ptr.toNat
      let rec_ : List Word := (List.range 8).map fun i => BitVec.ofNat 64 (s.readNat (pa + 8 * i) 8)
      let n := (s.chan p.ctx (hIndex a)).target
      let q0 := s.queue n
      Spec.firstFault s p r 0 r.ptr.toNat 64 8 0x10 = none → s.badWord pa 64 = none → (rec_.getD 0 0).getLsbD 55 = false →
      (p.phase ≠ 1 → Spec.Asks (exec (.qpost x) s) s p) ∧
      (p.phase = 1 → q0.en = true → q0.closed = false → q0.ctx = p.ctx →
      (q0.recs.length < 16 + q0.quota → ∃ t, exec (.qpost x) s = .next t ∧ (t.queue n).recs = q0.recs ++ [rec_] ∧
        t.proc s.cur = some (procAfter eQpost x p fun q => q.wrOp x.d.toNat 1) ∧ SameMemory s t ∧ OtherProcs s t [s.cur]) ∧
      (16 + q0.quota ≤ q0.recs.length → (mN x).testBit 0 = true →
        exec (.qpost x) s = .next (s.after eQpost x p fun q => q.wrOp x.d.toNat 0))))

/-- R318, R320, R324, R329, R332: the events of the Diffuser and of the combining point complete. A packet's source is read as it is
accepted; a copy lands at its core and the last ends the packet; a contribution joins its instance, and the last gives every
member the result, formed in the tree of R49 over the group ranks, or fault 40 where the keys differ; a group whose old set has drained is active; the last arrival sends completion to each core of the
generation, and completion advances the core's barrier. -/
def Obligations.GroupEvents : Prop :=
  (∀ (s : State) (k : GPacket) (rest : List GPacket) (p : Proc), s.gpackets = k :: rest → k.bytes = none →
    s.proc k.pid = some p → Spec.ctxSt s k.ctx ≠ .draining → (s.core p.core).sb = [] → p.ops = [] →
    s.tileStoresBefore k.pid p.core k.tok = false → k.space < 2 → (s.ctx k.ctx).lkHard = true ∨ (∀ d, s.lkOut d k.ctx = false) →
    let src := Spec.windowAt s p.core k.ctx k.space k.src
    s.badWord src k.count = none → ∃ t q, exec (.diffuserPacketAccept 0) s = .next t ∧ t.gpackets = q :: rest ∧
      q.bytes = some (s.read src k.count) ∧ q.tok = k.tok ∧ q.first = (s.group k.ctx k.entry).first ∧
      q.stride = (s.group k.ctx k.entry).stride ∧ q.members = (s.group k.ctx k.entry).count ∧ SameMemory s t) ∧
  (∀ (s : State) (k : GPacket) (rest : List GPacket) (bs : List Byte) (core : Nat) (p : Proc) (o : Op),
    s.gpackets = k :: rest → (∀ q ∈ rest, q.tok ≠ k.tok) →
    k.bytes = some bs → k.targets = [core] → k.dies = [] → k.far = 0 → k.home = none → k.dsp = false → k.bar = none → bs.length = k.count → k.fails = [] →
    k.off + k.count ≤ (s.ctx k.ctx).tlen → s.wf = true → s.proc k.pid = some p → tblGet p.ops k.tok = some o →
    let dst := Spec.windowAt s core k.ctx 0 k.off
    ∃ t q, exec (.gsendCopyLand 0) s = .next t ∧ t.read dst k.count = bs ∧ OnlyBytes s t dst k.count ∧ t.gpackets = rest ∧
      t.proc k.pid = some q ∧ q.cCopy = p.cCopy - 1 ∧ Spec.Landed q o.dest (BitVec.ofNat 64 (k.count % 2 ^ 40))) ∧
  (∀ (s : State) (i ctx entry n since : Nat) (key : RedKey) (c : Contrib) (p : Proc) (r : Reason),
    s.gContrib[i]? = some (ctx, entry, n, key, c) → Spec.ctxSt s ctx ≠ .draining → (s.ctx ctx).colls = [] → (s.group ctx entry).count = 1 →
    (s.group ctx entry).first = c.rank → s.proc c.pid = some p → p.st = .parked r (.collective entry n) since → key.ty < 8 →
    ∃ t q, exec (.gredContributionArrival i) s = .next t ∧ t.gContrib = s.gContrib.eraseIdx i ∧ t.proc c.pid = some q ∧
      q.wakeVal = some (extTy key.ty (c.value.toNat % 2 ^ tyWidth key.ty)) ∧
      q.st = (if s.heldBack p then .suspended else .ready) ∧ (t.ctx ctx).colls = [] ∧ SameMemory s t) ∧
  (∀ (s : State) (i ctx entry n : Nat) (key : RedKey) (c : Contrib) (c0 : Collective),
    s.gContrib[i]? = some (ctx, entry, n, key, c) → Spec.ctxSt s ctx ≠ .draining → (s.ctx ctx).peers = [] → (s.ctx ctx).colls = [c0] →
    c0.entry = entry → c0.index = n →
    let all := c0.parts ++ [c]
    let ranks := memberRanks c0.first c0.stride c0.count
    ((∃ r ∈ ranks, ∀ m ∈ all, m.rank ≠ r) → ∃ t, exec (.gredContributionArrival i) s = .next t ∧
      (t.ctx ctx).colls = [{ c0 with parts := all, mismatch := c0.mismatch || c0.key != key }] ∧ t.gContrib = s.gContrib.eraseIdx i ∧
      t.procs = s.procs ∧ SameMemory s t) ∧
    (2 ≤ c0.count → (∀ r ∈ ranks, ∃ m ∈ all, m.rank = r) → (all.map (·.pid)).Nodup → c0.key = key →
      let w := tyWidth key.ty
      let r := treeReduce (combine key.op key.ty key.rm key.payl) 25
        (ranks.map fun r => (all.find? fun m => m.rank == r).map fun m => m.value.toNat % 2 ^ w)
      ∃ t, exec (.gredContributionArrival i) s = .next t ∧ (t.ctx ctx).colls = [] ∧ t.gContrib = s.gContrib.eraseIdx i ∧ SameMemory s t ∧
        ∀ m ∈ all, ∀ p why since, s.proc m.pid = some p → p.st = .parked why (.collective entry n) since → ∃ q,
          t.proc m.pid = some q ∧ q.st = (if s.heldBack p then .suspended else .ready) ∧
          (c0.mismatch = true → q.wakeFault = some { cause := 40 }) ∧
          (c0.mismatch = false → q.fpc = (p.raiseFlags r.2).fpc ∧ (∀ k, trapCause p.fpc r.2 = some k → q.wakeFault = some { cause := k }) ∧
            (trapCause p.fpc r.2 = none → q.wakeVal = some
              (if key.ty < 8 then extTy key.ty (r.1.getD 0) else BitVec.ofNat 64 (r.1.getD 0)))))) ∧
  (∀ (s : State) (ctx entry : Nat), (s.group ctx entry).state = 3 → (s.ctx ctx).colls = [] → s.gpackets = [] → ∃ t,
    exec (.gswDrainComplete ctx entry) s = .next t ∧ (t.group ctx entry).state = 2 ∧ SameMemory s t) ∧
  (∀ (s : State) (i ctx entry b core : Nat) (cores got : List Nat), s.gArrive[i]? = some (ctx, entry, b, core) →
    s.combinesHere ctx = true → tblGet (s.ctx ctx).gbars (256 * b + entry) = some (cores, got) →
    (∀ c ∈ cores, c = core ∨ c ∈ got) → ∃ t, exec (.groupBarrierArrival i) s = .next t ∧
      t.gDone = s.gDone ++ cores.map (fun c => (ctx, entry, b, c)) ∧ t.gArrive = s.gArrive.eraseIdx i ∧ SameMemory s t) ∧
  (∀ (s : State) (i ctx entry b core : Nat), s.gDone[i]? = some (ctx, entry, b, core) → core < 2048 → (s.bar core b).state = 2 → ∃ t,
    exec (.groupBarrierCompletion i) s = .next t ∧ t.gDone = s.gDone.eraseIdx i ∧
      t.bar core b = Spec.nextGen (s.bar core b) ∧ SameMemory s t)

/-- R270, R273, R274, R277: VLDL, VLDC, VGAT, VSTL, VSTC and VSCA complete: a vector load of LOCAL or CLUSTER memory gives
each active lane the bytes at its address, and a store writes them in lane order; no other lane, byte, full bit or process
changes. The lowest active lane, of a load or of a store, that a check of R126 refuses delivers that check's cause with
its address, and nothing is stored. Under .f each element is converted between its format and TY, its conditions joining
CR.FPC. -/
def Obligations.VectorMemory : Prop :=
  ∀ (x : Args) (s : State) (p : Proc) (sp : Nat), x.i = false → sp < 2 → Spec.spaceOf (Spec.srcA x p) = sp →
    let n := Spec.size x
    let acts := Spec.activeOf x p (mO x)
    let act := Spec.on p (mO x % 8)
    let zm := (mO x).testBit 3
    let old := p.vec x.d.toNat
    let ea := (Spec.ea x p).toNat
    let mode := modeOf (rndOf .offset x).toNat p.fpc
    (∀ r ∈ Spec.vecLoadRows sp, Ready r.2.1 x s p → (mO x).testBit 4 = false →
      let pa (j : Nat) := Spec.windowPA s p r.2.2.1 (r.2.2.2 x p j).toNat
      let fault (j : Nat) := Spec.firstFault s p (Spec.srcA x p) r.2.2.1 (r.2.2.2 x p j).toNat n n 0x10
      (∀ j ∈ acts, 0 ≤ r.2.2.2 x p j) →
      ((∀ j ∈ acts, fault j = none ∧ s.badWord (pa j) n = none) → ∃ v, exec (r.1 x) s = .next (s.after r.2.1 x p fun q =>
          q.setVec x.d.toNat v) ∧ Spec.Merged x act zm old v fun j => s.readNat (pa j) n) ∧
      (∀ j c, j ∈ acts → fault j = some c → (∀ i ∈ acts, i < j → fault i = none) →
        exec (r.1 x) s = .next (s.deliver s.cur { cause := c, faddr := BitVec.ofInt 64 (r.2.2.2 x p j) } p.pc))) ∧
    (∀ r ∈ Spec.vecStoreRows sp, Ready r.2.1 x s p → (mO x).testBit 4 = false →
      let pa (j : Nat) := Spec.windowPA s p r.2.2.1 (r.2.2.2 x p j).toNat
      let fault (j : Nat) := Spec.firstFault s p (Spec.srcA x p) r.2.2.1 (r.2.2.2 x p j).toNat n n 0x08
      (∀ j ∈ acts, 0 ≤ r.2.2.2 x p j) →
      ((∀ j ∈ acts, fault j = none) → ∃ t, exec (r.1 x) s = .next t ∧
        t.mem = acts.foldl (fun m j => memWrite m (pa j) (natBytes n (Spec.lane x p x.d j).toNat)) s.mem ∧ t.empty = s.empty ∧
        t.proc s.cur = some (procAfter r.2.1 x p fun q => q) ∧ OtherProcs s t [s.cur]) ∧
      (∀ j c, j ∈ acts → fault j = some c → (∀ i ∈ acts, i < j → fault i = none) →
        exec (r.1 x) s = .next (s.deliver s.cur { cause := c, faddr := BitVec.ofInt 64 (r.2.2.2 x p j) } p.pc))) ∧
    (∀ (g : FmtRegion) (con : Args → Instr) (e : Entry), (sp = 0 ∧ con = Instr.vldl ∧ e = eVldl) ∨
        (sp = 1 ∧ con = Instr.vldc ∧ e = eVldc) → Ready e x s p → (mO x).testBit 4 = true → ea % 8 = 0 →
      s.findRegion p sp ea {} (fun r => acts.map fun j => (ea + (Spec.place r.fmt j).1, (Spec.place r.fmt j).2.1)) = .region g →
      dotfOk false (tyN x) g.fmt = true →
      let pa (j : Nat) := Spec.windowPA s p sp (ea + (Spec.place g.fmt j).1)
      let k (j : Nat) := (Spec.place g.fmt j).2.1
      let sub (j : Nat) := (Spec.place g.fmt j).2.2
      let raw (j : Nat) := s.readNat (pa j) (k j)
      let scale (j : Nat) : Option Nat :=
        if scaledFmt g.fmt then g.scaleAt (g.pos (ea + (Spec.place g.fmt j).1) + sub j) else none
      let value (j : Nat) : FVal := if g.fmt = 11 then vqWeight (s.vqEntry p) (raw j) (sub j)
        else (elemFmt g.fmt).value (raw j / 16 ^ sub j)
      let res (j : Nat) : FRes := (elemTy (tyN x)).encode (decide (g.fmt = 9 ∨ g.fmt = 10)) mode (fpcPayl p.fpc) false 0
        (if scaledFmt g.fmt then (value j).scaled ((scale j).elim 127 fun a => s.readNat (Spec.windowPA s p sp a) 1) else value j)
      (∀ j ∈ acts, Spec.firstFault s p (Spec.srcA x p) sp (ea + (Spec.place g.fmt j).1) (k j) 0 0x10 = none ∧
        s.badWord (pa j) (k j) = none) →
      (∀ j ∈ acts, ∀ a, scale j = some a → a < Spec.windowLen s p sp ∧ s.badWord (Spec.windowPA s p sp a) 1 = none) →
      (g.fmt = 11 → s.vqFault p (acts.map fun j => raw j / 256 % 256) = none) →
      let c := Spec.orAll (acts.map fun j => (res j).c)
      Spec.NoTrap p c → ∃ v, exec (con x) s = .next (s.after e x p fun q => (Spec.flagged q c).setVec x.d.toNat v) ∧
        Spec.Merged x act zm old v fun j => (res j).bits) ∧
    (∀ (g : FmtRegion) (con : Args → Instr) (e : Entry), (sp = 0 ∧ con = Instr.vstl ∧ e = eVstl) ∨
        (sp = 1 ∧ con = Instr.vstc ∧ e = eVstc) → Ready e x s p → (mO x).testBit 4 = true → ea % 8 = 0 →
      s.findRegion p sp ea {} (fun r => acts.map fun j => (ea + (Spec.place r.fmt j).1, (Spec.place r.fmt j).2.1)) = .region g →
      dotfOk true (tyN x) g.fmt = true →
      let pa (j : Nat) := Spec.windowPA s p sp (ea + (Spec.place g.fmt j).1)
      let k := fmtWidth g.fmt / 8
      let res (j : Nat) : FRes := (elemFmt g.fmt).encode (isIntTy x) mode (fpcPayl p.fpc) false 0
        ((elemTy (tyN x)).value (Spec.lane x p x.d j).toNat)
      (∀ j ∈ acts, Spec.firstFault s p (Spec.srcA x p) sp (ea + (Spec.place g.fmt j).1) k 0 0x08 = none) →
      let c := Spec.orAll (acts.map fun j => (res j).c)
      Spec.NoTrap p c → ∃ t, exec (con x) s = .next t ∧
        t.mem = acts.foldl (fun m j => memWrite m (pa j) (natBytes k (res j).bits)) s.mem ∧ t.empty = s.empty ∧
        t.proc s.cur = some (procAfter e x p fun q => Spec.flagged q c) ∧ OtherProcs s t [s.cur])

/-- R273, R275, R277: VLDG and VSTG complete: a GLOBAL vector load whose lanes the die translates reads their bytes where
the store buffer holds nothing and L1 or the instruction holds every line; a contiguous GLOBAL store takes store-buffer
entries, at most one for each active lane, that hold every active lane's bytes, and raises the store counter by their
number; memory does not change yet. A gather or scatter of the REMOTE space delivers fault 15. -/
def Obligations.VectorGlobal : Prop :=
  ∀ (x : Args) (s : State) (p : Proc) (pc : Nat → Piece), x.i = false → (mO x).testBit 4 = false →
    let n := Spec.size x
    let acts := Spec.activeOf x p (mO x)
    (∀ j ∈ acts, 0 ≤ Spec.vecAt x p j) →
    (Ready eVldg x s p → (s.core p.core).sb = [] →
      (∀ j ∈ acts, s.check p.ctx p.core p.priv (Spec.srcA x p) (Spec.vecAt x p j).toNat n 2 0x10 n { rd := true } = .ok [pc j] ∧
        s.badPiece [pc j] = none ∧ ∀ l ∈ unitsOf 64 (pc j).pa n, (pc j).l1 = true ∧ nsHas (s.core p.core).l1 l = true ∨
          l ∈ p.granted) → ∃ v, exec (.vldg x) s = .next (s.after eVldg x p fun q => q.setVec x.d.toNat v) ∧
        Spec.Merged x (Spec.on p (mO x % 8)) ((mO x).testBit 3) (p.vec x.d.toNat) v fun j => s.readNat (pc j).pa n) ∧
    (Ready eVstg x s p → x.b = 56 → (s.core p.core).sb.length + acts.length ≤ 16 → p.cStore + acts.length ≤ 65535 →
      (∀ j ∈ acts, s.check p.ctx p.core p.priv (Spec.srcA x p) (Spec.vecAt x p j).toNat n 2 0x08 n { wr := true } = .ok [pc j]) →
      ∃ t ens, exec (.vstg x) s = .next t ∧ (t.core p.core).sb = (s.core p.core).sb ++ ens ∧ ens.length ≤ acts.length ∧
        (∀ en ∈ ens, en.pid = s.cur ∧ en.ctx = p.ctx) ∧
        (∀ j ∈ acts, ∃ en ∈ ens, ∃ q ∈ en.what.stores, covers q.1 q.2 (Spec.vecAt x p j).toNat n = true ∧
          (q.2.drop ((Spec.vecAt x p j).toNat - q.1)).take n = natBytes n (Spec.lane x p x.d j).toNat) ∧
        t.proc s.cur = some (procAfter eVstg x p fun q => { q with cStore := q.cStore + ens.length }) ∧
        SameMemory s t ∧ OtherProcs s t [s.cur]) ∧
    (∀ r ∈ [(Instr.vgat, eVgat), (.vsca, eVsca)], Ready r.2 x s p → Spec.spaceOf (Spec.srcA x p) = 3 →
      exec (r.1 x) s = .next (s.deliver s.cur { cause := 15, faddr := Spec.ea x p } p.pc))

/-- R42, R270, R278 to R282, R286 to R288: VADD, VSUB, VMUL, VFMA, VDIV, VSQRT, VMIN, VMAX, VABS, VNEG, VSEL, VAND, VOR,
VXOR, VSHL, VSHR, VSRA, VPRM, VSHF, VEXP, VLOG, VSIN, VCOS, VTANH, VERF, VRSQ and VRCP complete in every state whose
CR.FPC enables no trap, and in every other where no condition that arises is enabled: each active lane of D takes its
lane's result, the conditions of the active lanes joining CR.FPC; an inactive lane keeps its value, or is zero under .zm.
Where a condition that arose is enabled, the lowest of causes 9 to 12 is delivered and D is not written. -/
def Obligations.VectorLanes : Prop :=
  ∀ r ∈ Spec.vecRows, ∀ (x : Args) (s : State) (p : Proc), Ready r.2.1 x s p → r.2.2.1 (tyN x) = true →
    let res := r.2.2.2 x (Spec.vIn r.2.1 x s p)
    let c := Spec.orAll ((Spec.activeOf x p (mN x)).map fun j => (res j).c)
    (Spec.NoTrap p c → ∃ v, exec (r.1 x) s = .next (s.after r.2.1 x p fun q => (Spec.flagged q c).setVec x.d.toNat v) ∧
      Spec.Merged x (Spec.on p (mN x % 8)) ((mN x).testBit 3) (p.vec x.d.toNat) v fun j => (res j).bits) ∧
    (∀ k, trapCause p.fpc c = some k → exec (r.1 x) s = .next ((s.withCur (Spec.flagged p c)).deliver s.cur { cause := k } p.pc))

/-- R55, R280, R285, R287, R289 to R293: VCMP, VCLS, VBC, VRED, VEXT, VINS, VRNG, VSCL and VQDC complete. VCMP and VCLS
write the mask D; VBC fills lanes from A; VRED reduces the active lanes of integers, and of floating values in the tree of
R49; VEXT and VINS read and write one lane, and deliver fault 14 where it does not exist; VRNG writes KMX of consecutive
counters, and its wrap traps under CR.RNGCTL; VSCL writes the scales of its blocks; VQDC decodes weights. -/
def Obligations.VectorOthers : Prop :=
  ∀ (x : Args) (s : State) (p : Proc),
    let act := Spec.on p (mN x % 8)
    let acts := Spec.activeOf x p (mN x)
    let zm := (mN x).testBit 3
    let f := fmtTy (tyN x)
    let mode := modeOf (rndOf .modw x).toNat p.fpc
    let b := p.scalar x.b.toNat
    let old := p.vec x.d.toNat
    let A := Spec.lane x p x.a
    (Ready eVcmp x s p → tyN x < 8 → ∃ v, exec (.vcmp x) s = .next (s.after eVcmp x p fun q => q.setMask x.d.toNat v) ∧
      ∀ rel : Nat → Bool, (∀ j, rel j = true ↔ Spec.relation (mN x / 16 % 8) (Spec.exact x (A j))
        (Spec.exact x (Spec.laneB eVcmp x s p j))) → Spec.MaskIs x act zm (p.mask x.d.toNat) v rel) ∧
    (Ready eVcmp x s p → 8 ≤ tyN x →
      let res (j : Nat) := fltRel (mN x / 16 % 8) (f.decode (A j).toNat) (f.decode (Spec.laneB eVcmp x s p j).toNat)
      let c := Spec.orAll (acts.map fun j => (res j).2)
      Spec.NoTrap p c → ∃ v, exec (.vcmp x) s = .next (s.after eVcmp x p fun q => (Spec.flagged q c).setMask x.d.toNat v) ∧
        Spec.MaskIs x act zm (p.mask x.d.toNat) v fun j => (res j).1) ∧
    (Ready eVcls x s p → x.i = false → ∃ v, exec (.vcls x) s = .next (s.after eVcls x p fun q => q.setMask x.d.toNat v) ∧
      Spec.MaskIs x act zm (p.mask x.d.toNat) v fun j => (f.classify (A j).toNat &&& b.toNat) % 1024 != 0) ∧
    (Ready eVbc x s p → ∃ v, exec (.vbc x) s = .next (s.after eVbc x p fun q => q.setVec x.d.toNat v) ∧
      Spec.Merged x act zm old v fun _ => (p.scalar x.a.toNat).toNat) ∧
    (Ready eVred x s p → tyN x < 8 →
      (mN x / 16 % 4 = 0 → exec (.vred x) s = .next (s.after eVred x p fun q => q.wrOp x.d.toNat
        (Spec.widen x (acts.foldl (fun t j => t + A j) 0)))) ∧
      (∀ j ∈ acts, mN x / 16 % 4 = 1 → (∀ i ∈ acts, Spec.exact x (A j) ≤ Spec.exact x (A i)) →
        exec (.vred x) s = .next (s.after eVred x p fun q => q.wrOp x.d.toNat (Spec.widen x (A j)))) ∧
      (∀ j ∈ acts, mN x / 16 % 4 = 2 → (∀ i ∈ acts, Spec.exact x (A i) ≤ Spec.exact x (A j)) →
        exec (.vred x) s = .next (s.after eVred x p fun q => q.wrOp x.d.toNat (Spec.widen x (A j))))) ∧
    (Ready eVred x s p → 8 ≤ tyN x →
      let t := treeReduce (combine (mN x / 16 % 4) (tyN x) mode (fpcPayl p.fpc)) 8
        ((List.range (Spec.lanes x)).map fun j => if act j then some (A j).toNat else none)
      Spec.NoTrap p t.2 → exec (.vred x) s = .next (s.after eVred x p fun q => (Spec.flagged q t.2).wrOp x.d.toNat
          (BitVec.ofNat 64 (t.1.getD (if mN x / 16 % 4 = 0 then 0 else f.qnan))))) ∧
    (x.i = false → b.toNat < Spec.lanes x →
      (Ready eVext x s p → exec (.vext x) s = .next (s.after eVext x p fun q => q.wrOp x.d.toNat
        (if tyN x < 4 then (A b.toNat).signExtend 64 else (A b.toNat).setWidth 64))) ∧
      (Ready eVins x s p → ∃ v, exec (.vins x) s = .next (s.after eVins x p fun q => q.setVec x.d.toNat v) ∧
        Spec.Merged x (fun j => act j && j == b.toNat) false old v fun _ => (p.scalar x.a.toNat).toNat)) ∧
    (∀ r ∈ [(Instr.vext, eVext), (.vins, eVins)], Ready r.2 x s p → x.i = false → Spec.lanes x ≤ b.toNat →
      exec (r.1 x) s = .next (s.deliver s.cur { cause := 14, faddr := b } p.pc)) ∧
    (Ready eVrng x s p → x.i = false → tyN x = 5 →
      let c := p.scalar (cOf .modw x).toNat
      let wraps := ∃ j ∈ acts, 2 ^ 64 ≤ c.toNat + j
      (¬ (wraps ∧ p.rngctl.getLsbD 0 = true) → ∃ v, exec (.vrng x) s = .next (s.after eVrng x p fun q => q.setVec x.d.toNat v) ∧
        Spec.Merged x act zm old v fun j => (kmx (p.scalar x.a.toNat) (b.setWidth 32) (c + BitVec.ofNat 64 j)).toNat) ∧
      (wraps ∧ p.rngctl.getLsbD 0 = true → exec (.vrng x) s = .next (s.deliver s.cur { cause := 56 } p.pc))) ∧
    (Ready eVscl x s p → 8 ≤ tyN x → ∃ v : Word, exec (.vscl x) s = .next (s.after eVscl x p fun q => q.wrOp x.d.toNat v) ∧
      ∀ g < 8, v.extractLsb' (8 * g) 8 = if 16 * g < Spec.lanes x then BitVec.ofNat 8 (scaleField (fmtOf (mN x / 16 % 16))
        ((Spec.blockLanes x p g).map fun j => f.decode (A j).toNat)) else 0) ∧
    (Ready eVqdc x s p → x.i = false → 8 ≤ tyN x →
      let index (i : Nat) : Nat := ((p.vec x.a.toNat).extractLsb' (16 * (mN x / 16 % 64 + i / 8)) 16).toNat
      let res (i : Nat) : FRes := (Elem.flt f).encode false mode (fpcPayl p.fpc) false 0
        ((vqWeight (s.vqEntry p) (index i) (i % 8)).scaled (b.extractLsb' (8 * (i / 32)) 8).toNat)
      let c := Spec.orAll (acts.map fun j => (res j).c)
      s.vqFault p (acts.map fun i => index i / 256) = none → Spec.NoTrap p c → ∃ v,
        exec (.vqdc x) s = .next (s.after eVqdc x p fun q => (Spec.flagged q c).setVec x.d.toNat v) ∧
        Spec.Merged x act zm old v fun j => (res j).bits)

/-- R283, R284, R291: VCVT, KAND, KOR, KXOR, KNOT, KPOP and KMOV complete. VCVT converts N elements, element `j` in lane
`j` on the wider side and in lane P·N + `j` on the narrower, and leaves every other lane of D; mask instructions write
their registers, and k0 reads as all ones. -/
def Obligations.ConversionsAndMasks : Prop :=
  ∀ (x : Args) (s : State) (p : Proc),
    (Ready eVcvt x s p → x.i = false →
      let m := mN x
      let g := m / 16 % 16
      let out := m.testBit 3
      let ws := if out then Spec.width x else fmtWidth g
      let wd := if out then fmtWidth g else Spec.width x
      let n := 1024 / max ws wd
      let base := m / 256 % 8 * n
      let tyS := decide (tyN x = 12 ∨ tyN x = 13)
      let fmS := decide (4 ≤ g ∧ g ≤ 8)
      let random (j : Nat) := ((p.vec (x.b.toNat + j / 32)).extractLsb' (32 * (j % 32)) 32).toNat
      let scale (j : Nat) := if cOf .modw x = 56 then 127 else (p.scalar (cOf .modw x).toNat).toNat / 256 ^ (j / 16) % 256
      let mode := if (rndOf .modw x).toNat = 5 then 5 else modeOf (rndOf .modw x).toNat p.fpc
      let conv (j : Nat) : FRes :=
        convElem (if out then elemTy (tyN x) else elemFmt g) (if out then elemFmt g else elemTy (tyN x))
          (if out then tyS else fmS) (if out then fmS else tyS) mode (fpcPayl p.fpc) (scale j) (random j)
          ((p.vec x.a.toNat).extractLsb' (ws * (if ws < wd then base + j else j)) ws).toNat
      let at_ (j : Nat) := if wd < ws then base + j else j
      let acts := (List.range n).filter (Spec.on p (m % 8))
      let c := Spec.orAll (acts.map fun j => (conv j).c)
      g < 12 → wd ∈ [4, 8, 16, 32, 64] → at_ n ≤ 1024 / wd → Spec.NoTrap p c → ∃ v,
        exec (.vcvt x) s = .next (s.after eVcvt x p fun q => (Spec.flagged q c).setVec x.d.toNat v) ∧
        (∀ j ∈ acts, v.extractLsb' (wd * at_ j) wd = BitVec.ofNat wd (conv j).bits) ∧
        (∀ l < 1024 / wd, (∀ j ∈ acts, l ≠ at_ j) → v.extractLsb' (wd * l) wd = (p.vec x.d.toNat).extractLsb' (wd * l) wd)) ∧
    (∀ r ∈ Spec.maskRows, Ready r.2.1 x s p → exec (r.1 x) s = .next (s.after r.2.1 x p fun q =>
      q.setMask x.d.toNat (r.2.2 (p.mask x.a.toNat) (p.mask x.b.toNat)))) ∧
    (Ready eKpop x s p → exec (.kpop x) s = .next (s.after eKpop x p fun q => q.wrOp x.d.toNat
      (BitVec.ofNat 64 ((List.range (Spec.lanes x)).countP fun j => (p.mask x.a.toNat).getLsbD j)))) ∧
    (Ready eKmov x s p →
      let hi := (mN x).testBit 5
      ((mN x).testBit 4 = true → exec (.kmov x) s = .next (s.after eKmov x p fun q => q.wrOp x.d.toNat
        ((p.mask x.a.toNat).extractLsb' (if hi then 64 else 0) 64))) ∧
      ((mN x).testBit 4 = false → exec (.kmov x) s = .next (s.after eKmov x p fun q => q.setMask x.d.toNat
        (if hi then p.scalar x.a.toNat ++ (p.mask x.d.toNat).setWidth 64
         else (p.mask x.d.toNat).extractLsb' 64 64 ++ p.scalar x.a.toNat)))) ∧
    p.mask 0 = BitVec.allOnes 128 ∧ ∀ v, p.setMask 0 v = p

/-- R51, R52, R307 to R314: TCFG, TZR, TRD, TWR, TXP, TCVT, TBS, XACC and XRD complete. TCFG writes a tag and keeps the
bytes; TZR clears; TRD and TWR move 128 bytes, and deliver fault 14 where they do not exist; TXP transposes blocks; TCVT
converts an accumulator into a buffer; TBS gives the pairs of eight blocks; XACC adds pairs to an exact accumulator, and
XRD reads it rounded, its state, or a word. -/
def Obligations.TileRegisters : Prop :=
  ∀ (x : Args) (s : State) (p : Proc),
    let d := x.d.toNat
    let y := p.ybuf x.a.toNat
    let f := tyN x
    let b := (p.scalar x.b.toNat).toNat
    let c := (cOf .modw x).toNat
    let mode := modeOf (rndOf .modw x).toNat p.fpc
    (Ready eTcfg x s p → exec (.tcfg x) s = .next (s.after eTcfg x p fun q =>
      q.setY d { data := (q.ybuf d).data, fmt := f, blk := if f = 11 then 1 else mN x })) ∧
    (Ready eTzr x s p →
      (mN x = 0 → exec (.tzr x) s = .next (s.after eTzr x p fun q => q.setZ d 0)) ∧
      (mN x = 1 → exec (.tzr x) s = .next (s.after eTzr x p fun q => { q with x := tblSet q.x d {} })) ∧
      (mN x = 2 → exec (.tzr x) s = .next (s.after eTzr x p fun q => q.setY d { q.ybuf d with data := 0 }))) ∧
    (x.i = false →
      let isY := (mN x).testBit 0
      let n := if isY then 16 else 32
      (Ready eTrd x s p → b < n → exec (.trd x) s = .next (s.after eTrd x p fun q => q.setVec d
        (if isY then y.data.extractLsb' (1024 * b) 1024 else (p.zreg x.a.toNat).extractLsb' (1024 * b) 1024))) ∧
      (Ready eTwr x s p → b < n → ∃ (v : BitVec 16384) (w : BitVec 32768), exec (.twr x) s = .next (s.after eTwr x p fun q =>
          if isY then q.setY d { q.ybuf d with data := v } else q.setZ d w) ∧
        (∀ k < 16, v.extractLsb' (1024 * k) 1024 =
          if k = b then p.vec x.a.toNat else (p.ybuf d).data.extractLsb' (1024 * k) 1024) ∧
        (∀ k < 32, w.extractLsb' (1024 * k) 1024 =
          if k = b then p.vec x.a.toNat else (p.zreg d).extractLsb' (1024 * k) 1024)) ∧
      (∀ r ∈ [(Instr.trd, eTrd), (.twr, eTwr)], Ready r.2 x s p → n ≤ b →
        exec (r.1 x) s = .next (s.deliver s.cur { cause := 14, faddr := p.scalar x.b.toNat } p.pc))) ∧
    (Ready eTxp x s p →
      (y.fmt ≠ f ∨ f = 1 ∨ f = 11 → exec (.txp x) s = .next (s.deliver s.cur { cause := 23 } p.pc)) ∧
      (y.fmt = f → f ≠ 1 → f < 11 → ∃ v : YBuf, exec (.txp x) s = .next (s.after eTxp x p fun q => q.setY d v) ∧
        v.fmt = f ∧ v.blk = y.blk ∧ ∀ i < tileRows f, ∀ j < tileCols f,
          let side := tileRows f
          let src := y.raw f (j % side) (j / side * side + i)
          v.raw f i j = if f = 6 ∨ f = 7 then src % 64 else src)) ∧
    (Ready eTcvt x s p → 2 ≤ f → f ≤ 10 → Spec.StringReady s p f c (tileBlocks f (mN x / 16 % 4)) →
      let blk := mN x / 16 % 4
      let base := 32 * (mN x / 2 % 4)
      let int := (mN x).testBit 0
      let scales := if scaledFmt f then p.scaleString c (tileBlocks f blk) else []
      let src : Elem := if int then .int 32 true else .flt (fmtOf 1)
      let conv (r k : Nat) : FRes :=
        let v := src.value ((p.zreg x.a.toNat).extractLsb' (1024 * r + 32 * k) 32).toNat
        let field := (scales.getD (blockOf f blk r (base + k)) 127).toNat
        if scaledFmt f = true ∧ field = 255 then { bits := 0 }
        else (elemFmt f).encode int mode (fpcPayl p.fpc) (scaledFmt f || (mN x).testBit 3) 0
          (if scaledFmt f then v.scale (127 - (field : Int)) else v.plain)
      let cond := Spec.orAll ((List.range 32).flatMap fun r => (List.range 32).map fun k => (conv r k).c)
      base + 32 ≤ tileCols f → Spec.NoTrap p cond → ∃ v : YBuf, exec (.tcvt x) s = .next (s.after eTcvt x p fun q =>
          (Spec.flagged q cond).setY d v) ∧ v.fmt = f ∧ v.blk = blk ∧
        ∀ r < 32, ∀ k < tileCols f, v.raw f r k =
          (if base ≤ k ∧ k < base + 32 then (conv r (k - base)).bits else (p.ybuf d).raw f r k) % 2 ^ fmtWidth f) ∧
    (Ready eTbs x s p → tbsExp f = none ∨ y.fmt ≠ f → exec (.tbs x) s = .next (s.deliver s.cur { cause := 23 } p.pc)) ∧
    (∀ em, Ready eTbs x s p → x.i = false → tbsExp f = some em → y.fmt = f → Spec.StringReady s p f c (tileBlocks f y.blk) →
      let nb := tileBlocks f y.blk
      let bs := blockSize_ f y.blk
      let scales := if scaledFmt f then p.scaleString c nb else []
      ∃ v, exec (.tbs x) s = .next (s.after eTbs x p fun q => q.setVec d v) ∧ ∀ i < 8,
        let w := if b + i < nb then blockPair em (scaledFmt f) (scales.getD (b + i) 127).toNat ((List.range bs).map fun j =>
            let k := (b + i) * bs + j
            (elemFmt f).value (y.raw f (k / tileCols f) (k % tileCols f))) else (0, 0)
        v.extractLsb' (128 * i) 64 = BitVec.ofNat 64 w.1 ∧ v.extractLsb' (128 * i + 64) 64 = BitVec.ofNat 64 w.2) ∧
    (Ready eXacc x s p → (mN x).testBit 3 = true → x.i = false → exec (.xaccW x) s = .next (s.after eXacc x p fun q =>
      { q with x := tblSet q.x d ((p.xacc d).addPair (p.scalar x.a.toNat) (p.scalar x.b.toNat)) })) ∧
    (Ready eXacc x s p → (mN x).testBit 3 = false → exec (.xaccV x) s = .next (s.after eXacc x p fun q =>
      { q with x := tblSet q.x d (((List.range 8).filter (Spec.on p (mN x % 8))).foldl (fun a i =>
        a.addPair ((p.vec x.a.toNat).extractLsb' (128 * i) 64) ((p.vec x.a.toNat).extractLsb' (128 * i + 64) 64)) (p.xacc d)) })) ∧
    (∀ (a : XAcc) (w0 w1 : Word), 0 ≤ (w1.extractLsb' 0 16).toInt + 192 →
      (a.addPair w0 w1).v = a.v + BitVec.ofInt 384 (w0.toInt * 2 ^ ((w1.extractLsb' 0 16).toInt + 192).toNat) ∧
      (a.addPair w0 w1).loss = a.loss) ∧
    (Ready eXrd x s p →
      let a := p.xacc x.a.toNat
      let g := fmtOf f
      let r : FRes := if a.nan ∨ a.pinf ∧ a.ninf then g.invalid else if a.pinf ∨ a.ninf then { bits := g.infBits a.ninf }
        else if a.ovf then g.invalid else g.round mode (decide (a.v.toInt < 0)) a.v.toInt.natAbs (-192)
      (Spec.NoTrap p r.c → exec (.xrd x) s = .next (s.after eXrd x p fun q =>
        (Spec.flagged q r.c).wrOp d (BitVec.ofNat 64 r.bits))) ∧
      exec (.xrdSt x) s = .next (s.after eXrd x p fun q => q.wrOp d
        ((BitVec.ofBool a.nan ++ BitVec.ofBool a.ninf ++ BitVec.ofBool a.pinf ++ BitVec.ofBool a.loss ++
          BitVec.ofBool a.ovf).setWidth 64)) ∧
      exec (.xrdWd x) s = .next (s.after eXrd x p fun q => q.wrOp d (a.v.extractLsb' (64 * (mN x / 4 % 8)) 64)))

/-- R300 to R306: TMMA, TLD and TST complete: they take a place in their pipe and count in the tile counter; where CR.FPC
enables a trap TMMA is performed at once, and its lowest enabled cause delivered. TLD and TST do so in every space, with or
without scales, where no check refuses a row and every page is present. A pipe starts its first instruction; a load that completes writes its buffer and tag, a store its
rows, and a multiplication its accumulator and flags, and each leaves its pipe. An s8 accumulator element is the old one, or
zero, plus the sum of products, modulo 2^32. -/
def Obligations.TilePipes : Prop :=
  (∀ (x : Args) (s : State) (p : Proc), Ready eTmma x s p →
    let f := tyN x
    let d := x.d.toNat
    let a := x.a.toNat
    let b := x.b.toNat
    let c := (cOf .modw x).toNat
    let t := mN x % 32
    let ya := p.ybuf a
    let yb := p.ybuf b
    let sa := if scaledFmt f then p.scaleString c (tileBlocks f ya.blk) else []
    let sb := if scaledFmt yb.fmt then p.scaleString t (if f = 11 then 256 else tileBlocks yb.fmt yb.blk) else []
    let set := (mN x).testBit 5
    let mode := modeOf (rndOf .modw x).toNat p.fpc
    let nbA := tileBlocks f ya.blk
    let nbB := if f = 11 then 256 else tileBlocks yb.fmt yb.blk
    (mmaTags f ya yb (p.ybuf (b + 1)) = false → exec (.tmma x) s = .next (s.deliver s.cur { cause := 23 } p.pc)) ∧
    (mmaTags f ya yb (p.ybuf (b + 1)) = true → (t ≠ 0 → scaledFmt yb.fmt = true) → Spec.StringReady s p f c nbA →
      Spec.StringReady s p yb.fmt t nbB → (f = 11 → s.vqFault p ya.entries = none) →
      (tblGetD s.pipes (2 * p.core + 1) []).length < 8 →
      (p.fpc.extractLsb' 8 4 = 0 → p.cTile < 65535 → ∃ u, exec (.tmma x) s = .next u ∧
        Spec.Piped eTmma x s p 1 { pid := s.cur, ctx := p.ctx, fmt := f, what := .mul d a b set mode sa sb, seq := s.seq } u) ∧
      (p.fpc.extractLsb' 8 4 ≠ 0 →
        let r := p.mma f d a b set mode sa sb (s.vqEntry p)
        (trapCause p.fpc r.2 = none → exec (.tmma x) s = .next (s.after eTmma x p fun q => (Spec.flagged q r.2).setZ d r.1)) ∧
        (∀ k, trapCause p.fpc r.2 = some k →
          exec (.tmma x) s = .next ((s.withCur (Spec.flagged p r.2)).deliver s.cur { cause := k } p.pc))))) ∧
  (∀ (x : Args) (s : State) (p : Proc), x.i = false → (tblGetD s.pipes (2 * p.core) []).length < 8 → p.cTile < 65535 →
    (∀ sp g, Ready eTld x s p → Spec.TileMoves x s p sp 0x10 g → ∃ u, exec (.tld x) s = .next u ∧
      Spec.Piped eTld x s p 0 (Spec.tileOpOf x s p sp g.blk (.load x.d.toNat [])) u) ∧
    (∀ sp g, Ready eTst x s p → Spec.TileMoves x s p sp 0x08 g → (p.ybuf x.d.toNat).fmt = tyN x → ∃ u,
      exec (.tst x) s = .next u ∧ Spec.Piped eTst x s p 0 (Spec.tileOpOf x s p sp g.blk (.store x.d.toNat [])) u) ∧
    (∀ r ∈ [(Instr.tld, eTld, false), (.tst, eTst, true)], Ready r.2.1 x s p → Spec.spaceOf (Spec.srcA x p) ≠ 3 →
      let e := envOf r.2.1 x s s.cur p
      let ps := Spec.rowPlans e r.2.2
      let regs := Spec.scRegs e
      Spec.RowsPass ps → (∀ k ∈ regs, k ≤ 31) →
      s.tileClash s.cur p.core (regs.map .v) (if r.2.2 then [] else regs.map .v) = false → ∃ u, exec (r.1 x) s = .next u ∧
        Spec.Piped r.2.1 x s p 0 (Spec.plannedOp e r.2.2) u)) ∧
  (∀ (s : State) (core : Nat) (multiply : Bool) (op : TileOp) (rest : List TileOp),
    let k := 2 * core + if multiply then 1 else 0
    tblGetD s.pipes k [] = op :: rest → op.started = false → ∃ t, exec (.tilePipeStart core multiply) s = .next t ∧
      tblGetD t.pipes k [] = { op with started := true } :: rest ∧ t.procs = s.procs ∧ SameMemory s t) ∧
  (∀ (s : State) (core d : Nat) (op : TileOp) (rest : List TileOp) (p : Proc), tblGetD s.pipes (2 * core) [] = op :: rest →
    s.proc op.pid = some p → op.started = true → op.stalled = false → op.cause = 0 → op.toks = [] → (s.core core).sb = [] →
    op.space < 2 → op.scales = [] →
    let pa (va : Nat) := Spec.windowAt s core op.ctx op.space va
    let rb := rowBytes op.fmt
    (op.what = .load d [] → (∀ va ∈ op.rows, s.badWord (pa va) rb = none) → ∃ t q, exec (.tldComplete core) s = .next t ∧
      t.proc op.pid = some q ∧ q.cTile = p.cTile - 1 ∧ tblGetD t.pipes (2 * core) [] = rest ∧ q.ybuf d =
        { data := BitVec.ofNat 16384 (bytesNat (op.rows.flatMap fun va => s.read (pa va) rb)), fmt := op.fmt, blk := op.blk } ∧
      SameMemory s t ∧ OtherProcs s t [op.pid]) ∧
    (op.what = .store d [] → ∃ t q, exec (.tstComplete core) s = .next t ∧ t.proc op.pid = some q ∧
      q.cTile = p.cTile - 1 ∧ tblGetD t.pipes (2 * core) [] = rest ∧ t.empty = s.empty ∧
      t.mem = op.rows.zipIdx.foldl (fun m r =>
        memWrite m (pa r.1) (natBytes rb ((p.ybuf d).data.toNat / 2 ^ (8 * rb * r.2)))) s.mem)) ∧
  (∀ (s : State) (core d a b mode : Nat) (set : Bool) (sa sb : List Byte) (op : TileOp) (rest : List TileOp) (p : Proc),
    tblGetD s.pipes (2 * core + 1) [] = op :: rest → op.what = .mul d a b set mode sa sb → op.started = true →
    s.proc op.pid = some p → (op.fmt = 11 → s.vqFault p (p.ybuf a).entries = none) → ∃ t q, exec (.tmmaComplete core) s = .next t ∧ t.proc op.pid = some q ∧
      tblGetD t.pipes (2 * core + 1) [] = rest ∧ q.cTile = p.cTile - 1 ∧
      let r := p.mma op.fmt d a b set mode sa sb (s.vqEntry p)
      q.zreg d = r.1 ∧ q.fpc = p.fpc ||| r.2.bits ∧ SameMemory s t ∧ OtherProcs s t [op.pid]) ∧
  (∀ (p : Proc) (d a b mode : Nat) (set : Bool) (entry : Nat → List Byte), (p.ybuf b).fmt = 9 → ∀ m < 32, ∀ n < 32,
    let z (v : BitVec 32768) : BitVec 32 := v.extractLsb' (1024 * m + 32 * n) 32
    let el (y : YBuf) (r k : Nat) : Int := (y.data.extractLsb' (512 * r + 8 * k) 8).toInt
    z (p.mma 9 d a b set mode [] [] entry).1 = (if set then 0 else z (p.zreg d)) +
      BitVec.ofInt 32 ((List.range 64).map fun k => el (p.ybuf a) m k * el (p.ybuf b) n k).sum)

/-- R180 to R184, R202 to R207: the management commands complete. CREATE gives the lowest free context; KERNEL_LOAD installs the
image that its words name in host memory, where it is accepted, on every live die, and refuses another with 28; BIND gives the
context the values of the block that word 1 names; SUSPEND and RESUME change its state and that of its processes; SAVE waits
for the image, which then holds the context and its processes; RESTORE takes the image at word 1 back with the die table at
word 2, at the bases that firmware chooses (log entry 47); DESTROY stops every process; QUEUE_ASSIGN gives a queue to a context. Each answers on queue 0. -/
def Obligations.ManagementCommands : Prop :=
  ∀ (s : State) (w : List Word) (ctx : Nat), commandCtx w = ctx →
    let acc := (s.queue 0).accepted
    (s.command 0x10 = some w →
      (∀ n < 64, Spec.ctxSt s n = .empty → (∀ m < n, Spec.ctxSt s m ≠ .empty) → ∃ t, exec .create s = .next t ∧
        Spec.ctxSt t n = .loading ∧ Spec.Answered s t w n 3 0 ∧ SameMemory s t) ∧
      ((∀ n < 64, Spec.ctxSt s n ≠ .empty) → ∃ t, exec .create s = .next t ∧ Spec.Answered s t w acc 4 51)) ∧
    (∀ (offsets frames : List Nat), s.command 0x11 = some w →
      let image := s.hostBytes (w.getD 1 0).toNat (w.getD 2 0).toNat
      (∀ (m : KImage) (slot : Nat) (idx : List Nat), Spec.ctxSt s ctx = .loading → parseImage (s.mrev.toNat % 256) image = some m →
        m.groups = [] → freeChans (s.ctx ctx).chans m.chans.length = some idx → slot < 64 →
        tblGet (s.ctx ctx).kernels slot = none → (∀ j < slot, tblGet (s.ctx ctx).kernels j ≠ none) →
        s.placeOk ctx (kernelOf m offsets frames) = true → s.wf = true → ∃ t, exec (.kernelLoad offsets frames) s = .next t ∧
          tblGet (t.ctx ctx).kernels slot = some (kernelOf m offsets frames) ∧ Spec.Answered s t w slot 3 0 ∧
          ∀ d ∈ s.liveDies, t.read (hbmPA d (65536 * (kernelOf m offsets frames).codeFrame)) m.code.length = m.code) ∧
      (Spec.ctxSt s ctx = .loading → parseImage (s.mrev.toNat % 256) image = none → ∃ t,
        exec (.kernelLoad offsets frames) s = .next t ∧ Spec.Answered s t w acc 4 28) ∧
      (Spec.ctxSt s ctx ≠ .loading → ∃ t, exec (.kernelLoad offsets frames) s = .next t ∧ Spec.Answered s t w acc 4 2)) ∧
    (∀ (tb sb tab : Nat) (grants : List (Nat × Nat × Nat)), s.command 0x12 = some w →
      let b := s.bindBlock (w.getD 1 0).toNat
      Spec.Bindable s ctx b tb sb tab → ∃ t,
      exec (.bind [tb, sb, tab] grants) s = .next t ∧ ((grants ≠ [] ∧ t = s) ∨ t.ctx ctx = s.bound (s.ctx ctx) b tb sb tab ∧ Spec.ctxSt t ctx = .bound ∧
      (t.ctx ctx).tlen = 4096 * ((b.getD 1 0).extractLsb' 48 16).toNat ∧
      (t.ctx ctx).slen = 4096 * ((b.getD 1 0).extractLsb' 0 16).toNat ∧
      (t.ctx ctx).waitlim = ((b.getD 2 0).extractLsb' 0 32).toNat ∧ Spec.Answered s t w acc 3 0)) ∧
    (s.command 0x13 = some w →
      (Spec.ctxSt s ctx = .bound ∨ Spec.ctxSt s ctx = .running → ∃ t, exec .suspend s = .next t ∧ Spec.ctxSt t ctx = .suspended ∧
        (∀ pid p, s.proc pid = some p → p.ctx = ctx → p.st = .running ∨ p.st = .ready → p.packet = none → ∃ q,
          t.proc pid = some q ∧ q.st = .suspended ∧ q.pc = p.pc) ∧ Spec.Answered s t w acc 3 0 ∧ SameMemory s t) ∧
      (Spec.ctxSt s ctx ≠ .bound → Spec.ctxSt s ctx ≠ .running → ∃ t, exec .suspend s = .next t ∧ Spec.Answered s t w acc 4 2)) ∧
    (s.command 0x14 = some w → Spec.ctxSt s ctx = .suspended → ∃ t, exec .resume s = .next t ∧
      Spec.ctxSt t ctx = (if (s.ctx ctx).resumeBound then .bound else .running) ∧
      (∀ pid p, s.proc pid = some p → p.ctx = ctx → p.st = .suspended → p.halt = none → ∃ q,
        t.proc pid = some q ∧ q.st = .ready ∧ q.pc = p.pc) ∧ Spec.Answered s t w acc 3 0 ∧ SameMemory s t) ∧
    (s.command 0x15 = some w → Spec.ctxSt s ctx = .suspended → ∃ t, exec .save s = .next t ∧
      (t.ctx ctx).saveTo = some ((w.getD 1 0).toNat, (w.getD 2 0).toNat) ∧ t.queue 0 = s.queue 0 ∧ SameMemory s t) ∧
    (∀ addr len, s.command 0x15 = some w → (s.ctx ctx).saveTo = some (addr, len) → s.ctxBusy ctx = false →
      let sections := ((List.range 7).map fun i => (Config.freeWord (s.fresh + i)).toNat % 2 ^ 28).sum
      ∃ t, exec (.contextImageWrite ctx) s = .next t ∧ if len < 64 * (3 + sections) then Spec.Answered s t w acc 4 14
        else Spec.Answered s t w acc 3 0 ∧ SameMemory s t ∧ ∃ m, tblGet t.images addr = some m ∧
          m.ctx.tlen = (s.ctx ctx).tlen ∧ m.procs = (s.procs.filter fun e => e.2.ctx == ctx) ∧ m.dies = s.liveDies) ∧
    (∀ (accepts : Bool) (tb sb : Nat), s.command 0x16 = some w →
      let image := (w.getD 1 0).toNat
      let table := (s.hostBytes (w.getD 2 0).toNat 8).map (·.toNat)
      (∀ m sh tabs ps, tblGet s.images image = some m → Spec.Restorable s ctx image accepts tb sb m table sh tabs ps → ∃ t,
        exec (.restore accepts [tb, sb]) s = .next t ∧ Spec.ctxSt t ctx = .suspended ∧ (t.ctx ctx).tbase = tb ∧
        (t.ctx ctx).sbase = sb ∧ (t.ctx ctx).tlen = m.ctx.tlen ∧ (∀ x, ps = [x] → x.1 < m.seq →
          t.proc (moveId s.seq x.1) = some (x.2.2.onDevice m.dev s.devId)) ∧ Spec.Answered s t w acc 3 0) ∧
      (Spec.ctxSt s ctx = .empty → ctx < 64 → tblGet s.images image = none → ∃ t,
        exec (.restore accepts [tb, sb]) s = .next t ∧ Spec.Answered s t w acc 4 51)) ∧
    (s.command 0x17 = some w → Spec.ctxSt s ctx ≠ .empty → Spec.ctxSt s ctx ≠ .draining → ∃ t, exec .destroy s = .next t ∧
      Spec.ctxSt t ctx = .draining ∧
      (∀ pid p, s.proc pid = some p → p.ctx = ctx → ∃ q, t.proc pid = some q ∧ q.st = .stopped) ∧ Spec.Answered s t w acc 3 0) ∧
    (s.command 0x18 = some w →
      let n := (w.getD 1 0).toNat
      0 < n → n < 4096 → (s.queue n).en = false → (s.queue n).closed = false → Spec.ctxSt s ctx ≠ .empty → Spec.ctxSt s ctx ≠ .draining → ∃ t,
        exec .queueAssign s = .next t ∧ t.queue n =
          { s.queue n with en := true, priv := (w.getD 2 0).getLsbD 0, ctx := ctx, closed := false, recs := [] } ∧
        Spec.Answered s t w acc 3 0 ∧ SameMemory s t)

/-- R194 to R201, R210: the host's accesses complete. A post of 64 bytes joins its queue, a full queue refuses it with 47; QCFG, QCMPL and QCHEAD take their
fields; a completion entry goes to the ring in host memory; a launch record of a bound context creates its processes, at
the entry's address with the ranks from the record's on; a CLOSED queue's records leave with STATUS 0x05; the host reads and writes device memory. -/
def Obligations.HostQueues : Prop :=
  (∀ (s : State) (n : Nat), Spec.HostReaches s n →
    let q := s.queue n
    (∀ ws : List Word, ws.length = 8 → q.en = true → q.closed = false → s.faultSink n = false →
      (q.recs.length < 16 + q.quota → ∃ t, exec (.workQueuePost n ws) s = .next t ∧ (t.queue n).recs = q.recs ++ [ws] ∧
        (t.queue n).accepted = (q.accepted + 1) % 2 ^ 32 ∧ (t.queue n).waiting = q.waiting ++ [(ws.getD 3 0,
          BitVec.ofNat 64 ((q.accepted + 1) % 2 ^ 32 * 2 ^ 32 + 256))] ∧ SameMemory s t) ∧
      (16 + q.quota ≤ q.recs.length → ∃ t, exec (.workQueuePost n ws) s = .next t ∧ (t.queue n).recs = q.recs ∧
        (t.queue n).refused = (q.refused + 1) % 2 ^ 20 ∧ (t.queue n).waiting = q.waiting ++ [(ws.getD 3 0,
          BitVec.ofNat 64 ((q.refused + 1) % 2 ^ 20 * 2 ^ 32 + 512 + 47))] ∧ SameMemory s t)) ∧
    (∀ v : Word, ∃ t, exec (.qcfgWrite n v) s = .next t ∧ (t.queue n).ien = v.getLsbD 15 ∧
      (t.queue n).vec = (v.extractLsb' 0 11).toNat ∧ (t.queue n).recs = q.recs ∧
      (if q.recs = [] ∨ q.closed = true then (t.queue n).quota ≤ (v.extractLsb' 32 16).toNat else (t.queue n).quota = q.quota)) ∧
    (∀ v : Word, q.recs = [] ∨ q.closed = true → ∃ t, exec (.qcmplWrite n v) s = .next t ∧
      (t.queue n).base = v.toNat / 4096 * 4096 ∧ (t.queue n).log2n = v.toNat % 16 ∧ SameMemory s t) ∧
    (∀ v : Word, ∃ t, exec (.qcheadWrite n v) s = .next t ∧ (t.queue n).head = v.toNat % 2 ^ 32 ∧ SameMemory s t) ∧
    (∀ a b rest, q.waiting = (a, b) :: rest → (q.written + 2 ^ 32 - q.head) % 2 ^ 32 < 2 ^ (q.log2n + 4) →
      let slot := q.base + 16 * (q.written % 2 ^ (q.log2n + 4))
      ∃ t, exec (.completionEntryWrite n) s = .next t ∧ tblGet t.hostMem slot = some a ∧ tblGet t.hostMem (slot + 8) = some b ∧
        (t.queue n).waiting = rest ∧ (t.queue n).written = (q.written + 1) % 2 ^ 32 ∧
        t.msix = (if q.ien then s.msix ++ [q.vec] else s.msix) ∧ SameMemory s t)) ∧
  (∀ (s : State) (n : Nat) (w : List Word) (rest : List (List Word)),
    let q := s.queue n
    n ≠ 0 → q.recs = w :: rest → s.queueUp n = true → q.ringFree = true → s.faultSink n = false →
    let done (t : State) (status cause : Nat) : Prop := exec (.launchRecordTake n) s = .next t ∧ (t.queue n).recs = rest ∧
      (t.queue n).waiting = q.waiting ++ [(w.getD 3 0, BitVec.ofNat 64 (q.accepted % 2 ^ 32 * 2 ^ 32 + status * 256 + cause))]
    (q.closed = true → ∃ t, done t 5 0 ∧ (t.queue n).closed = !rest.isEmpty ∧ t.procs = s.procs) ∧
    (q.closed = false → q.en = true → Spec.ctxSt s q.ctx = .bound ∨ Spec.ctxSt s q.ctx = .running →
    (∀ c, s.unpackLaunch q.ctx q.priv w = .inl c → ∃ t, done t 4 c ∧ t.procs = s.procs) ∧
    (∀ ps, s.unpackLaunch q.ctx q.priv w = .inr ps → ∃ t, done t 3 0 ∧ Spec.ctxSt t q.ctx = .running ∧
      (∀ p, ps = [p] → ∃ pid r, t.proc pid = some r ∧ r.ctx = p.ctx ∧ r.rank = p.rank ∧ r.core = p.core ∧ r.pc = p.pc) ∧
      ∀ k en, w.length = 8 → tblGet (s.ctx q.ctx).kernels ((w.getD 0 0).extractLsb' 16 16).toNat = some k →
        k.entries[((w.getD 0 0).extractLsb' 0 16).toNat]? = some en →
        ps.length = ((w.getD 1 0).extractLsb' 0 32).toNat ∧ ∀ i p, ps[i]? = some p →
          p.ctx = q.ctx ∧ p.rank = ((w.getD 1 0).extractLsb' 32 32).toNat + i ∧ p.pc = BitVec.ofNat 64 (k.codeOff + en.codeOff) ∧
          p.reg (.w 0) = w.getD 4 0 ∧ p.reg (.w 3) = w.getD 7 0 ∧ p.reg (.w 4) = BitVec.ofNat 64 i))) ∧
  (∀ (s : State) (off n : Nat) (bs : List Byte), s.funcUp = true →
    (s.hostSpan off n = true → ∃ t, exec (.cxlMemRead off n) s = .next t ∧
      t.cxlReply = some (s.read off n, (s.badWord off n).isSome) ∧ SameMemory s t) ∧
    (s.hostSpan off bs.length = true → s.wf = true → ∃ t, exec (.cxlMemWrite off bs) s = .next t ∧ t.read off bs.length = bs ∧
      OnlyBytes s t off bs.length ∧ t.empty = s.empty ∧ t.procs = s.procs ∧ t.cxlReply = some ([], false)) ∧
    (s.hostSpan off bs.length = false → exec (.cxlMemWrite off bs) s = .next { s with cxlReply := none }))

/-- R231, R388, R391: the debug interface and boot complete. A halt suspends a process at its boundary and tells the management core that asked; under the halt that
core writes registers and raises firmware causes, and it alone ends the halt. A boot leaves no process, no memory contents and
no host function, the dies that take part present with version 1's record, and their cores live; then the function appears
and queue 0 opens. -/
def Obligations.DebugAndBoot : Prop :=
  (∀ (s : State) (mgmt ctx rank pid : Nat) (p : Proc), s.named ctx rank = some (pid, p) → s.proc pid = some p →
    (p.halt = none → (p.st = .running ∨ p.st = .ready) → p.packet = none → ∃ t q, exec (.debugHalt mgmt ctx rank) s = .next t ∧
      t.proc pid = some q ∧ q.st = .suspended ∧ q.halt = some mgmt ∧ q.pc = p.pc ∧ t.toMgmt = s.toMgmt ++
        [(mgmt, { rank := p.rank, core := p.core, ctx := p.ctx, code := 59, epc := p.pc })] ∧
      SameMemory s t ∧ OtherProcs s t [pid]) ∧
    (p.halt = some mgmt → p.st = .suspended → ∃ t q, exec (.debugHaltEnd mgmt ctx rank) s = .next t ∧ t.proc pid = some q ∧
      q.halt = none ∧ q.st = (if Spec.ctxSt s p.ctx = .suspended then .suspended else .ready) ∧ SameMemory s t ∧
      OtherProcs s t [pid]) ∧
    (p.halt ≠ some mgmt → exec (.debugHaltEnd mgmt ctx rank) s = .next s) ∧
    (∀ (reg : DebugReg) (v : Word), p.halt = some mgmt → p.st = .suspended → (∀ r, p.debugName reg = some r → r ∉ p.pending) →
      ∃ t, exec (.debugRegisterWrite mgmt ctx rank reg v) s = .next t ∧ t.proc pid = some (p.debugPut reg v) ∧ SameMemory s t ∧
        OtherProcs s t [pid]) ∧
    (∀ cause, p.halt = some mgmt → p.st ≠ .running → p.st ≠ .ready → 60 ≤ cause → cause ≤ 63 → ∃ t, exec (.firmwareCauseRaise mgmt ctx rank cause) s = .next t ∧
      t.proc pid = some { p with firm := p.firm ++ [cause] } ∧ SameMemory s t ∧ OtherProcs s t [pid])) ∧
  (∀ (p : Proc) (v : Word), (p.debugPut .pc v).pc = v ∧ ∀ i < 32, (p.debugPut (.w i) v).reg (.w (24 * p.level + i)) = v) ∧
  (∀ (s : State) (b : BootPlan), bootIos b ≠ [] → ∃ t, exec (.moduleReset b) s = .next t ∧ t.mem = [] ∧ t.procs = [] ∧
    t.funcUp = false ∧ t.queues = [] ∧ t.devId = b.devId.toNat ∧ t.hostMem = s.hostMem ∧ t.map = bootRecord b ∧
    (∀ x ∈ bootLogical b, (t.die x.1).present = true ∧ (t.die x.1).lost = false ∧ (t.die x.1).phys = x.2 ∧
      (t.die x.1).map = bootRecord b) ∧
    (∀ c, (t.core c).live = (decide (c < 256 * (bootDies b).length) &&
      bootHolds b ((bootDies b).getD (coreDie c) 0) (coreClu c) (corePos c))) ∧
    ∀ l < 41, (t.link l).st = if (bootLinks b).contains l then 2 else 3) ∧
  (∀ s : State, (s.io (8 + s.hostPort)).present = true → (s.io (8 + s.hostPort)).lost = false → recField s.map 0 0 32 ≠ 0 → ∃ t,
    exec .hostFunctionPresent s = .next t ∧ t.funcUp = true ∧ (t.queue 0).en = true ∧ SameMemory s t ∧ t.procs = s.procs)

/-- R164, R356, R366 to R378: the events of messages complete. A message with a path, a key and a grant sends its data and
parity fragments; a die forwards a fragment whose turn it is, raising its AGE but at its source (log entry 74), and drops one whose tag fails under containment; a fragment opens
its decode slot, or commits a response; a window that ends sends a negative acknowledgement, then a final failure. An
acknowledgement or a response ends its operation; a negative acknowledgement sends the listed fragments once more; a final
failure, a window, an empty mask, a key held too long and a missing session end it with their delayed faults. Slots are asked
for, granted, released. The first good fragment of a control message acts. A flag performs as STF once its counts are reached, and a
cancel removes one that waits, its commit and its slot, or bars one still to come. -/
def Obligations.FabricMessages : Prop :=
  (∀ (s : State) (die k : Nat) (m : OutMsg) (e : List Nat) (g : Nat) (gs : List Nat), Spec.Sendable s die k m e g gs →
    m.kind ≠ 3 → m.kind ≠ 5 →
    let n := fragCount ((s.die die).rateK 0) m.payload.length
    ∃ t m' fs, exec (.outboundMessageSend die k) s = .next t ∧ tblGet (t.die die).out k = some m' ∧ m'.st = .sent0 ∧
      m'.slot = g ∧ m'.msgid = (s.die die).msgid ∧ m'.payload = m.payload ∧ t.wire = s.wire ++ fs ∧
      fs.map (·.data) = encodeFrags n ((s.die die).rateM 0) m.payload ∧
      (∀ f ∈ fs, f.slot = g ∧ f.msgid = (s.die die).msgid ∧ f.ddie = m.ddie ∧ f.path ∈ e) ∧
      tblGetD (t.die die).grants (destKey m.ddev m.ddie) [] = gs ∧ SameMemory s t ∧ t.procs = s.procs) ∧
  (∀ (s : State) (die k : Nat) (m : OutMsg) (p : Proc) (o : Op), Spec.LoadOp s die k m p o →
    let cycle := (s.die die).cycle
    (m.st = .queued → m.ddev ≠ s.devId → s.sameAddrHeld die k m = false → nsHas s.sessions m.ddev = false → ∃ t,
      exec (.outboundMessageSend die k) s = .next t ∧ Spec.LoadFails s t die k m p o 44) ∧
    (∀ c, m.st = .queued → m.emptyTill = some c → c ≤ cycle → s.effective die m.ddev m.ddie m.pmask = [] → ∃ t,
      exec (.emptyMaskExpiry die k) s = .next t ∧ Spec.LoadFails s t die k m p o 42) ∧
    (∀ c, m.st = .queued → m.keyTill = some c → c ≤ cycle → ∃ t,
      exec (.keyHoldExpiry die k) s = .next t ∧ Spec.LoadFails s t die k m p o 44) ∧
    (m.st ≠ .queued → m.ddie ≠ die → m.window ≤ cycle → s.unsent die m = false → ∃ t,
      exec (.ackWindowExpiry die k) s = .next t ∧ Spec.LoadFails s t die k m p o (if m.kind = 2 then 42 else 43)) ∧
    (∀ i c, s.ctl[i]? = some c → c.kind = 12 → c.ddie = die → s.dieLive die = true → s.sentMsg c = some (k, m) → ∃ t,
      exec (.finalFailureArrival i) s = .next t ∧ Spec.LoadFails s t die k m p o 42 ∧ t.ctl = s.ctl.eraseIdx i) ∧
    (∀ i c, s.responses[i]? = some (die, c) → c.frag.kind = m.kind + 1 → c.frag.ref = k → c.frag.parts = 1 →
      c.frag.cause = 0 → unitOf c.frag ((s.responses.filter fun r => r.1 == die).map (·.2)) = [c] → m.miss = [] →
      m.declined = false → m.dst = none →
      ∃ t, (m.kind = 2 → exec (.getResponseArrival i) s = .next t) ∧
        (m.kind = 4 → exec (.ramoResponseArrival i) s = .next t) ∧
        Spec.LoadEnds t die k m p o (loadExt (m.opw % 16) (bytesNat c.payload)) ∧ (die, c) ∉ t.responses ∧ SameMemory s t)) ∧
  (∀ (s : State) (k i : Nat) (c : Ctl) (m : OutMsg) (p : Proc) (o : Op), Spec.StoreOp s c.ddie k m p o → m.kind = 0 →
    s.ctl[i]? = some c → c.kind = 10 → s.dieLive c.ddie = true → s.sentMsg c = some (k, m) → c.body.headD 0 = 0 → ∃ t,
      exec (.ackArrival i) s = .next t ∧ Spec.StoreEnds t c.ddie k m p ∧ t.ctl = s.ctl.eraseIdx i ∧ SameMemory s t) ∧
  (∀ (s : State) (k i : Nat) (c : Ctl) (m : OutMsg), s.ctl[i]? = some c → c.kind = 11 → s.dieLive c.ddie = true →
    s.sentMsg c = some (k, m) → tblGet (s.die c.ddie).out k = some m → m.qp = none →
    s.effective c.ddie m.ddev m.ddie m.pmask ≠ [] →
    (m.st = .sent0 → ∃ t fs m', exec (.nakArrival i) s = .next t ∧ t.wire = s.wire ++ fs ∧
      fs.length = (List.range (encodeFrags m.k m.m m.payload).length).countP (fun j => (c.body.headD 0).testBit j) ∧
      (∀ f ∈ fs, f.att = 1 ∧ f.msgid = m.msgid ∧ f.slot = m.slot ∧ (c.body.headD 0).testBit f.idx = true) ∧
      tblGet (t.die c.ddie).out k = some m' ∧ m'.st = .sent1 ∧ SameMemory s t ∧ t.procs = s.procs) ∧
    (m.st = .sent1 → ∃ t, exec (.nakArrival i) s = .next t ∧ t.wire = s.wire ∧ t.procs = s.procs ∧ SameMemory s t)) ∧
  (∀ (s : State) (i : Nat) (f : Frag), s.wire[i]? = some f →
    (∀ l d l2 d2 rest, f.route = (l, d) :: (l2, d2) :: rest → f.qp = none →
      (s.containAt d f = true → f.tagOk = false → ∃ t, exec (.fragmentForward i) s = .next t ∧ t.wire = s.wire.eraseIdx i ∧
        ∀ die, d < 8 → s.logicalAt d = some die → (t.die die).lostCnt = ((s.die die).lostCnt + 1) % 2 ^ 64) ∧
      (s.containAt d f = false ∨ f.tagOk = true → s.linkUp l2 = true → s.overAt d f = false → s.behindOther i d l2 f = false →
        d2 ≠ 255 → ∃ t, exec (.fragmentForward i) s = .next t ∧ t.wire = s.wire.set i
          { f with route := (l2, d2) :: rest, age := if l = ownInput then f.age else min 255 (f.age + 1),
                   waited := s.cycleAt d2 })) ∧
    (∀ l d rest, f.route = (l, d) :: rest → f.waited + 256 ≤ s.cycleAt d → ∃ t, exec (.ageIncrement i) s = .next t ∧
      t.wire = s.wire.set i { f with age := min 255 (f.age + 1), waited := f.waited + 256 }) ∧
    (f.route.length < 2 → f.ddev = s.devId → s.dieLive f.ddie = true →
      let x := tblGetD (s.die f.ddie).dslots f.slot {}
      (f.tagOk = false → ∃ t, exec (.fragmentArrival i) s = .next t ∧ t.wire = s.wire.eraseIdx i ∧
        tblGetD (t.die f.ddie).dslots f.slot {} = x) ∧
      (f.tagOk = true → f.agrees = true → x.st = 1 → x.sdev = f.sdev → x.sdie = f.sdie → x.held f = false →
        (1 < f.k → ∃ t, exec (.fragmentArrival i) s = .next t ∧ t.wire = s.wire.eraseIdx i ∧
          tblGet (t.die f.ddie).dslots f.slot = some { x with st := 2, first := some f, frags := [(f.idx, f.data)],
                                                              window := (s.die f.ddie).cycle + (s.die f.ddie).win }) ∧
        (f.k = 1 → f.kind = 3 → ∃ t, exec (.fragmentArrival i) s = .next t ∧
          t.responses = s.responses ++ [(f.ddie, { slot := f.slot, frag := f, payload := f.data.take f.len })])) ∧
      (∀ c, f.tagOk = true → 10 ≤ f.kind → f.kind ≤ 16 → f.agreesCtl = true → f.ctl = some c →
        ((s.die f.ddie).ctlGot.contains f.ident = false → ∃ t c', exec (.fragmentArrival i) s = .next t ∧
          t.wire = s.wire.eraseIdx i ∧ t.ctl = s.ctl ++ [c'] ∧ c'.kind = f.kind ∧ c'.body = c.body ∧ c'.msgid = c.msgid ∧
          (t.die f.ddie).ctlGot.contains f.ident = true) ∧
        ((s.die f.ddie).ctlGot.contains f.ident = true → ∃ t, exec (.fragmentArrival i) s = .next t ∧
          t.wire = s.wire.eraseIdx i ∧ t.ctl = s.ctl)))) ∧
  (∀ (s : State) (die slot : Nat) (x : DSlot) (f : Frag), tblGet (s.die die).dslots slot = some x → x.first = some f →
    x.window ≤ (s.die die).cycle → f.kind ≠ 3 → f.kind ≠ 5 → f.sdev = s.devId → Spec.MayTell s die f.sdie →
    let tell (kind : Nat) (body : List Nat) : Ctl :=
      { kind := kind, sdev := s.devId, sdie := die, ddev := f.sdev, ddie := f.sdie, msgid := f.msgid, epoch := f.epoch,
        body := body, qp := f.via }
    (x.st = 2 → ∃ t b, exec (.decodeWindowExpiry die slot) s = .next t ∧ Spec.Tells s t (tell 11 [b]) ∧
      (∀ i < f.k + f.m, b.testBit i = (tblGet x.frags i).isNone) ∧ (t.die die).nak = ((s.die die).nak + 1) % 2 ^ 64 ∧
      tblGet (t.die die).dslots slot = some { x with st := 3, window := (s.die die).cycle + (s.die die).win }) ∧
    (x.st = 3 → ∃ t, exec (.decodeWindowExpiry die slot) s = .next t ∧ Spec.Tells s t (tell 12 []) ∧
      tblGet (t.die die).dslots slot = some { x with st := 0 })) ∧
  (∀ (s : State) (i : Nat) (c : Ctl), s.ctl[i]? = some c → s.dieLive c.ddie = true → c.sdev = s.devId →
    let key := destKey c.sdev c.sdie
    let d := s.die c.ddie
    (∀ j < 1024, c.kind = 13 → c.body = [1] → Spec.MayTell s c.ddie c.sdie → (∀ e ∈ s.ctl.take i, e.kind = 13 → e.ddie ≠ c.ddie) →
      (tblGetD d.dslots j {}).st = 0 → (∀ l < j, (tblGetD d.dslots l {}).st ≠ 0) → ∃ t, exec (.slotRequest i) s = .next t ∧
        (tblGetD (t.die c.ddie).dslots j {}).st = 1 ∧ (tblGetD (t.die c.ddie).dslots j {}).sdev = c.sdev ∧
        (tblGetD (t.die c.ddie).dslots j {}).sdie = c.sdie ∧ t.ctl = s.ctl.eraseIdx i ∧
        Spec.Tells s t { kind := 14, sdev := s.devId, sdie := c.ddie, ddev := c.sdev, ddie := c.sdie, body := [j] }) ∧
    (c.kind = 14 → (tblGetD d.grants key []).length + c.body.length ≤ 64 → ∃ t, exec (.slotGrant i) s = .next t ∧
      tblGetD (t.die c.ddie).grants key [] = tblGetD d.grants key [] ++ c.body ∧ t.ctl = s.ctl.eraseIdx i) ∧
    (∀ j x, c.kind = 15 → c.body = [j] → tblGet d.dslots j = some x → x.st = 1 → x.sdev = c.sdev → x.sdie = c.sdie → ∃ t,
      exec (.slotRelease i) s = .next t ∧ tblGet (t.die c.ddie).dslots j = some { x with st := 0 } ∧ t.ctl = s.ctl.eraseIdx i) ∧
    (∀ tag rank fseq ctx, c.kind = 16 → c.body = [tag, rank, fseq, ctx] → fseq < 2 ^ 16 →
      (∀ f ∈ s.flags, f.of c.sdev ctx rank fseq = false) → (s.flagSrc c.sdev ctx rank).past fseq = false → ∃ t,
        exec (.flagCancel i) s = .next t ∧ (t.flagSrc c.sdev ctx rank).past fseq = true ∧ SameMemory s t) ∧
    (∀ tag rank fseq ctx v fdie slot k counts, c.kind = 16 → c.body = [tag, rank, fseq, ctx] → fseq < 2 ^ 16 →
      s.flags.find? (fun f => f.of c.sdev ctx rank fseq) = some v → v.flag = some (fdie, some slot, k, counts) →
      (s.flagSrc c.sdev ctx rank).past fseq = false → ∃ t,
        exec (.flagCancel i) s = .next t ∧ (∀ f ∈ t.flags, f.of c.sdev ctx rank fseq = false) ∧
        (∀ w ∈ (t.die fdie).commits, w.slot ≠ slot) ∧ (tblGetD (t.die fdie).dslots slot {}).st = 0 ∧
        (t.flagSrc c.sdev ctx rank).past fseq = true ∧ SameMemory s t)) ∧
  (∀ (s : State) (die ddie till : Nat), tblGet (s.die die).asked (destKey s.devId ddie) = some till → ddie < 8 →
    till ≤ (s.die die).cycle → Spec.MayTell s die ddie → ∃ t n, exec (.slotRequestRepeat die (destKey s.devId ddie)) s = .next t ∧
      Spec.Tells s t { kind := 13, sdev := s.devId, sdie := die, ddev := s.devId, ddie := ddie, body := [n] } ∧
      tblGet (t.die die).asked (destKey s.devId ddie) = some ((s.die die).cycle + 256 * (s.die die).ackw)) ∧
  (∀ (s : State) (i die k : Nat) (v : FlagIv) (counts : List Nat) (m : OutMsg) (p : Proc) (o : Op) (q : Piece),
    Spec.StoreOp s die k m p o → m.kind = 1 → s.flags[i]? = some v → v.flag = some (die, none, k, counts) →
    (s.flagSrc v.sdev v.ctx v.rank).next = v.fseq → (∀ j n, counts[j]? = some n → n ≤ tblGetD v.counts j 0) → m.miss = [] →
    m.declined = false → s.resolve die m.ctx m.priv { wr := true } m.addr.toNat 8 = .ok [q] → q.len = 8 → q.pa % 8 = 0 →
    8 ≤ m.payload.length → s.waiters = [] → s.wf = true → ∃ t, exec (.putFlagPerform i) s = .next t ∧
      t.read q.pa 8 = m.payload.take 8 ∧ OnlyBytes s t q.pa 8 ∧ t.wordFull (q.pa / 8) = true ∧ Spec.StoreEnds t die k m p)

/-- R27, R258, R361 to R390: the events of the machine's parts complete. Queue-pair states are written, become resident and fail; a
key is renewed and a session closes; links train, fail, are fenced and are LOST; the deadlock token samples a die and is
reissued; a die installs a map version; a core is replaced by its spare, or its position is lost with its processes, as is a
die's, and an I/O die's links; the host function moves after port 0 or I/O die 8 is lost (log entry 72); the record takes a failed channel and a cap; a transient cap steps; a
rate register takes a legal write whole, or none of it. -/
def Obligations.FabricState : Prop :=
  (∀ (s : State) (io n : Nat) (ws : List Word), (tblGetD (s.io io).qps n {}).st = 0 →
    ((ws.getD 0 0).extractLsb' 62 2).toNat = 1 → ∃ t q, exec (.qpStateWrite io n ws) s = .next t ∧
      tblGet (t.io io).qps n = some q ∧ q.st = 1 ∧ q.ctx = ((ws.getD 0 0).extractLsb' 56 6).toNat ∧
      q.win = ((ws.getD 1 0).extractLsb' 32 32).toNat ∧ q.tgt = ((ws.getD 2 0).extractLsb' 0 32).toNat ∧
      (((s.io io).qps.filter fun r => r.2.resident).length < 16384 → q.resident = true ∧ SameMemory s t)) ∧
  (∀ (s : State) (io n : Nat) (q : QPair), tblGet (s.io io).qps n = some q →
    (q.resident = false → q.host = true → ((s.io io).qps.filter fun r => r.2.resident).length < 16384 → ∃ t r,
      exec (.qpStateFetchComplete io n) s = .next t ∧ tblGet (t.io io).qps n = some r ∧ r.resident = true ∧
      r.words = s.savedQp q ∧ SameMemory s t ∧
      (t.io io).held = ((s.io io).held.filter fun f => f.qp != some ((io - 8) * 2 ^ 14 + n))) ∧
    (q.st = 1 → ∃ t r, exec (.qpPeerError io n) s = .next t ∧ tblGet (t.io io).qps n = some r ∧ r.st = 2 ∧ SameMemory s t)) ∧
  (∀ (s : State) (peer : Nat), tblSorted s.epochs = true → tblSorted s.sessions = true →
    (∃ t, exec (.keyUpdate peer) s = .next t ∧ ∀ die < 8, tblGet t.epochs (destKey peer die) = none ∧
      ∀ k m, tblGet (s.die die).out k = some m → m.ddev = peer → tblGet (t.die die).out k = some { m with keyTill := none }) ∧
    (∃ t, exec (.spdmSessionClose peer) s = .next t ∧ nsHas t.sessions peer = false ∧ ∀ d, d ≠ peer →
      nsHas t.sessions d = nsHas s.sessions d)) ∧
  (∀ (s : State) (l lanes speed : Nat), l < 41 →
    (let n := if l < 33 then lanes else 0;
      (s.link l).st = 1 → n ≤ (s.linkRecord l).1 → speed ≤ (s.linkRecord l).2 → 0 < speed → (l < 33 → 0 < lanes) → ∃ t,
      exec (.linkTrainingComplete l lanes speed) s = .next t ∧ t.link l = { st := 2, fails := 0, lanes := n, speed := speed } ∧
      ((n, speed) = s.linkRecord l → t.map = s.map)) ∧
    ((s.link l).st = 2 → ∃ t, exec (.linkFailure l) s = .next t ∧ (t.link l).st = 1 ∧ (t.link l).fails = 0 ∧
      t.wire.Sublist s.wire ∧ ∀ f ∈ s.wire, (f.route.map (·.1)).head? ≠ some l → f ∈ t.wire) ∧
    ((s.link l).st = 1 → (s.link l).fails < 2 → ∃ t, exec (.linkTrainingFail l) s = .next t ∧
      t.link l = { s.link l with fails := (s.link l).fails + 1 }) ∧
    ((s.link l).st = 1 → 2 ≤ (s.link l).fails → ∃ t, exec (.linkTrainingFail l) s = .next t ∧ (t.link l).st = 3) ∧
    ((s.link l).st ≠ 3 → ∃ t, exec (.linkFence l) s = .next t ∧ (t.link l).st = 3)) ∧
  (∀ (s : State) (ctx d : Nat),
    let c := s.ctx ctx
    (c.token.moving = false → c.token.away = false → c.token.lost = false → c.st = .running → d ∈ s.liveDies → c.token.die ≤ d →
      (∀ x ∈ s.liveDies, x < d → x < c.token.die) → (∃ x ∈ s.liveDies, d < x) → tblSorted c.dirty = true → ∃ t,
        exec (.deadlockTokenVisit ctx) s = .next t ∧ (t.ctx ctx).token.die = d + 1 ∧
        (t.ctx ctx).token.sent = c.token.sent + tblGetD c.sent d 0 ∧
        (t.ctx ctx).token.delivered = c.token.delivered + tblGetD c.delivered d 0 ∧
        (t.ctx ctx).token.clean = (c.token.clean && s.dieQuiet ctx d) ∧ nsHas (t.ctx ctx).dirty d = false ∧
        (t.ctx ctx).token.moving = true ∧ ∃ x ∈ s.liveDies, d < x ∧ Spec.Sent t d fun m => m.kind = 9 ∧ m.ddie = x) ∧
    (s.liveDies.head? = some d → c.token.lost = true → s.firstDevice ctx = true → c.token.left + 2 ^ 20 ≤ (s.die d).cycle → ∃ t,
      exec (.tokenReissue ctx) s = .next t ∧ (t.ctx ctx).token.lost = false ∧ (t.ctx ctx).token.die = d ∧
        (t.ctx ctx).token.clean = false)) ∧
  (∀ (s : State) (die : Nat), s.dieLive die = true →
    let phys := (s.die die).phys
    (∀ m rest, (s.die die).newMaps = m :: rest → ∃ t, exec (.rmapVersionInstall die) s = .next t ∧
      (t.die die).newMaps = rest ∧ (∀ w, (∀ d < 8, w ≠ dieBlock d + 20) → tblGetD (t.die die).map w 0 = tblGetD m w 0) ∧
      (∀ d < 8, tblGetD (t.die die).map (dieBlock d + 20) 0 = tblGetD (s.die die).map (dieBlock d + 20) 0) ∧ SameMemory s t) ∧
    (∀ clu slot i, clu < 16 → slot < 16 → s.cluFails die clu slot = false → s.slotPos die clu slot = some i → phys < 8 →
      let core := 256 * die + 16 * clu + i
      s.noPacket core = true →
      (s.cluSpos die clu = 31 → s.cluFails die clu 16 = false → ∃ t, exec (.coreRetire die clu slot) s = .next t ∧
        (t.core core).slot = 16 ∧ (t.core core).live = true ∧ t.cluSpos die clu = i ∧ t.cluFails die clu slot = true) ∧
      (s.cluSpos die clu ≠ 31 → ∃ t, exec (.coreRetire die clu slot) s = .next t ∧ (t.core core).live = false ∧
        t.cluFails die clu slot = true)) ∧
    (∃ t, exec (.dieLoss die) s = .next t ∧ (t.die die).lost = true ∧ (∀ l ∈ linksOf phys, (t.link l).st = 3) ∧
      (∀ c, c / 256 = die → (t.core c).live = false) ∧ ∀ pid p, s.proc pid = some p → p.core / 256 = die →
        (s.core p.core).live = true → p.st ≠ .stopped → ∃ q, t.proc pid = some q ∧ q.st = .faulted) ∧
    (∀ (slice : Bool) (unit : Nat), unit < (if slice then 16 else 64) → phys < 8 → ∃ t,
      exec (.hbmChannelFault die slice unit) s = .next t ∧
      recField t.map (dieBlock phys + if slice then 18 else 17) (if slice then 16 + unit else unit) 1 = 0) ∧
    (∀ mhz, mhz % 25 = 0 → 250 ≤ mhz → mhz ≤ 1000 → phys < 8 → ∃ t, exec (.persistentCapSet die mhz) s = .next t ∧
      recField t.map (dieBlock phys) 32 16 = mhz ∧ SameMemory s t) ∧
    (∀ up : Bool, ∃ t, exec (.transientCapStep die up) s = .next t ∧ (t.die die).trans =
      (if up then min 1000 ((s.die die).trans + 25) else max 250 ((s.die die).trans - 25)) ∧ SameMemory s t) ∧
    (∀ (i : Nat) (v : Word), i < 3 →
      let k := (v.extractLsb' 8 5).toNat
      let m := (v.extractLsb' 0 4).toNat
      ∃ t, exec (.lkRateWrite die i v) s = .next t ∧ (t.die die).rateWord i =
        if 1 ≤ k ∧ k ≤ 16 ∧ m ≤ 8 ∧ k + m ≤ 24 then v &&& 0x11F0F else (s.die die).rateWord i)) ∧
  (∀ (s : State) (io : Nat), io = 8 ∨ io = 9 → (s.io io).present = true → (s.io io).lost = false →
    (∃ t, exec (.ioDieLoss io) s = .next t ∧ (t.io io).lost = true ∧ (∀ l ∈ linksOf io, (t.link l).st = 3) ∧
      t.funcUp = (s.funcUp && s.hostPort != io - 8)) ∧
    (s.dieLive io = false →
      (∀ mhz, mhz % 25 = 0 → 250 ≤ mhz → mhz ≤ 1000 → ∃ t, exec (.persistentCapSet io mhz) s = .next t ∧
        recField t.map (ioBlock io) 32 16 = mhz ∧ SameMemory s t) ∧
      ∀ up : Bool, ∃ t, exec (.transientCapStep io up) s = .next t ∧ (t.io io).trans =
        (if up then min 1000 ((s.io io).trans + 25) else max 250 ((s.io io).trans - 25)) ∧ SameMemory s t) ∧
    (io = 9 → s.hostPort = 0 → recField s.map (ioBlock 8) 61 1 = 1 ∨ recField s.map (ioBlock 8 + 3) 0 1 = 0 → recField s.map 0 0 32 ≠ 0 → ∃ t,
      exec .hostPortFailover s = .next t ∧ t.hostPort = 1 ∧ t.funcUp = true ∧ SameMemory s t))

/-- R61, R64, R91, R270: what an instruction that writes one register leaves. A scalar write gives D its value and no
other register another; to zero it writes nothing; an address register keeps its base, length and permissions. A write of
a predicate, of a whole address register, of a vector or of a mask changes that register alone; p0 reads as true and k0 as
all ones whatever is written to them. The register written is full, the marked operands are empty, and every other full bit
is as before. Memory, its full-empty bits and every other process are as before, and so are the process's control registers,
window level, counters and accumulators. -/
def Obligations.RegisterFrame : Prop :=
  ∀ (e : Entry) (x : Args) (s : State) (p : Proc), s.proc s.cur = some p →
    let only (f : Proc → Proc) (P : Proc → Prop) : Prop := SameMemory s (s.after e x p f) ∧
      OtherProcs s (s.after e x p f) [s.cur] ∧ ∃ q, (s.after e x p f).proc s.cur = some q ∧ q.pc = p.nextPc x ∧
        Spec.Kept p q ∧ P q
    (∀ (d : Nat) (v : Word), only (fun q => q.wrOp d v) fun q =>
      (∀ r, (∀ i, r ≠ .p i) → q.reg r = if p.name d = some r then v else p.reg r) ∧
      (∀ i, q.addr i = if p.name d = some (.a i) then { p.addr i with ptr := v } else p.addr i) ∧
      Spec.SamePreds p q ∧ Spec.SameVectors p q ∧ Spec.FullBits e x p q (p.name d)) ∧
    (∀ (d : Nat) (v : Word), only (fun q => q.wr (.p d) v) fun q =>
      (∀ i, q.predV i = if i = 0 then true else if i = d then v != 0 else p.predV i) ∧
      Spec.SameScalars p q ∧ Spec.SameAddrs p q ∧ Spec.SameVectors p q ∧ Spec.FullBits e x p q (some (.p d))) ∧
    (∀ (d : Nat) (v : AReg), only (fun q => q.wrAddr d v) fun q =>
      (∀ i, q.addr i = if i = d - 40 then v else p.addr i) ∧ (∀ r, (∀ i, r ≠ .p i ∧ r ≠ .a i) → q.reg r = p.reg r) ∧
      Spec.SamePreds p q ∧ Spec.SameVectors p q ∧ Spec.FullBits e x p q (some (.a (d - 40)))) ∧
    (∀ (d : Nat) (v : BitVec 1024), only (fun q => q.setVec d v) fun q =>
      (∀ i, q.vec i = if i = d then v else p.vec i) ∧ (∀ i, q.mask i = p.mask i) ∧
      Spec.SameScalars p q ∧ Spec.SameAddrs p q ∧ Spec.SamePreds p q ∧ Spec.FullBits e x p q none) ∧
    (∀ (d : Nat) (v : BitVec 128), only (fun q => q.setMask d v) fun q =>
      (∀ i, q.mask i = if i = 0 then BitVec.allOnes 128 else if i = d then v else p.mask i) ∧ (∀ i, q.vec i = p.vec i) ∧
      Spec.SameScalars p q ∧ Spec.SameAddrs p q ∧ Spec.SamePreds p q ∧ Spec.FullBits e x p q none)

/-- R57 to R60, R69 to R76: decoding the bytes of a well-formed instruction, whatever follows them, gives that instruction
with every field; and whatever bytes decode to an instruction are the bytes of that well-formed instruction and what follows
them. -/
def Obligations.DecodeEncode : Prop :=
  (∀ (i : Instr) (bs : List Byte), i.wellFormed = true → (opcodeOf i).isSome = true → decode (encode i ++ bs) = .instr i) ∧
  (∀ (bs : List Byte) (i : Instr), decode bs = .instr i →
    i.wellFormed = true ∧ (opcodeOf i).isSome = true ∧ ∃ rest, bs = encode i ++ rest)

/-- Words that spec/ writes out decode to the instructions that it says they are, and encode back. -/
def Obligations.DecodeWords : Prop :=
  ∀ r ∈ Spec.exampleWords, decode (leBytes 8 r.1 ++ leBytes r.2.1 r.2.2.1) = .instr r.2.2.2 ∧
    encode r.2.2.2 = leBytes 8 r.1 ++ leBytes r.2.1 r.2.2.1

/-- R58, R76, R222: with the agenda empty, the core in focus issues. Where the first slot in order holds a process with
nothing due before its next instruction, and the bytes that its aligned address fetches hold no uncorrectable word and decode
to an instruction, the step is that instruction's meaning in the state in which the process is current, and counts the issue;
an instruction that is not ready leaves the issue to the next slot. Bytes that do not decode deliver the cause of the first
check that refuses them, and a misaligned address delivers fault 3. An event of the agenda is that event's meaning. -/
def Obligations.StepRunsInstruction : Prop :=
  (∀ (s : State) (slot pid : Nat) (rest : List (Nat × Nat)) (p : Proc), s.agenda = [] → (s.core s.focus).live = true →
    let u := s.boundary s.focus
    u.candidates s.focus = (slot, pid) :: rest → u.proc pid = some p → u.before pid p = none → u.shareOut p = false →
    (p.pc.toNat % 4 ≠ 0 → step s = .next ((u.counted s.focus slot pid p).deliver pid { cause := 3 } p.pc)) ∧
    (∀ q, p.pc.toNat % 4 = 0 → u.fetchAt p = .ok [q] → u.badPiece [q] = none →
      (∀ r, decode (u.read q.pa q.len) = .reject r →
        step s = .next ((u.counted s.focus slot pid p).deliver pid { cause := r.cause } p.pc)) ∧
      (∀ i t, decode (u.read q.pa q.len) = .instr i → u.mayPass p i = true → exec i (u.ready pid p) = .next t →
        step s = if t.stalled then State.tryAll { t with stalled := false } s.focus rest
          else .next (t.counted s.focus slot pid p)))) ∧
  (∀ (s : State) (i : Instr) (rest : List Input), s.agenda = .event i :: rest → step s = exec i { s with agenda := rest })

/-- R18, R25, R54, R123, R136, R221, R382: the machine after module reset. No process, no live core and no numbered die;
memory lists nothing, every word is full and correctable; tick counts are 0, CR.QUANT is 1,024 and CR.MREV is 1; position n
of a ring holds physical slot n; the rate registers hold (4, 2), (12, 4) and (6, 2) with containment, and the link counters 0;
the transient cap is 1,000; the host function is not presented, and a step leaves the machine as it is. CR.DECWIN's values and
the zero of memory are the model's choice (log entries 4 and 5). -/
def Obligations.ResetState : Prop :=
  let s := State.reset
  s.wf = true ∧ (∀ n, s.proc n = none) ∧ (∀ a, memByte s.mem a = 0) ∧ (∀ w, s.wordFull w = true ∧ nsHas s.ecc w = false) ∧
  (∀ n, (s.core n).live = false ∧ (s.core n).tick = 0 ∧ (s.core n).quant = 1024 ∧ (s.core n).slot = n % 16 ∧
    (s.core n).sb = [] ∧ (s.core n).deque = []) ∧
  (∀ n, s.dieLive n = false ∧ (s.die n).trans = 1000 ∧ (s.die n).ackw = 64 ∧ (s.die n).win = 1024 ∧
    (s.die n).late = 0 ∧ (s.die n).lostCnt = 0 ∧ (s.die n).tagf = 0 ∧ (s.die n).nak = 0 ∧
    ([0, 1, 2].map fun c => ((s.die n).rateK c, (s.die n).rateM c, ((s.die n).rateWord c).getLsbD 16))
      = [(4, 2, true), (12, 4, true), (6, 2, true)]) ∧
  (∀ n, (s.ctx n).st = .empty ∧ (s.queue n).en = false ∧ (s.link n).st = 0) ∧
  s.mrev = 1 ∧ s.funcUp = false ∧ s.wire = [] ∧ s.ctl = [] ∧ s.agenda = [] ∧ step s = .next s

/-- Memory keeps its canonical form, rising addresses and no zero byte, over every step from every state that has it. -/
def Obligations.MemoryKeepsForm : Prop := ∀ s t : State, s.wf = true → step s = .next t → t.wf = true

/-- R218, R229: the machine goes on from every state. No instruction, event or data stops it: a fault of the manual is
delivered to its process, and an event with nothing to move leaves the state as it is. -/
def Obligations.EveryStepGoesOn : Prop := ∀ s : State, Safe s
end

