-- ==== Sys2Proof/Laws/Tbl.lean ====
section
/-! SUPPORT. The laws of finite tables and of memory: reading after a write, and that every operation keeps the
canonical form. -/

namespace Sys2Proof.Machine

variable {α : Type}

theorem tblGet_mem {t : Tbl α} {n : Nat} {v : α} (h : tblGet t n = some v) : (n, v) ∈ t := by
  induction t with
  | nil => simp [tblGet] at h
  | cons x t ih =>
    obtain ⟨k, w⟩ := x
    simp only [tblGet] at h
    split at h
    · simp_all
    · split at h
      · simp at h
      · exact List.mem_cons_of_mem _ (ih h)

theorem tblGet_set (t : Tbl α) (n m : Nat) (v : α) :
    tblGet (tblSet t n v) m = if m = n then some v else tblGet t m := by
  induction t with
  | nil => simp only [tblSet, tblGet]; split <;> simp_all
  | cons h t ih =>
    obtain ⟨k, w⟩ := h
    simp only [tblSet]
    split
    · subst_vars; simp only [tblGet]; split <;> simp_all
    · split
      · simp only [tblGet]; split <;> (repeat' split) <;> simp_all <;> omega
      · simp only [tblGet, ih]; (repeat' split) <;> first | rfl | omega

@[simp] theorem tblGet_set_self (t : Tbl α) (n : Nat) (v : α) : tblGet (tblSet t n v) n = some v := by
  simp [tblGet_set]

theorem tblGet_set_ne (t : Tbl α) {n m : Nat} (v : α) (h : m ≠ n) : tblGet (tblSet t n v) m = tblGet t m := by
  simp [tblGet_set, h]

theorem tblGetD_set (t : Tbl α) (n m : Nat) (v d : α) :
    tblGetD (tblSet t n v) m d = if m = n then v else tblGetD t m d := by
  simp only [tblGetD, tblGet_set]; split <;> rfl

@[simp] theorem tblGetD_set_self (t : Tbl α) (n : Nat) (v d : α) : tblGetD (tblSet t n v) n d = v := by
  simp [tblGetD]

@[simp] theorem tblSet_set (t : Tbl α) (n : Nat) (v w : α) : tblSet (tblSet t n v) n w = tblSet t n w := by
  induction t with
  | nil => simp [tblSet]
  | cons h t ih =>
    obtain ⟨k, u⟩ := h
    simp only [tblSet]
    split
    · simp [tblSet]
    · split
      · simp [tblSet]
      · simp only [tblSet]; simp_all

theorem tblMod_some {t : Tbl α} {n : Nat} {v : α} (f : α → α) (h : tblGet t n = some v) :
    tblMod t n f = tblSet t n (f v) := by simp [tblMod, h]

theorem tblMod_none {t : Tbl α} {n : Nat} (f : α → α) (h : tblGet t n = none) : tblMod t n f = t := by
  simp [tblMod, h]

theorem tblGet_mod (t : Tbl α) (n m : Nat) (f : α → α) :
    tblGet (tblMod t n f) m = if m = n then (tblGet t n).map f else tblGet t m := by
  cases h : tblGet t n with
  | none => rw [tblMod_none f h]; split <;> simp_all
  | some v => rw [tblMod_some f h, tblGet_set]; simp

/-! ### Order -/

/-- Every key of the table is above `n`. -/
def tblAbove (t : Tbl α) (n : Nat) : Prop := ∀ e ∈ t, n < e.1

theorem tblSorted_cons (k : Nat) (w : α) (t : Tbl α) :
    tblSorted ((k, w) :: t) = true ↔ tblAbove t k ∧ tblSorted t = true := by
  induction t generalizing k w with
  | nil => simp [tblSorted, tblAbove]
  | cons h t ih =>
    obtain ⟨b, u⟩ := h
    simp only [tblSorted, Bool.and_eq_true, decide_eq_true_eq, tblAbove, List.mem_cons, forall_eq_or_imp]
    constructor
    · rintro ⟨h1, h2⟩
      have := (ih b u).1 h2
      exact ⟨⟨h1, fun e he => lt_trans h1 (this.1 e he)⟩, h2⟩
    · rintro ⟨⟨h1, -⟩, h2⟩; exact ⟨h1, h2⟩

/-- What a table holds after an entry is set: that entry, and entries of before. -/
theorem mem_tblSet {t : Tbl α} {n : Nat} {v : α} {e : Nat × α} (h : e ∈ tblSet t n v) : e = (n, v) ∨ e ∈ t := by
  induction t with
  | nil => exact .inl (List.mem_singleton.1 h)
  | cons x t ih =>
    unfold tblSet at h
    (repeat' split at h) <;> simp only [List.mem_cons] at h ⊢ <;> tauto

theorem tblAbove_set {t : Tbl α} {b n : Nat} (v : α) (h : tblAbove t b) (hb : b < n) : tblAbove (tblSet t n v) b :=
  fun e he => (mem_tblSet he).elim (fun heq => heq ▸ hb) (h e)

theorem tblSorted_set {t : Tbl α} (n : Nat) (v : α) (h : tblSorted t = true) : tblSorted (tblSet t n v) = true := by
  induction t with
  | nil => rfl
  | cons x t ih =>
    obtain ⟨k, w⟩ := x
    have hh := (tblSorted_cons k w t).1 h
    simp only [tblSet]
    split
    · subst_vars; exact (tblSorted_cons k v t).2 hh
    · split
      · refine (tblSorted_cons n v _).2 ⟨?_, h⟩
        intro e he; rcases List.mem_cons.1 he with rfl | he
        · assumption
        · exact lt_trans ‹n < k› (hh.1 e he)
      · exact (tblSorted_cons k w _).2 ⟨tblAbove_set v hh.1 (by omega), ih hh.2⟩

theorem mem_tblErase {t : Tbl α} {n : Nat} {e : Nat × α} (h : e ∈ tblErase t n) : e ∈ t := by
  induction t with
  | nil => simp [tblErase] at h
  | cons x t ih =>
    obtain ⟨k, w⟩ := x
    simp only [tblErase] at h
    split at h
    · exact List.mem_cons_of_mem _ h
    · split at h
      · exact h
      · rcases List.mem_cons.1 h with rfl | h
        · simp
        · exact List.mem_cons_of_mem _ (ih h)

theorem tblSorted_erase {t : Tbl α} (n : Nat) (h : tblSorted t = true) : tblSorted (tblErase t n) = true := by
  induction t with
  | nil => rfl
  | cons x t ih =>
    obtain ⟨k, w⟩ := x
    have hh := (tblSorted_cons k w t).1 h
    simp only [tblErase]
    split
    · exact hh.2
    · split
      · exact h
      · exact (tblSorted_cons k w _).2 ⟨fun e he => hh.1 e (mem_tblErase he), ih hh.2⟩

theorem tblGet_above {t : Tbl α} {n m : Nat} (h : tblAbove t n) (hm : m ≤ n) : tblGet t m = none := by
  cases t with
  | nil => rfl
  | cons x t =>
    obtain ⟨k, w⟩ := x
    have hk : n < k := h (k, w) (by simp)
    simp only [tblGet]; split
    · omega
    · split
      · rfl
      · omega

theorem tblGet_erase {t : Tbl α} (n m : Nat) (h : tblSorted t = true) :
    tblGet (tblErase t n) m = if m = n then none else tblGet t m := by
  induction t with
  | nil => simp [tblErase, tblGet]
  | cons x t ih =>
    obtain ⟨k, w⟩ := x
    have hh := (tblSorted_cons k w t).1 h
    simp only [tblErase]
    split
    · subst_vars
      simp only [tblGet]
      split
      · subst_vars; exact tblGet_above hh.1 le_rfl
      · split
        · exact tblGet_above hh.1 (by omega)
        · rfl
    · split
      · split
        · subst_vars; simp only [tblGet]; simp_all
        · rfl
      · simp only [tblGet, ih hh.2]
        (repeat' split) <;> simp_all

/-! ### Memory -/

theorem Memory.wf_iff (m : Memory) : m.wf = true ↔ tblSorted m = true ∧ ∀ c ∈ m, c.2 ≠ 0 := by
  simp [Memory.wf]

theorem memPut_wf {m : Memory} (a : Nat) (b : Byte) (h : m.wf = true) : (memPut m a b).wf = true := by
  rw [Memory.wf_iff] at *
  unfold memPut
  split
  · exact ⟨tblSorted_erase a h.1, fun c hc => h.2 c (mem_tblErase hc)⟩
  · refine ⟨tblSorted_set a b h.1, fun c hc => ?_⟩
    rcases mem_tblSet hc with rfl | hc
    · assumption
    · exact h.2 c hc

theorem memWrite_wf {m : Memory} (a : Nat) (bs : List Byte) (h : m.wf = true) : (memWrite m a bs).wf = true := by
  induction bs generalizing m a with
  | nil => exact h
  | cons b bs ih => exact ih (a + 1) (memPut_wf a b h)

theorem memByte_put {m : Memory} (a c : Nat) (b : Byte) (h : m.wf = true) :
    memByte (memPut m a b) c = if c = a then b else memByte m c := by
  have hs := ((Memory.wf_iff m).1 h).1
  unfold memPut memByte tblGetD
  split
  · rw [tblGet_erase a c hs]; split <;> simp_all
  · rw [tblGet_set]; split <;> rfl

/-- One byte after a write: the byte written there, or the byte before. -/
theorem memByte_write {m : Memory} (a c : Nat) (bs : List Byte) (h : m.wf = true) :
    memByte (memWrite m a bs) c = if a ≤ c ∧ c < a + bs.length then bs.getD (c - a) 0 else memByte m c := by
  induction bs generalizing m a with
  | nil => rw [if_neg (by simp only [List.length_nil]; omega)]; rfl
  | cons b bs ih =>
    rw [show memWrite m a (b :: bs) = memWrite (memPut m a b) (a + 1) bs from rfl, ih (a + 1) (memPut_wf a b h),
      memByte_put a c b h]
    simp only [List.length_cons]
    by_cases h1 : c = a
    · subst h1; simp
    · by_cases h2 : a + 1 ≤ c ∧ c < a + 1 + bs.length
      · rw [if_pos h2, if_pos (by omega)]
        rw [show c - a = (c - (a + 1)) + 1 by omega]; simp
      · rw [if_neg h2, if_neg h1, if_neg (by omega)]

theorem memRead_length (m : Memory) (a n : Nat) : (memRead m a n).length = n := by
  induction n generalizing a with
  | zero => rfl
  | succ n ih => simp [memRead, ih]

theorem memRead_congr {m m' : Memory} {a n : Nat} (h : ∀ c, a ≤ c → c < a + n → memByte m' c = memByte m c) :
    memRead m' a n = memRead m a n := by
  induction n generalizing a with
  | zero => rfl
  | succ n ih =>
    simp only [memRead, h a le_rfl (by omega)]
    rw [ih fun c h1 h2 => h c (by omega) (by omega)]

/-- A read of the range written gives the bytes written. -/
theorem memRead_write_self {m : Memory} (a : Nat) (bs : List Byte) (h : m.wf = true) :
    memRead (memWrite m a bs) a bs.length = bs := by
  have key : ∀ (m : Memory) (a : Nat) (bs : List Byte),
      (∀ i, i < bs.length → memByte m (a + i) = bs.getD i 0) → memRead m a bs.length = bs := by
    intro m a bs
    induction bs generalizing a with
    | nil => intro; rfl
    | cons b bs ih =>
      intro hb
      have h0 := hb 0 (by simp)
      simp only [List.length_cons, memRead]
      rw [ih (a + 1) fun i hi => by
        have := hb (i + 1) (by simp; omega)
        rw [show a + 1 + i = a + (i + 1) by omega, this]; simp]
      simp_all
  refine key _ a bs fun i hi => ?_
  rw [memByte_write a (a + i) bs h, if_pos (by omega)]
  simp

/-- A read of a range that does not meet the range written is unchanged. -/
theorem memRead_write_disjoint {m : Memory} {a n c : Nat} (bs : List Byte) (h : m.wf = true)
    (hd : c + n ≤ a ∨ a + bs.length ≤ c) : memRead (memWrite m a bs) c n = memRead m c n :=
  memRead_congr fun x h1 h2 => by rw [memByte_write a x bs h, if_neg (by omega)]

theorem bytesNat_natBytes (n v : Nat) : bytesNat (natBytes n v) = v % 256 ^ n := by
  induction n generalizing v with
  | zero => simp [natBytes, bytesNat, Nat.mod_one]
  | succ n ih =>
    simp only [natBytes, bytesNat, ih]
    rw [pow_succ', Nat.mod_mul]
    rfl

theorem natBytes_length (n v : Nat) : (natBytes n v).length = n := by
  induction n generalizing v with
  | zero => rfl
  | succ n ih => simp [natBytes, ih]

end Sys2Proof.Machine
end

