-- ==== Sys2Proof/Laws/Issue.lean ====
section
/-! SUPPORT. What the fetch of an instruction and one step come to, said once. -/

namespace Sys2Proof.Machine

theorem read_length (s : State) (a n : Nat) : (s.read a n).length = n := memRead_length _ _ _

theorem readPieces_one (s : State) (q : Piece) : s.readPieces [q] = s.read q.pa q.len := by
  simp [State.readPieces]

theorem instrBytes_le (bs : List Byte) : instrBytes bs ≤ bs.length := by
  unfold instrBytes; split <;> omega

/-- A word of a shorter range is a word of the longer one. -/
theorem mem_wordsOf {a m n w : Nat} (h : m ≤ n) (hw : w ∈ wordsOf a m) : w ∈ wordsOf a n := by
  simp only [wordsOf, unitsOf] at *
  split at hw
  · simp at hw
  · rw [if_neg (by omega)]
    simp only [List.mem_map, List.mem_range] at *
    obtain ⟨i, hi, rfl⟩ := hw
    exact ⟨i, by omega, rfl⟩

theorem badWord_le {s : State} {a m n : Nat} (h : m ≤ n) (hb : s.badWord a n = none) : s.badWord a m = none := by
  simp only [State.badWord, Option.map_eq_none_iff, List.find?_eq_none] at *
  exact fun w hw => hb w (mem_wordsOf h hw)

theorem badPiece_cut {s : State} {q : Piece} {n : Nat} (h : n ≤ q.len) (hb : s.badPiece [q] = none) :
    s.badPiece [cutPiece n q] = none := by
  simp only [State.badPiece, List.findSome?_cons, List.findSome?_nil] at hb ⊢
  have : s.badWord q.pa q.len = none := by
    revert hb; cases s.badWord q.pa q.len <;> simp
  simp [cutPiece, badWord_le h this, State.badFill]

/-- A fetch of one piece with no uncorrectable word is the decoder's answer on its bytes. -/
theorem fetch_one {s : State} {p : Proc} {q : Piece} (hpc : p.pc.toNat % 4 = 0) (hf : s.fetchAt p = .ok [q])
    (hb : s.badPiece [q] = none) :
    s.fetch p = match decode (s.read q.pa q.len) with
      | .instr i => .instr i
      | .reject r => .fault { cause := r.cause } := by
  have h : instrBytes (s.read q.pa q.len) ≤ q.len := by
    have := instrBytes_le (s.read q.pa q.len); rwa [read_length] at this
  simp only [State.fetch, hpc, bne_self_eq_false, Bool.false_eq_true, if_false, hf, readPieces_one, List.map_cons,
    List.map_nil, badPiece_cut h hb] <;> rfl

theorem fetch_misaligned {s : State} {p : Proc} (h : p.pc.toNat % 4 ≠ 0) : s.fetch p = .fault { cause := 3 } := by
  simp [State.fetch, h]

/-- With the agenda empty, a live core in focus lets its candidates try. -/
theorem step_issue {s : State} (h : s.agenda = []) (hl : (s.core s.focus).live = true) :
    step s = (s.boundary s.focus).tryAll s.focus ((s.boundary s.focus).candidates s.focus) := by
  simp only [step, h, State.issue, hl, if_true]

end Sys2Proof.Machine
end

