-- ==== Sys2Proof/Laws/Memory.lean ====
section
/-! SUPPORT. The operations that rewrite ranges of memory keep its canonical form: a clear, a migration's copy, and the
restore of an image's region. -/

namespace Sys2Proof.Machine

variable {α : Type}

theorem tblSorted_iff (t : Tbl α) : tblSorted t = true ↔ t.Pairwise fun a b => a.1 < b.1 := by
  induction t with
  | nil => simp [tblSorted]
  | cons h t ih =>
    obtain ⟨k, w⟩ := h
    rw [tblSorted_cons, List.pairwise_cons, ih]; rfl

theorem tblSorted_filter {t : Tbl α} (q : Nat × α → Bool) (h : tblSorted t = true) : tblSorted (t.filter q) = true :=
  (tblSorted_iff _).2 (((tblSorted_iff t).1 h).filter q)

/-- What remains of memory after a filter keeps its form. -/
theorem memFilter_wf {m : Memory} (q : Host.Cell → Bool) (h : m.wf = true) : Memory.wf (m.filter q) = true := by
  rw [Memory.wf_iff] at *
  exact ⟨tblSorted_filter q h.1, fun c hc => h.2 c (List.mem_filter.1 hc).1⟩

theorem tblSorted_copy {t : Tbl α} (src dst n : Nat) (h : tblSorted t = true) : tblSorted (tblCopy t src dst n) = true := by
  have hp := (tblSorted_iff t).1 h
  refine (tblSorted_iff _).2 ?_
  simp only [tblCopy, List.pairwise_append, List.mem_append, List.mem_map, List.mem_filter, decide_eq_true_eq]
  refine ⟨⟨hp.filter _, ?_, ?_⟩, hp.filter _, ?_⟩
  · rw [List.pairwise_map]
    refine List.Pairwise.imp_of_mem ?_ (hp.filter _)
    intro a b ha hb hab
    simp only [List.mem_filter, decide_eq_true_eq] at ha hb
    show a.1 - src + dst < b.1 - src + dst
    omega
  · rintro a ⟨-, ha⟩ _ ⟨b, ⟨-, hb⟩, rfl⟩
    show a.1 < b.1 - src + dst
    omega
  · rintro a ha b ⟨-, hb⟩
    rcases ha with ⟨-, ha⟩ | ⟨c, ⟨-, hc⟩, rfl⟩
    · omega
    · show c.1 - src + dst < b.1
      omega

theorem memCopy_wf {m : Memory} (src dst n : Nat) (h : m.wf = true) : Memory.wf (tblCopy m src dst n) = true := by
  rw [Memory.wf_iff] at *
  refine ⟨tblSorted_copy src dst n h.1, fun c hc => ?_⟩
  simp only [tblCopy, List.mem_append, List.mem_map, List.mem_filter] at hc
  rcases hc with (⟨hc, -⟩ | ⟨d, ⟨hd, -⟩, rfl⟩) | ⟨hc, -⟩
  · exact h.2 c hc
  · exact h.2 d hd
  · exact h.2 c hc

theorem memPuts_wf {m : Memory} (cs : List Host.Cell) (base : Nat) (h : m.wf = true) :
    Memory.wf (cs.foldl (fun m c => memPut m (base + c.1) c.2) m) = true := by
  induction cs generalizing m with
  | nil => exact h
  | cons c cs ih => exact ih (memPut_wf _ _ h)

theorem clearRange_wf {s : State} (a n : Nat) (h : s.mem.wf = true) : (s.clearRange a n).mem.wf = true := memFilter_wf _ h

theorem putRegion_wf {s : State} (base n : Nat) (r : Region) (h : s.mem.wf = true) : (s.putRegion base n r).mem.wf = true :=
  memPuts_wf r.cells base (clearRange_wf base n h)

end Sys2Proof.Machine
end

