-- ==== Sys2Proof/Laws/PerInstr.lean ====
section
/-! SUPPORT. One lemma per constructor of Instr: an instruction has an assigned major and function code that fit their
fields, and a hardware event has no encoding. -/

namespace Sys2Proof.Laws.Opcode

/-- An instruction's major and function code fit OP and FN[2:0] (R59) and name an entry of the opcode map (R74); a
hardware event has no bytes. -/
def Statement (i : Instr) : Prop :=
  match Machine.opcodeOf i with
  | none => encode i = []
  | some (op, fn, _) => op < 256 ∧ fn < 8 ∧ (Machine.findEntry op fn).isSome = true

/-- The statement for an instruction, from its two codes. -/
theorem of_code {i : Instr} {op fn : Nat} {x : Args} (h : Machine.opcodeOf i = some (op, fn, x))
    (hc : (Nat.blt op 256 && Nat.blt fn 8 && (Machine.findEntry op fn).isSome) = true) : Statement i := by
  unfold Statement; rw [h]
  simp only [Bool.and_eq_true, Nat.blt_eq] at hc
  exact ⟨hc.1.1, hc.1.2, hc.2⟩

theorem add (x : Args) : Statement (.add x) := of_code rfl rfl
theorem sub (x : Args) : Statement (.sub x) := of_code rfl rfl
theorem mul (x : Args) : Statement (.mul x) := of_code rfl rfl
theorem mulh (x : Args) : Statement (.mulh x) := of_code rfl rfl
theorem div (x : Args) : Statement (.div x) := of_code rfl rfl
theorem rem (x : Args) : Statement (.rem x) := of_code rfl rfl
theorem and (x : Args) : Statement (.and x) := of_code rfl rfl
theorem or (x : Args) : Statement (.or x) := of_code rfl rfl
theorem xor (x : Args) : Statement (.xor x) := of_code rfl rfl
theorem andn (x : Args) : Statement (.andn x) := of_code rfl rfl
theorem shl (x : Args) : Statement (.shl x) := of_code rfl rfl
theorem shr (x : Args) : Statement (.shr x) := of_code rfl rfl
theorem sra (x : Args) : Statement (.sra x) := of_code rfl rfl
theorem rol (x : Args) : Statement (.rol x) := of_code rfl rfl
theorem clz (x : Args) : Statement (.clz x) := of_code rfl rfl
theorem ctz (x : Args) : Statement (.ctz x) := of_code rfl rfl
theorem popc (x : Args) : Statement (.popc x) := of_code rfl rfl
theorem min (x : Args) : Statement (.min x) := of_code rfl rfl
theorem max (x : Args) : Statement (.max x) := of_code rfl rfl
theorem abs (x : Args) : Statement (.abs x) := of_code rfl rfl
theorem neg (x : Args) : Statement (.neg x) := of_code rfl rfl
theorem mov (x : Args) : Statement (.mov x) := of_code rfl rfl
theorem movi (x : Args) : Statement (.movi x) := of_code rfl rfl
theorem extb (x : Args) : Statement (.extb x) := of_code rfl rfl
theorem insb (x : Args) : Statement (.insb x) := of_code rfl rfl
theorem sext (x : Args) : Statement (.sext x) := of_code rfl rfl
theorem zext (x : Args) : Statement (.zext x) := of_code rfl rfl
theorem cmp (x : Args) : Statement (.cmp x) := of_code rfl rfl
theorem sel (x : Args) : Statement (.sel x) := of_code rfl rfl
theorem pset (x : Args) : Statement (.pset x) := of_code rfl rfl
theorem fadd (x : Args) : Statement (.fadd x) := of_code rfl rfl
theorem fsub (x : Args) : Statement (.fsub x) := of_code rfl rfl
theorem fmul (x : Args) : Statement (.fmul x) := of_code rfl rfl
theorem ffma (x : Args) : Statement (.ffma x) := of_code rfl rfl
theorem fdiv (x : Args) : Statement (.fdiv x) := of_code rfl rfl
theorem fsqrt (x : Args) : Statement (.fsqrt x) := of_code rfl rfl
theorem fmin (x : Args) : Statement (.fmin x) := of_code rfl rfl
theorem fmax (x : Args) : Statement (.fmax x) := of_code rfl rfl
theorem fabs (x : Args) : Statement (.fabs x) := of_code rfl rfl
theorem fneg (x : Args) : Statement (.fneg x) := of_code rfl rfl
theorem fcmp (x : Args) : Statement (.fcmp x) := of_code rfl rfl
theorem fcvt (x : Args) : Statement (.fcvt x) := of_code rfl rfl
theorem fcvi (x : Args) : Statement (.fcvi x) := of_code rfl rfl
theorem icvf (x : Args) : Statement (.icvf x) := of_code rfl rfl
theorem frnd (x : Args) : Statement (.frnd x) := of_code rfl rfl
theorem fcls (x : Args) : Statement (.fcls x) := of_code rfl rfl
theorem amk (x : Args) : Statement (.amk x) := of_code rfl rfl
theorem anar (x : Args) : Statement (.anar x) := of_code rfl rfl
theorem aadv (x : Args) : Statement (.aadv x) := of_code rfl rfl
theorem aget (x : Args) : Statement (.aget x) := of_code rfl rfl
theorem asetp (x : Args) : Statement (.asetp x) := of_code rfl rfl
theorem achk (x : Args) : Statement (.achk x) := of_code rfl rfl
theorem bra (x : Args) : Statement (.bra x) := of_code rfl rfl
theorem jmp (x : Args) : Statement (.jmp x) := of_code rfl rfl
theorem call (x : Args) : Statement (.call x) := of_code rfl rfl
theorem callr (x : Args) : Statement (.callr x) := of_code rfl rfl
theorem ret (x : Args) : Statement (.ret x) := of_code rfl rfl
theorem nop (x : Args) : Statement (.nop x) := of_code rfl rfl
theorem trap (x : Args) : Statement (.trap x) := of_code rfl rfl
theorem brk (x : Args) : Statement (.brk x) := of_code rfl rfl
theorem eret (x : Args) : Statement (.eret x) := of_code rfl rfl
theorem crr (x : Args) : Statement (.crr x) := of_code rfl rfl
theorem crw (x : Args) : Statement (.crw x) := of_code rfl rfl
theorem crQuantWrite (x : Args) : Statement (.crQuantWrite x) := of_code rfl rfl
theorem crDecwinWrite (x : Args) : Statement (.crDecwinWrite x) := of_code rfl rfl
theorem crFpcWrite (x : Args) : Statement (.crFpcWrite x) := of_code rfl rfl
theorem tick (x : Args) : Statement (.tick x) := of_code rfl rfl
theorem self (x : Args) : Statement (.self x) := of_code rfl rfl
theorem ldl (x : Args) : Statement (.ldl x) := of_code rfl rfl
theorem stl (x : Args) : Statement (.stl x) := of_code rfl rfl
theorem ldc (x : Args) : Statement (.ldc x) := of_code rfl rfl
theorem stc (x : Args) : Statement (.stc x) := of_code rfl rfl
theorem ldg (x : Args) : Statement (.ldg x) := of_code rfl rfl
theorem stg (x : Args) : Statement (.stg x) := of_code rfl rfl
theorem lds (x : Args) : Statement (.lds x) := of_code rfl rfl
theorem stf (x : Args) : Statement (.stf x) := of_code rfl rfl
theorem febRd (x : Args) : Statement (.febRd x) := of_code rfl rfl
theorem febSet (x : Args) : Statement (.febSet x) := of_code rfl rfl
theorem febClr (x : Args) : Statement (.febClr x) := of_code rfl rfl
theorem amo (x : Args) : Statement (.amo x) := of_code rfl rfl
theorem prf (x : Args) : Statement (.prf x) := of_code rfl rfl
theorem cln (x : Args) : Statement (.cln x) := of_code rfl rfl
theorem inv (x : Args) : Statement (.inv x) := of_code rfl rfl
theorem cpy (x : Args) : Statement (.cpy x) := of_code rfl rfl
theorem cpys (x : Args) : Statement (.cpys x) := of_code rfl rfl
theorem cpyg (x : Args) : Statement (.cpyg x) := of_code rfl rfl
theorem zenc (x : Args) : Statement (.zenc x) := of_code rfl rfl
theorem zdec (x : Args) : Statement (.zdec x) := of_code rfl rfl
theorem msrq (x : Args) : Statement (.msrq x) := of_code rfl rfl
theorem get (x : Args) : Statement (.get x) := of_code rfl rfl
theorem getBlk (x : Args) : Statement (.getBlk x) := of_code rfl rfl
theorem put (x : Args) : Statement (.put x) := of_code rfl rfl
theorem putBlk (x : Args) : Statement (.putBlk x) := of_code rfl rfl
theorem ramo (x : Args) : Statement (.ramo x) := of_code rfl rfl
theorem fenceAcq (x : Args) : Statement (.fenceAcq x) := of_code rfl rfl
theorem fenceRel (x : Args) : Statement (.fenceRel x) := of_code rfl rfl
theorem fenceFull (x : Args) : Statement (.fenceFull x) := of_code rfl rfl
theorem sbd (x : Args) : Statement (.sbd x) := of_code rfl rfl
theorem waitc (x : Args) : Statement (.waitc x) := of_code rfl rfl
theorem tlbiPg (x : Args) : Statement (.tlbiPg x) := of_code rfl rfl
theorem tlbiAll (x : Args) : Statement (.tlbiAll x) := of_code rfl rfl
theorem fbrd (x : Args) : Statement (.fbrd x) := of_code rfl rfl
theorem rplyAll (x : Args) : Statement (.rplyAll x) := of_code rfl rfl
theorem rplyOne (x : Args) : Statement (.rplyOne x) := of_code rfl rfl
theorem rplyDecl (x : Args) : Statement (.rplyDecl x) := of_code rfl rfl
theorem phot (x : Args) : Statement (.phot x) := of_code rfl rfl
theorem pmig (x : Args) : Statement (.pmig x) := of_code rfl rfl
theorem rmv (x : Args) : Statement (.rmv x) := of_code rfl rfl
theorem rmack (x : Args) : Statement (.rmack x) := of_code rfl rfl
theorem omark (x : Args) : Statement (.omark x) := of_code rfl rfl
theorem wdogKick (x : Args) : Statement (.wdogKick x) := of_code rfl rfl
theorem wdogLim (x : Args) : Statement (.wdogLim x) := of_code rfl rfl
theorem spawn (x : Args) : Statement (.spawn x) := of_code rfl rfl
theorem forkr (x : Args) : Statement (.forkr x) := of_code rfl rfl
theorem jinit (x : Args) : Statement (.jinit x) := of_code rfl rfl
theorem join (x : Args) : Statement (.join x) := of_code rfl rfl
theorem pushk (x : Args) : Statement (.pushk x) := of_code rfl rfl
theorem stop (x : Args) : Statement (.stop x) := of_code rfl rfl
theorem yield (x : Args) : Statement (.yield x) := of_code rfl rfl
theorem spri (x : Args) : Statement (.spri x) := of_code rfl rfl
theorem sleep (x : Args) : Statement (.sleep x) := of_code rfl rfl
theorem send (x : Args) : Statement (.send x) := of_code rfl rfl
theorem recv (x : Args) : Statement (.recv x) := of_code rfl rfl
theorem sendv (x : Args) : Statement (.sendv x) := of_code rfl rfl
theorem recvv (x : Args) : Statement (.recvv x) := of_code rfl rfl
theorem sendt (x : Args) : Statement (.sendt x) := of_code rfl rfl
theorem recvt (x : Args) : Statement (.recvt x) := of_code rfl rfl
theorem chb (x : Args) : Statement (.chb x) := of_code rfl rfl
theorem chqBind (x : Args) : Statement (.chqBind x) := of_code rfl rfl
theorem chqStat (x : Args) : Statement (.chqStat x) := of_code rfl rfl
theorem chcl (x : Args) : Statement (.chcl x) := of_code rfl rfl
theorem altb (x : Args) : Statement (.altb x) := of_code rfl rfl
theorem altg (x : Args) : Statement (.altg x) := of_code rfl rfl
theorem altw (x : Args) : Statement (.altw x) := of_code rfl rfl
theorem gsend (x : Args) : Statement (.gsend x) := of_code rfl rfl
theorem gred (x : Args) : Statement (.gred x) := of_code rfl rfl
theorem gqry (x : Args) : Statement (.gqry x) := of_code rfl rfl
theorem gsw (x : Args) : Statement (.gsw x) := of_code rfl rfl
theorem bini (x : Args) : Statement (.bini x) := of_code rfl rfl
theorem barv (x : Args) : Statement (.barv x) := of_code rfl rfl
theorem bwt (x : Args) : Statement (.bwt x) := of_code rfl rfl
theorem baw (x : Args) : Statement (.baw x) := of_code rfl rfl
theorem badd (x : Args) : Statement (.badd x) := of_code rfl rfl
theorem bgen (x : Args) : Statement (.bgen x) := of_code rfl rfl
theorem qpost (x : Args) : Statement (.qpost x) := of_code rfl rfl
theorem vldl (x : Args) : Statement (.vldl x) := of_code rfl rfl
theorem vstl (x : Args) : Statement (.vstl x) := of_code rfl rfl
theorem vldc (x : Args) : Statement (.vldc x) := of_code rfl rfl
theorem vstc (x : Args) : Statement (.vstc x) := of_code rfl rfl
theorem vldg (x : Args) : Statement (.vldg x) := of_code rfl rfl
theorem vstg (x : Args) : Statement (.vstg x) := of_code rfl rfl
theorem vgat (x : Args) : Statement (.vgat x) := of_code rfl rfl
theorem vsca (x : Args) : Statement (.vsca x) := of_code rfl rfl
theorem vadd (x : Args) : Statement (.vadd x) := of_code rfl rfl
theorem vsub (x : Args) : Statement (.vsub x) := of_code rfl rfl
theorem vmul (x : Args) : Statement (.vmul x) := of_code rfl rfl
theorem vfma (x : Args) : Statement (.vfma x) := of_code rfl rfl
theorem vdiv (x : Args) : Statement (.vdiv x) := of_code rfl rfl
theorem vsqrt (x : Args) : Statement (.vsqrt x) := of_code rfl rfl
theorem vmin (x : Args) : Statement (.vmin x) := of_code rfl rfl
theorem vmax (x : Args) : Statement (.vmax x) := of_code rfl rfl
theorem vabs (x : Args) : Statement (.vabs x) := of_code rfl rfl
theorem vneg (x : Args) : Statement (.vneg x) := of_code rfl rfl
theorem vcmp (x : Args) : Statement (.vcmp x) := of_code rfl rfl
theorem vsel (x : Args) : Statement (.vsel x) := of_code rfl rfl
theorem vand (x : Args) : Statement (.vand x) := of_code rfl rfl
theorem vor (x : Args) : Statement (.vor x) := of_code rfl rfl
theorem vxor (x : Args) : Statement (.vxor x) := of_code rfl rfl
theorem vshl (x : Args) : Statement (.vshl x) := of_code rfl rfl
theorem vshr (x : Args) : Statement (.vshr x) := of_code rfl rfl
theorem vsra (x : Args) : Statement (.vsra x) := of_code rfl rfl
theorem vcvt (x : Args) : Statement (.vcvt x) := of_code rfl rfl
theorem vred (x : Args) : Statement (.vred x) := of_code rfl rfl
theorem vprm (x : Args) : Statement (.vprm x) := of_code rfl rfl
theorem vshf (x : Args) : Statement (.vshf x) := of_code rfl rfl
theorem vbc (x : Args) : Statement (.vbc x) := of_code rfl rfl
theorem vext (x : Args) : Statement (.vext x) := of_code rfl rfl
theorem vins (x : Args) : Statement (.vins x) := of_code rfl rfl
theorem vexp (x : Args) : Statement (.vexp x) := of_code rfl rfl
theorem vlog (x : Args) : Statement (.vlog x) := of_code rfl rfl
theorem vsin (x : Args) : Statement (.vsin x) := of_code rfl rfl
theorem vcos (x : Args) : Statement (.vcos x) := of_code rfl rfl
theorem vtanh (x : Args) : Statement (.vtanh x) := of_code rfl rfl
theorem verf (x : Args) : Statement (.verf x) := of_code rfl rfl
theorem vrsq (x : Args) : Statement (.vrsq x) := of_code rfl rfl
theorem vrcp (x : Args) : Statement (.vrcp x) := of_code rfl rfl
theorem vrng (x : Args) : Statement (.vrng x) := of_code rfl rfl
theorem vcls (x : Args) : Statement (.vcls x) := of_code rfl rfl
theorem kand (x : Args) : Statement (.kand x) := of_code rfl rfl
theorem kor (x : Args) : Statement (.kor x) := of_code rfl rfl
theorem kxor (x : Args) : Statement (.kxor x) := of_code rfl rfl
theorem knot (x : Args) : Statement (.knot x) := of_code rfl rfl
theorem kpop (x : Args) : Statement (.kpop x) := of_code rfl rfl
theorem kmov (x : Args) : Statement (.kmov x) := of_code rfl rfl
theorem vscl (x : Args) : Statement (.vscl x) := of_code rfl rfl
theorem vqdc (x : Args) : Statement (.vqdc x) := of_code rfl rfl
theorem tcfg (x : Args) : Statement (.tcfg x) := of_code rfl rfl
theorem tld (x : Args) : Statement (.tld x) := of_code rfl rfl
theorem tst (x : Args) : Statement (.tst x) := of_code rfl rfl
theorem tmma (x : Args) : Statement (.tmma x) := of_code rfl rfl
theorem tzr (x : Args) : Statement (.tzr x) := of_code rfl rfl
theorem trd (x : Args) : Statement (.trd x) := of_code rfl rfl
theorem twr (x : Args) : Statement (.twr x) := of_code rfl rfl
theorem txp (x : Args) : Statement (.txp x) := of_code rfl rfl
theorem tbs (x : Args) : Statement (.tbs x) := of_code rfl rfl
theorem xaccV (x : Args) : Statement (.xaccV x) := of_code rfl rfl
theorem xaccW (x : Args) : Statement (.xaccW x) := of_code rfl rfl
theorem xrd (x : Args) : Statement (.xrd x) := of_code rfl rfl
theorem xrdSt (x : Args) : Statement (.xrdSt x) := of_code rfl rfl
theorem xrdWd (x : Args) : Statement (.xrdWd x) := of_code rfl rfl
theorem tcvt (x : Args) : Statement (.tcvt x) := of_code rfl rfl
theorem faultDelivery (pid : Nat) : Statement (.faultDelivery pid) := rfl
theorem delayedFaultDelivery (pid : Nat) : Statement (.delayedFaultDelivery pid) := rfl
theorem faultRecordSend (core : Nat) : Statement (.faultRecordSend core) := rfl
theorem storeBufferPerform (core : Nat) : Statement (.storeBufferPerform core) := rfl
theorem ldgMissReturn (pid : Nat) : Statement (.ldgMissReturn pid) := rfl
theorem copyEngineChunk (cluster : Nat) : Statement (.copyEngineChunk cluster) := rfl
theorem engineComplete (cluster : Nat) : Statement (.engineComplete cluster) := rfl
theorem memoryServerRequestTake (die server : Nat) : Statement (.memoryServerRequestTake die server) := rfl
theorem memoryServerRequestComplete (die server : Nat) : Statement (.memoryServerRequestComplete die server) := rfl
theorem workQueuePost (queue : Nat) (words : List Word) : Statement (.workQueuePost queue words) := rfl
theorem qcfgWrite (queue : Nat) (value : Word) : Statement (.qcfgWrite queue value) := rfl
theorem qcmplWrite (queue : Nat) (value : Word) : Statement (.qcmplWrite queue value) := rfl
theorem qcheadWrite (queue : Nat) (value : Word) : Statement (.qcheadWrite queue value) := rfl
theorem launchRecordTake (queue : Nat) : Statement (.launchRecordTake queue) := rfl
theorem completionEntryWrite (queue : Nat) : Statement (.completionEntryWrite queue) := rfl
theorem cxlMemRead (offset count : Nat) : Statement (.cxlMemRead offset count) := rfl
theorem cxlMemWrite (offset : Nat) (bytes : List Byte) : Statement (.cxlMemWrite offset bytes) := rfl
theorem create : Statement (.create) := rfl
theorem kernelLoad (offsets frames : List Nat) : Statement (.kernelLoad offsets frames) := rfl
theorem bind (bases : List Nat) (grants : List (Nat × Nat × Nat)) : Statement (.bind bases grants) := rfl
theorem suspend : Statement (.suspend) := rfl
theorem resume : Statement (.resume) := rfl
theorem save : Statement (.save) := rfl
theorem contextImageWrite (ctx : Nat) : Statement (.contextImageWrite ctx) := rfl
theorem restore (accepts : Bool) (bases : List Nat) : Statement (.restore accepts bases) := rfl
theorem destroy : Statement (.destroy) := rfl
theorem queueAssign : Statement (.queueAssign) := rfl
theorem contextDrainEnd (ctx : Nat) : Statement (.contextDrainEnd ctx) := rfl
theorem watchdogExpiry (core ctx : Nat) : Statement (.watchdogExpiry core ctx) := rfl
theorem rmapAckWindowExpiry (die ctx : Nat) : Statement (.rmapAckWindowExpiry die ctx) := rfl
theorem budgetPeriodStart (ofDie : Bool) (unit : Nat) : Statement (.budgetPeriodStart ofDie unit) := rfl
theorem wdogKickArrival (index : Nat) : Statement (.wdogKickArrival index) := rfl
theorem rmackArrival (index : Nat) : Statement (.rmackArrival index) := rfl
theorem orderLogDrain (ctx : Nat) : Statement (.orderLogDrain ctx) := rfl
theorem rmapVersionInstall (die : Nat) : Statement (.rmapVersionInstall die) := rfl
theorem coreRetire (die cluster slot : Nat) : Statement (.coreRetire die cluster slot) := rfl
theorem dieLoss (die : Nat) : Statement (.dieLoss die) := rfl
theorem moduleReset (boot : BootPlan) : Statement (.moduleReset boot) := rfl
theorem hostFunctionPresent : Statement (.hostFunctionPresent) := rfl
theorem transientCapStep (die : Nat) (up : Bool) : Statement (.transientCapStep die up) := rfl
theorem persistentCapSet (die mhz : Nat) : Statement (.persistentCapSet die mhz) := rfl
theorem debugHalt (mgmt ctx rank : Nat) : Statement (.debugHalt mgmt ctx rank) := rfl
theorem debugHaltEnd (mgmt ctx rank : Nat) : Statement (.debugHaltEnd mgmt ctx rank) := rfl
theorem debugRegisterWrite (mgmt ctx rank : Nat) (reg : DebugReg) (value : Word) : Statement (.debugRegisterWrite mgmt ctx rank reg value) := rfl
theorem firmwareCauseRaise (mgmt ctx rank cause : Nat) : Statement (.firmwareCauseRaise mgmt ctx rank cause) := rfl
theorem lkRateWrite (die index : Nat) (value : Word) : Statement (.lkRateWrite die index value) := rfl
theorem slotTake (core : Nat) : Statement (.slotTake core) := rfl
theorem preemption (core : Nat) : Statement (.preemption core) := rfl
theorem quantumExpiry (core slot : Nat) : Statement (.quantumExpiry core slot) := rfl
theorem processFill (core : Nat) : Statement (.processFill core) := rfl
theorem sleepWake (pid : Nat) : Statement (.sleepWake pid) := rfl
theorem waitLimitExpiry (pid : Nat) : Statement (.waitLimitExpiry pid) := rfl
theorem processFree (pid : Nat) : Statement (.processFree pid) := rfl
theorem taskRecordTake (core : Nat) : Statement (.taskRecordTake core) := rfl
theorem taskRecordSteal (core : Nat) : Statement (.taskRecordSteal core) := rfl
theorem outboundMessageSend (die index : Nat) : Statement (.outboundMessageSend die index) := rfl
theorem fragmentArrival (index : Nat) : Statement (.fragmentArrival index) := rfl
theorem fragmentForward (index : Nat) : Statement (.fragmentForward index) := rfl
theorem ageIncrement (index : Nat) : Statement (.ageIncrement index) := rfl
theorem putFlagPerform (index : Nat) : Statement (.putFlagPerform index) := rfl
theorem ackArrival (index : Nat) : Statement (.ackArrival index) := rfl
theorem getResponseArrival (index : Nat) : Statement (.getResponseArrival index) := rfl
theorem ramoResponseArrival (index : Nat) : Statement (.ramoResponseArrival index) := rfl
theorem nakArrival (index : Nat) : Statement (.nakArrival index) := rfl
theorem finalFailureArrival (index : Nat) : Statement (.finalFailureArrival index) := rfl
theorem ackWindowExpiry (die index : Nat) : Statement (.ackWindowExpiry die index) := rfl
theorem decodeWindowExpiry (die slot : Nat) : Statement (.decodeWindowExpiry die slot) := rfl
theorem emptyMaskExpiry (die index : Nat) : Statement (.emptyMaskExpiry die index) := rfl
theorem slotRequest (index : Nat) : Statement (.slotRequest index) := rfl
theorem slotGrant (index : Nat) : Statement (.slotGrant index) := rfl
theorem slotRelease (index : Nat) : Statement (.slotRelease index) := rfl
theorem slotRequestRepeat (die index : Nat) : Statement (.slotRequestRepeat die index) := rfl
theorem flagCancel (index : Nat) : Statement (.flagCancel index) := rfl
theorem channelNotice (index : Nat) : Statement (.channelNotice index) := rfl
theorem channelMessageArrival (index : Nat) : Statement (.channelMessageArrival index) := rfl
theorem tileTransferComplete (index : Nat) : Statement (.tileTransferComplete index) := rfl
theorem endLost (ctx chan : Nat) : Statement (.endLost ctx chan) := rfl
theorem qpStateFetchComplete (ioDie qp : Nat) : Statement (.qpStateFetchComplete ioDie qp) := rfl
theorem qpStateWrite (ioDie qp : Nat) (words : List Word) : Statement (.qpStateWrite ioDie qp words) := rfl
theorem qpPeerError (ioDie qp : Nat) : Statement (.qpPeerError ioDie qp) := rfl
theorem keyUpdate (peer : Nat) : Statement (.keyUpdate peer) := rfl
theorem keyHoldExpiry (die index : Nat) : Statement (.keyHoldExpiry die index) := rfl
theorem spdmSessionClose (peer : Nat) : Statement (.spdmSessionClose peer) := rfl
theorem linkTrainingComplete (link lanes speed : Nat) : Statement (.linkTrainingComplete link lanes speed) := rfl
theorem linkFailure (link : Nat) : Statement (.linkFailure link) := rfl
theorem linkTrainingFail (link : Nat) : Statement (.linkTrainingFail link) := rfl
theorem linkFence (link : Nat) : Statement (.linkFence link) := rfl
theorem deadlockTokenVisit (ctx : Nat) : Statement (.deadlockTokenVisit ctx) := rfl
theorem tokenReissue (ctx : Nat) : Statement (.tokenReissue ctx) := rfl
theorem diffuserPacketAccept (index : Nat) : Statement (.diffuserPacketAccept index) := rfl
theorem gsendCopyLand (index : Nat) : Statement (.gsendCopyLand index) := rfl
theorem gredContributionArrival (index : Nat) : Statement (.gredContributionArrival index) := rfl
theorem gswDrainComplete (ctx entry : Nat) : Statement (.gswDrainComplete ctx entry) := rfl
theorem groupBarrierArrival (index : Nat) : Statement (.groupBarrierArrival index) := rfl
theorem groupBarrierCompletion (index : Nat) : Statement (.groupBarrierCompletion index) := rfl
theorem pageWalk (die index : Nat) : Statement (.pageWalk die index) := rfl
theorem requesterRetransmit (die index : Nat) : Statement (.requesterRetransmit die index) := rfl
theorem tlbiComplete (die : Nat) : Statement (.tlbiComplete die) := rfl
theorem migrationCopyDone (die : Nat) : Statement (.migrationCopyDone die) := rfl
theorem tilePipeStart (core : Nat) (multiply : Bool) : Statement (.tilePipeStart core multiply) := rfl
theorem tldComplete (core : Nat) : Statement (.tldComplete core) := rfl
theorem tstComplete (core : Nat) : Statement (.tstComplete core) := rfl
theorem tmmaComplete (core : Nat) : Statement (.tmmaComplete core) := rfl
theorem timeoutFiring (pid : Nat) : Statement (.timeoutFiring pid) := rfl
theorem ownerOnIssuingDiePerform (die index : Nat) : Statement (.ownerOnIssuingDiePerform die index) := rfl
theorem hostPortFailover : Statement (.hostPortFailover) := rfl
theorem ioDieLoss (ioDie : Nat) : Statement (.ioDieLoss ioDie) := rfl
theorem hbmChannelFault (die : Nat) (slice : Bool) (unit : Nat) : Statement (.hbmChannelFault die slice unit) := rfl

end Sys2Proof.Laws.Opcode
end

