-- ==== Sys2Proof/Laws/State.lean ====
section
/-! SUPPORT. What each update of State leaves of each field, by rfl; and one shape lemma for each update of a process,
which says at once every field that it leaves. -/

namespace Sys2Proof.Machine

variable (s : State)

@[simp] theorem State.modProc_agenda (n : Nat) (f : Proc → Proc) : (s.modProc n f).agenda = s.agenda := rfl
@[simp] theorem State.modProc_focus (n : Nat) (f : Proc → Proc) : (s.modProc n f).focus = s.focus := rfl
@[simp] theorem State.modProc_cur (n : Nat) (f : Proc → Proc) : (s.modProc n f).cur = s.cur := rfl
@[simp] theorem State.modProc_stalled (n : Nat) (f : Proc → Proc) : (s.modProc n f).stalled = s.stalled := rfl
@[simp] theorem State.modProc_fresh (n : Nat) (f : Proc → Proc) : (s.modProc n f).fresh = s.fresh := rfl
@[simp] theorem State.modProc_seq (n : Nat) (f : Proc → Proc) : (s.modProc n f).seq = s.seq := rfl
@[simp] theorem State.modProc_cores (n : Nat) (f : Proc → Proc) : (s.modProc n f).cores = s.cores := rfl
@[simp] theorem State.modProc_clusters (n : Nat) (f : Proc → Proc) : (s.modProc n f).clusters = s.clusters := rfl
@[simp] theorem State.modProc_dies (n : Nat) (f : Proc → Proc) : (s.modProc n f).dies = s.dies := rfl
@[simp] theorem State.modProc_ios (n : Nat) (f : Proc → Proc) : (s.modProc n f).ios = s.ios := rfl
@[simp] theorem State.modProc_ctxs (n : Nat) (f : Proc → Proc) : (s.modProc n f).ctxs = s.ctxs := rfl
@[simp] theorem State.modProc_queues (n : Nat) (f : Proc → Proc) : (s.modProc n f).queues = s.queues := rfl
@[simp] theorem State.modProc_mem (n : Nat) (f : Proc → Proc) : (s.modProc n f).mem = s.mem := rfl
@[simp] theorem State.modProc_empty (n : Nat) (f : Proc → Proc) : (s.modProc n f).empty = s.empty := rfl
@[simp] theorem State.modProc_ecc (n : Nat) (f : Proc → Proc) : (s.modProc n f).ecc = s.ecc := rfl
@[simp] theorem State.modProc_waiters (n : Nat) (f : Proc → Proc) : (s.modProc n f).waiters = s.waiters := rfl
@[simp] theorem State.modProc_pipes (n : Nat) (f : Proc → Proc) : (s.modProc n f).pipes = s.pipes := rfl
@[simp] theorem State.modProc_tiles (n : Nat) (f : Proc → Proc) : (s.modProc n f).tiles = s.tiles := rfl
@[simp] theorem State.modProc_chanIn (n : Nat) (f : Proc → Proc) : (s.modProc n f).chanIn = s.chanIn := rfl
@[simp] theorem State.modProc_notices (n : Nat) (f : Proc → Proc) : (s.modProc n f).notices = s.notices := rfl
@[simp] theorem State.modProc_gpackets (n : Nat) (f : Proc → Proc) : (s.modProc n f).gpackets = s.gpackets := rfl
@[simp] theorem State.modProc_gArrive (n : Nat) (f : Proc → Proc) : (s.modProc n f).gArrive = s.gArrive := rfl
@[simp] theorem State.modProc_gDone (n : Nat) (f : Proc → Proc) : (s.modProc n f).gDone = s.gDone := rfl
@[simp] theorem State.modProc_gContrib (n : Nat) (f : Proc → Proc) : (s.modProc n f).gContrib = s.gContrib := rfl
@[simp] theorem State.modProc_wire (n : Nat) (f : Proc → Proc) : (s.modProc n f).wire = s.wire := rfl
@[simp] theorem State.modProc_ctl (n : Nat) (f : Proc → Proc) : (s.modProc n f).ctl = s.ctl := rfl
@[simp] theorem State.modProc_responses (n : Nat) (f : Proc → Proc) : (s.modProc n f).responses = s.responses := rfl
@[simp] theorem State.modProc_kicks (n : Nat) (f : Proc → Proc) : (s.modProc n f).kicks = s.kicks := rfl
@[simp] theorem State.modProc_rmacks (n : Nat) (f : Proc → Proc) : (s.modProc n f).rmacks = s.rmacks := rfl
@[simp] theorem State.modProc_flags (n : Nat) (f : Proc → Proc) : (s.modProc n f).flags = s.flags := rfl
@[simp] theorem State.modProc_flagSrcs (n : Nat) (f : Proc → Proc) : (s.modProc n f).flagSrcs = s.flagSrcs := rfl
@[simp] theorem State.modProc_forks (n : Nat) (f : Proc → Proc) : (s.modProc n f).forks = s.forks := rfl
@[simp] theorem State.modProc_links (n : Nat) (f : Proc → Proc) : (s.modProc n f).links = s.links := rfl
@[simp] theorem State.modProc_sessions (n : Nat) (f : Proc → Proc) : (s.modProc n f).sessions = s.sessions := rfl
@[simp] theorem State.modProc_epochs (n : Nat) (f : Proc → Proc) : (s.modProc n f).epochs = s.epochs := rfl
@[simp] theorem State.modProc_devId (n : Nat) (f : Proc → Proc) : (s.modProc n f).devId = s.devId := rfl
@[simp] theorem State.modProc_map (n : Nat) (f : Proc → Proc) : (s.modProc n f).map = s.map := rfl
@[simp] theorem State.modProc_hostPort (n : Nat) (f : Proc → Proc) : (s.modProc n f).hostPort = s.hostPort := rfl
@[simp] theorem State.modProc_funcUp (n : Nat) (f : Proc → Proc) : (s.modProc n f).funcUp = s.funcUp := rfl
@[simp] theorem State.modProc_mrev (n : Nat) (f : Proc → Proc) : (s.modProc n f).mrev = s.mrev := rfl
@[simp] theorem State.modProc_hostMem (n : Nat) (f : Proc → Proc) : (s.modProc n f).hostMem = s.hostMem := rfl
@[simp] theorem State.modProc_msix (n : Nat) (f : Proc → Proc) : (s.modProc n f).msix = s.msix := rfl
@[simp] theorem State.modProc_cxlReply (n : Nat) (f : Proc → Proc) : (s.modProc n f).cxlReply = s.cxlReply := rfl
@[simp] theorem State.modProc_toMgmt (n : Nat) (f : Proc → Proc) : (s.modProc n f).toMgmt = s.toMgmt := rfl
@[simp] theorem State.modProc_images (n : Nat) (f : Proc → Proc) : (s.modProc n f).images = s.images := rfl
@[simp] theorem State.modProc_closesOut (n : Nat) (f : Proc → Proc) : (s.modProc n f).closesOut = s.closesOut := rfl
@[simp] theorem State.modProc_turns (n : Nat) (f : Proc → Proc) : (s.modProc n f).turns = s.turns := rfl
@[simp] theorem State.modProc_barReply (n : Nat) (f : Proc → Proc) : (s.modProc n f).barReply = s.barReply := rfl
@[simp] theorem State.modProc_versions (n : Nat) (f : Proc → Proc) : (s.modProc n f).versions = s.versions := rfl
@[simp] theorem State.modProc_lastEpoch (n : Nat) (f : Proc → Proc) : (s.modProc n f).lastEpoch = s.lastEpoch := rfl
@[simp] theorem State.modProc_cfgRetry (n : Nat) (f : Proc → Proc) : (s.modProc n f).cfgRetry = s.cfgRetry := rfl

@[simp] theorem State.modCore_agenda (n : Nat) (f : Core → Core) : (s.modCore n f).agenda = s.agenda := rfl
@[simp] theorem State.modCore_focus (n : Nat) (f : Core → Core) : (s.modCore n f).focus = s.focus := rfl
@[simp] theorem State.modCore_cur (n : Nat) (f : Core → Core) : (s.modCore n f).cur = s.cur := rfl
@[simp] theorem State.modCore_stalled (n : Nat) (f : Core → Core) : (s.modCore n f).stalled = s.stalled := rfl
@[simp] theorem State.modCore_fresh (n : Nat) (f : Core → Core) : (s.modCore n f).fresh = s.fresh := rfl
@[simp] theorem State.modCore_seq (n : Nat) (f : Core → Core) : (s.modCore n f).seq = s.seq := rfl
@[simp] theorem State.modCore_procs (n : Nat) (f : Core → Core) : (s.modCore n f).procs = s.procs := rfl
@[simp] theorem State.modCore_clusters (n : Nat) (f : Core → Core) : (s.modCore n f).clusters = s.clusters := rfl
@[simp] theorem State.modCore_dies (n : Nat) (f : Core → Core) : (s.modCore n f).dies = s.dies := rfl
@[simp] theorem State.modCore_ios (n : Nat) (f : Core → Core) : (s.modCore n f).ios = s.ios := rfl
@[simp] theorem State.modCore_ctxs (n : Nat) (f : Core → Core) : (s.modCore n f).ctxs = s.ctxs := rfl
@[simp] theorem State.modCore_queues (n : Nat) (f : Core → Core) : (s.modCore n f).queues = s.queues := rfl
@[simp] theorem State.modCore_mem (n : Nat) (f : Core → Core) : (s.modCore n f).mem = s.mem := rfl
@[simp] theorem State.modCore_empty (n : Nat) (f : Core → Core) : (s.modCore n f).empty = s.empty := rfl
@[simp] theorem State.modCore_ecc (n : Nat) (f : Core → Core) : (s.modCore n f).ecc = s.ecc := rfl
@[simp] theorem State.modCore_waiters (n : Nat) (f : Core → Core) : (s.modCore n f).waiters = s.waiters := rfl
@[simp] theorem State.modCore_pipes (n : Nat) (f : Core → Core) : (s.modCore n f).pipes = s.pipes := rfl
@[simp] theorem State.modCore_tiles (n : Nat) (f : Core → Core) : (s.modCore n f).tiles = s.tiles := rfl
@[simp] theorem State.modCore_chanIn (n : Nat) (f : Core → Core) : (s.modCore n f).chanIn = s.chanIn := rfl
@[simp] theorem State.modCore_notices (n : Nat) (f : Core → Core) : (s.modCore n f).notices = s.notices := rfl
@[simp] theorem State.modCore_gpackets (n : Nat) (f : Core → Core) : (s.modCore n f).gpackets = s.gpackets := rfl
@[simp] theorem State.modCore_gArrive (n : Nat) (f : Core → Core) : (s.modCore n f).gArrive = s.gArrive := rfl
@[simp] theorem State.modCore_gDone (n : Nat) (f : Core → Core) : (s.modCore n f).gDone = s.gDone := rfl
@[simp] theorem State.modCore_gContrib (n : Nat) (f : Core → Core) : (s.modCore n f).gContrib = s.gContrib := rfl
@[simp] theorem State.modCore_wire (n : Nat) (f : Core → Core) : (s.modCore n f).wire = s.wire := rfl
@[simp] theorem State.modCore_ctl (n : Nat) (f : Core → Core) : (s.modCore n f).ctl = s.ctl := rfl
@[simp] theorem State.modCore_responses (n : Nat) (f : Core → Core) : (s.modCore n f).responses = s.responses := rfl
@[simp] theorem State.modCore_kicks (n : Nat) (f : Core → Core) : (s.modCore n f).kicks = s.kicks := rfl
@[simp] theorem State.modCore_rmacks (n : Nat) (f : Core → Core) : (s.modCore n f).rmacks = s.rmacks := rfl
@[simp] theorem State.modCore_flags (n : Nat) (f : Core → Core) : (s.modCore n f).flags = s.flags := rfl
@[simp] theorem State.modCore_flagSrcs (n : Nat) (f : Core → Core) : (s.modCore n f).flagSrcs = s.flagSrcs := rfl
@[simp] theorem State.modCore_forks (n : Nat) (f : Core → Core) : (s.modCore n f).forks = s.forks := rfl
@[simp] theorem State.modCore_links (n : Nat) (f : Core → Core) : (s.modCore n f).links = s.links := rfl
@[simp] theorem State.modCore_sessions (n : Nat) (f : Core → Core) : (s.modCore n f).sessions = s.sessions := rfl
@[simp] theorem State.modCore_epochs (n : Nat) (f : Core → Core) : (s.modCore n f).epochs = s.epochs := rfl
@[simp] theorem State.modCore_devId (n : Nat) (f : Core → Core) : (s.modCore n f).devId = s.devId := rfl
@[simp] theorem State.modCore_map (n : Nat) (f : Core → Core) : (s.modCore n f).map = s.map := rfl
@[simp] theorem State.modCore_hostPort (n : Nat) (f : Core → Core) : (s.modCore n f).hostPort = s.hostPort := rfl
@[simp] theorem State.modCore_funcUp (n : Nat) (f : Core → Core) : (s.modCore n f).funcUp = s.funcUp := rfl
@[simp] theorem State.modCore_mrev (n : Nat) (f : Core → Core) : (s.modCore n f).mrev = s.mrev := rfl
@[simp] theorem State.modCore_hostMem (n : Nat) (f : Core → Core) : (s.modCore n f).hostMem = s.hostMem := rfl
@[simp] theorem State.modCore_msix (n : Nat) (f : Core → Core) : (s.modCore n f).msix = s.msix := rfl
@[simp] theorem State.modCore_cxlReply (n : Nat) (f : Core → Core) : (s.modCore n f).cxlReply = s.cxlReply := rfl
@[simp] theorem State.modCore_toMgmt (n : Nat) (f : Core → Core) : (s.modCore n f).toMgmt = s.toMgmt := rfl
@[simp] theorem State.modCore_images (n : Nat) (f : Core → Core) : (s.modCore n f).images = s.images := rfl
@[simp] theorem State.modCore_closesOut (n : Nat) (f : Core → Core) : (s.modCore n f).closesOut = s.closesOut := rfl
@[simp] theorem State.modCore_turns (n : Nat) (f : Core → Core) : (s.modCore n f).turns = s.turns := rfl
@[simp] theorem State.modCore_barReply (n : Nat) (f : Core → Core) : (s.modCore n f).barReply = s.barReply := rfl
@[simp] theorem State.modCore_versions (n : Nat) (f : Core → Core) : (s.modCore n f).versions = s.versions := rfl
@[simp] theorem State.modCore_lastEpoch (n : Nat) (f : Core → Core) : (s.modCore n f).lastEpoch = s.lastEpoch := rfl
@[simp] theorem State.modCore_cfgRetry (n : Nat) (f : Core → Core) : (s.modCore n f).cfgRetry = s.cfgRetry := rfl

@[simp] theorem State.modCluster_agenda (n : Nat) (f : Cluster → Cluster) : (s.modCluster n f).agenda = s.agenda := rfl
@[simp] theorem State.modCluster_focus (n : Nat) (f : Cluster → Cluster) : (s.modCluster n f).focus = s.focus := rfl
@[simp] theorem State.modCluster_cur (n : Nat) (f : Cluster → Cluster) : (s.modCluster n f).cur = s.cur := rfl
@[simp] theorem State.modCluster_stalled (n : Nat) (f : Cluster → Cluster) : (s.modCluster n f).stalled = s.stalled := rfl
@[simp] theorem State.modCluster_fresh (n : Nat) (f : Cluster → Cluster) : (s.modCluster n f).fresh = s.fresh := rfl
@[simp] theorem State.modCluster_seq (n : Nat) (f : Cluster → Cluster) : (s.modCluster n f).seq = s.seq := rfl
@[simp] theorem State.modCluster_procs (n : Nat) (f : Cluster → Cluster) : (s.modCluster n f).procs = s.procs := rfl
@[simp] theorem State.modCluster_cores (n : Nat) (f : Cluster → Cluster) : (s.modCluster n f).cores = s.cores := rfl
@[simp] theorem State.modCluster_dies (n : Nat) (f : Cluster → Cluster) : (s.modCluster n f).dies = s.dies := rfl
@[simp] theorem State.modCluster_ios (n : Nat) (f : Cluster → Cluster) : (s.modCluster n f).ios = s.ios := rfl
@[simp] theorem State.modCluster_ctxs (n : Nat) (f : Cluster → Cluster) : (s.modCluster n f).ctxs = s.ctxs := rfl
@[simp] theorem State.modCluster_queues (n : Nat) (f : Cluster → Cluster) : (s.modCluster n f).queues = s.queues := rfl
@[simp] theorem State.modCluster_mem (n : Nat) (f : Cluster → Cluster) : (s.modCluster n f).mem = s.mem := rfl
@[simp] theorem State.modCluster_empty (n : Nat) (f : Cluster → Cluster) : (s.modCluster n f).empty = s.empty := rfl
@[simp] theorem State.modCluster_ecc (n : Nat) (f : Cluster → Cluster) : (s.modCluster n f).ecc = s.ecc := rfl
@[simp] theorem State.modCluster_waiters (n : Nat) (f : Cluster → Cluster) : (s.modCluster n f).waiters = s.waiters := rfl
@[simp] theorem State.modCluster_pipes (n : Nat) (f : Cluster → Cluster) : (s.modCluster n f).pipes = s.pipes := rfl
@[simp] theorem State.modCluster_tiles (n : Nat) (f : Cluster → Cluster) : (s.modCluster n f).tiles = s.tiles := rfl
@[simp] theorem State.modCluster_chanIn (n : Nat) (f : Cluster → Cluster) : (s.modCluster n f).chanIn = s.chanIn := rfl
@[simp] theorem State.modCluster_notices (n : Nat) (f : Cluster → Cluster) : (s.modCluster n f).notices = s.notices := rfl
@[simp] theorem State.modCluster_gpackets (n : Nat) (f : Cluster → Cluster) : (s.modCluster n f).gpackets = s.gpackets := rfl
@[simp] theorem State.modCluster_gArrive (n : Nat) (f : Cluster → Cluster) : (s.modCluster n f).gArrive = s.gArrive := rfl
@[simp] theorem State.modCluster_gDone (n : Nat) (f : Cluster → Cluster) : (s.modCluster n f).gDone = s.gDone := rfl
@[simp] theorem State.modCluster_gContrib (n : Nat) (f : Cluster → Cluster) : (s.modCluster n f).gContrib = s.gContrib := rfl
@[simp] theorem State.modCluster_wire (n : Nat) (f : Cluster → Cluster) : (s.modCluster n f).wire = s.wire := rfl
@[simp] theorem State.modCluster_ctl (n : Nat) (f : Cluster → Cluster) : (s.modCluster n f).ctl = s.ctl := rfl
@[simp] theorem State.modCluster_responses (n : Nat) (f : Cluster → Cluster) : (s.modCluster n f).responses = s.responses := rfl
@[simp] theorem State.modCluster_kicks (n : Nat) (f : Cluster → Cluster) : (s.modCluster n f).kicks = s.kicks := rfl
@[simp] theorem State.modCluster_rmacks (n : Nat) (f : Cluster → Cluster) : (s.modCluster n f).rmacks = s.rmacks := rfl
@[simp] theorem State.modCluster_flags (n : Nat) (f : Cluster → Cluster) : (s.modCluster n f).flags = s.flags := rfl
@[simp] theorem State.modCluster_flagSrcs (n : Nat) (f : Cluster → Cluster) : (s.modCluster n f).flagSrcs = s.flagSrcs := rfl
@[simp] theorem State.modCluster_forks (n : Nat) (f : Cluster → Cluster) : (s.modCluster n f).forks = s.forks := rfl
@[simp] theorem State.modCluster_links (n : Nat) (f : Cluster → Cluster) : (s.modCluster n f).links = s.links := rfl
@[simp] theorem State.modCluster_sessions (n : Nat) (f : Cluster → Cluster) : (s.modCluster n f).sessions = s.sessions := rfl
@[simp] theorem State.modCluster_epochs (n : Nat) (f : Cluster → Cluster) : (s.modCluster n f).epochs = s.epochs := rfl
@[simp] theorem State.modCluster_devId (n : Nat) (f : Cluster → Cluster) : (s.modCluster n f).devId = s.devId := rfl
@[simp] theorem State.modCluster_map (n : Nat) (f : Cluster → Cluster) : (s.modCluster n f).map = s.map := rfl
@[simp] theorem State.modCluster_hostPort (n : Nat) (f : Cluster → Cluster) : (s.modCluster n f).hostPort = s.hostPort := rfl
@[simp] theorem State.modCluster_funcUp (n : Nat) (f : Cluster → Cluster) : (s.modCluster n f).funcUp = s.funcUp := rfl
@[simp] theorem State.modCluster_mrev (n : Nat) (f : Cluster → Cluster) : (s.modCluster n f).mrev = s.mrev := rfl
@[simp] theorem State.modCluster_hostMem (n : Nat) (f : Cluster → Cluster) : (s.modCluster n f).hostMem = s.hostMem := rfl
@[simp] theorem State.modCluster_msix (n : Nat) (f : Cluster → Cluster) : (s.modCluster n f).msix = s.msix := rfl
@[simp] theorem State.modCluster_cxlReply (n : Nat) (f : Cluster → Cluster) : (s.modCluster n f).cxlReply = s.cxlReply := rfl
@[simp] theorem State.modCluster_toMgmt (n : Nat) (f : Cluster → Cluster) : (s.modCluster n f).toMgmt = s.toMgmt := rfl
@[simp] theorem State.modCluster_images (n : Nat) (f : Cluster → Cluster) : (s.modCluster n f).images = s.images := rfl
@[simp] theorem State.modCluster_closesOut (n : Nat) (f : Cluster → Cluster) : (s.modCluster n f).closesOut = s.closesOut := rfl
@[simp] theorem State.modCluster_turns (n : Nat) (f : Cluster → Cluster) : (s.modCluster n f).turns = s.turns := rfl
@[simp] theorem State.modCluster_barReply (n : Nat) (f : Cluster → Cluster) : (s.modCluster n f).barReply = s.barReply := rfl
@[simp] theorem State.modCluster_versions (n : Nat) (f : Cluster → Cluster) : (s.modCluster n f).versions = s.versions := rfl
@[simp] theorem State.modCluster_lastEpoch (n : Nat) (f : Cluster → Cluster) : (s.modCluster n f).lastEpoch = s.lastEpoch := rfl
@[simp] theorem State.modCluster_cfgRetry (n : Nat) (f : Cluster → Cluster) : (s.modCluster n f).cfgRetry = s.cfgRetry := rfl

@[simp] theorem State.modDie_agenda (n : Nat) (f : Die → Die) : (s.modDie n f).agenda = s.agenda := rfl
@[simp] theorem State.modDie_focus (n : Nat) (f : Die → Die) : (s.modDie n f).focus = s.focus := rfl
@[simp] theorem State.modDie_cur (n : Nat) (f : Die → Die) : (s.modDie n f).cur = s.cur := rfl
@[simp] theorem State.modDie_stalled (n : Nat) (f : Die → Die) : (s.modDie n f).stalled = s.stalled := rfl
@[simp] theorem State.modDie_fresh (n : Nat) (f : Die → Die) : (s.modDie n f).fresh = s.fresh := rfl
@[simp] theorem State.modDie_seq (n : Nat) (f : Die → Die) : (s.modDie n f).seq = s.seq := rfl
@[simp] theorem State.modDie_procs (n : Nat) (f : Die → Die) : (s.modDie n f).procs = s.procs := rfl
@[simp] theorem State.modDie_cores (n : Nat) (f : Die → Die) : (s.modDie n f).cores = s.cores := rfl
@[simp] theorem State.modDie_clusters (n : Nat) (f : Die → Die) : (s.modDie n f).clusters = s.clusters := rfl
@[simp] theorem State.modDie_ios (n : Nat) (f : Die → Die) : (s.modDie n f).ios = s.ios := rfl
@[simp] theorem State.modDie_ctxs (n : Nat) (f : Die → Die) : (s.modDie n f).ctxs = s.ctxs := rfl
@[simp] theorem State.modDie_queues (n : Nat) (f : Die → Die) : (s.modDie n f).queues = s.queues := rfl
@[simp] theorem State.modDie_mem (n : Nat) (f : Die → Die) : (s.modDie n f).mem = s.mem := rfl
@[simp] theorem State.modDie_empty (n : Nat) (f : Die → Die) : (s.modDie n f).empty = s.empty := rfl
@[simp] theorem State.modDie_ecc (n : Nat) (f : Die → Die) : (s.modDie n f).ecc = s.ecc := rfl
@[simp] theorem State.modDie_waiters (n : Nat) (f : Die → Die) : (s.modDie n f).waiters = s.waiters := rfl
@[simp] theorem State.modDie_pipes (n : Nat) (f : Die → Die) : (s.modDie n f).pipes = s.pipes := rfl
@[simp] theorem State.modDie_tiles (n : Nat) (f : Die → Die) : (s.modDie n f).tiles = s.tiles := rfl
@[simp] theorem State.modDie_chanIn (n : Nat) (f : Die → Die) : (s.modDie n f).chanIn = s.chanIn := rfl
@[simp] theorem State.modDie_notices (n : Nat) (f : Die → Die) : (s.modDie n f).notices = s.notices := rfl
@[simp] theorem State.modDie_gpackets (n : Nat) (f : Die → Die) : (s.modDie n f).gpackets = s.gpackets := rfl
@[simp] theorem State.modDie_gArrive (n : Nat) (f : Die → Die) : (s.modDie n f).gArrive = s.gArrive := rfl
@[simp] theorem State.modDie_gDone (n : Nat) (f : Die → Die) : (s.modDie n f).gDone = s.gDone := rfl
@[simp] theorem State.modDie_gContrib (n : Nat) (f : Die → Die) : (s.modDie n f).gContrib = s.gContrib := rfl
@[simp] theorem State.modDie_wire (n : Nat) (f : Die → Die) : (s.modDie n f).wire = s.wire := rfl
@[simp] theorem State.modDie_ctl (n : Nat) (f : Die → Die) : (s.modDie n f).ctl = s.ctl := rfl
@[simp] theorem State.modDie_responses (n : Nat) (f : Die → Die) : (s.modDie n f).responses = s.responses := rfl
@[simp] theorem State.modDie_kicks (n : Nat) (f : Die → Die) : (s.modDie n f).kicks = s.kicks := rfl
@[simp] theorem State.modDie_rmacks (n : Nat) (f : Die → Die) : (s.modDie n f).rmacks = s.rmacks := rfl
@[simp] theorem State.modDie_flags (n : Nat) (f : Die → Die) : (s.modDie n f).flags = s.flags := rfl
@[simp] theorem State.modDie_flagSrcs (n : Nat) (f : Die → Die) : (s.modDie n f).flagSrcs = s.flagSrcs := rfl
@[simp] theorem State.modDie_forks (n : Nat) (f : Die → Die) : (s.modDie n f).forks = s.forks := rfl
@[simp] theorem State.modDie_links (n : Nat) (f : Die → Die) : (s.modDie n f).links = s.links := rfl
@[simp] theorem State.modDie_sessions (n : Nat) (f : Die → Die) : (s.modDie n f).sessions = s.sessions := rfl
@[simp] theorem State.modDie_epochs (n : Nat) (f : Die → Die) : (s.modDie n f).epochs = s.epochs := rfl
@[simp] theorem State.modDie_devId (n : Nat) (f : Die → Die) : (s.modDie n f).devId = s.devId := rfl
@[simp] theorem State.modDie_map (n : Nat) (f : Die → Die) : (s.modDie n f).map = s.map := rfl
@[simp] theorem State.modDie_hostPort (n : Nat) (f : Die → Die) : (s.modDie n f).hostPort = s.hostPort := rfl
@[simp] theorem State.modDie_funcUp (n : Nat) (f : Die → Die) : (s.modDie n f).funcUp = s.funcUp := rfl
@[simp] theorem State.modDie_mrev (n : Nat) (f : Die → Die) : (s.modDie n f).mrev = s.mrev := rfl
@[simp] theorem State.modDie_hostMem (n : Nat) (f : Die → Die) : (s.modDie n f).hostMem = s.hostMem := rfl
@[simp] theorem State.modDie_msix (n : Nat) (f : Die → Die) : (s.modDie n f).msix = s.msix := rfl
@[simp] theorem State.modDie_cxlReply (n : Nat) (f : Die → Die) : (s.modDie n f).cxlReply = s.cxlReply := rfl
@[simp] theorem State.modDie_toMgmt (n : Nat) (f : Die → Die) : (s.modDie n f).toMgmt = s.toMgmt := rfl
@[simp] theorem State.modDie_images (n : Nat) (f : Die → Die) : (s.modDie n f).images = s.images := rfl
@[simp] theorem State.modDie_closesOut (n : Nat) (f : Die → Die) : (s.modDie n f).closesOut = s.closesOut := rfl
@[simp] theorem State.modDie_turns (n : Nat) (f : Die → Die) : (s.modDie n f).turns = s.turns := rfl
@[simp] theorem State.modDie_barReply (n : Nat) (f : Die → Die) : (s.modDie n f).barReply = s.barReply := rfl
@[simp] theorem State.modDie_versions (n : Nat) (f : Die → Die) : (s.modDie n f).versions = s.versions := rfl
@[simp] theorem State.modDie_lastEpoch (n : Nat) (f : Die → Die) : (s.modDie n f).lastEpoch = s.lastEpoch := rfl
@[simp] theorem State.modDie_cfgRetry (n : Nat) (f : Die → Die) : (s.modDie n f).cfgRetry = s.cfgRetry := rfl

@[simp] theorem State.modIo_agenda (n : Nat) (f : IoDie → IoDie) : (s.modIo n f).agenda = s.agenda := rfl
@[simp] theorem State.modIo_focus (n : Nat) (f : IoDie → IoDie) : (s.modIo n f).focus = s.focus := rfl
@[simp] theorem State.modIo_cur (n : Nat) (f : IoDie → IoDie) : (s.modIo n f).cur = s.cur := rfl
@[simp] theorem State.modIo_stalled (n : Nat) (f : IoDie → IoDie) : (s.modIo n f).stalled = s.stalled := rfl
@[simp] theorem State.modIo_fresh (n : Nat) (f : IoDie → IoDie) : (s.modIo n f).fresh = s.fresh := rfl
@[simp] theorem State.modIo_seq (n : Nat) (f : IoDie → IoDie) : (s.modIo n f).seq = s.seq := rfl
@[simp] theorem State.modIo_procs (n : Nat) (f : IoDie → IoDie) : (s.modIo n f).procs = s.procs := rfl
@[simp] theorem State.modIo_cores (n : Nat) (f : IoDie → IoDie) : (s.modIo n f).cores = s.cores := rfl
@[simp] theorem State.modIo_clusters (n : Nat) (f : IoDie → IoDie) : (s.modIo n f).clusters = s.clusters := rfl
@[simp] theorem State.modIo_dies (n : Nat) (f : IoDie → IoDie) : (s.modIo n f).dies = s.dies := rfl
@[simp] theorem State.modIo_ctxs (n : Nat) (f : IoDie → IoDie) : (s.modIo n f).ctxs = s.ctxs := rfl
@[simp] theorem State.modIo_queues (n : Nat) (f : IoDie → IoDie) : (s.modIo n f).queues = s.queues := rfl
@[simp] theorem State.modIo_mem (n : Nat) (f : IoDie → IoDie) : (s.modIo n f).mem = s.mem := rfl
@[simp] theorem State.modIo_empty (n : Nat) (f : IoDie → IoDie) : (s.modIo n f).empty = s.empty := rfl
@[simp] theorem State.modIo_ecc (n : Nat) (f : IoDie → IoDie) : (s.modIo n f).ecc = s.ecc := rfl
@[simp] theorem State.modIo_waiters (n : Nat) (f : IoDie → IoDie) : (s.modIo n f).waiters = s.waiters := rfl
@[simp] theorem State.modIo_pipes (n : Nat) (f : IoDie → IoDie) : (s.modIo n f).pipes = s.pipes := rfl
@[simp] theorem State.modIo_tiles (n : Nat) (f : IoDie → IoDie) : (s.modIo n f).tiles = s.tiles := rfl
@[simp] theorem State.modIo_chanIn (n : Nat) (f : IoDie → IoDie) : (s.modIo n f).chanIn = s.chanIn := rfl
@[simp] theorem State.modIo_notices (n : Nat) (f : IoDie → IoDie) : (s.modIo n f).notices = s.notices := rfl
@[simp] theorem State.modIo_gpackets (n : Nat) (f : IoDie → IoDie) : (s.modIo n f).gpackets = s.gpackets := rfl
@[simp] theorem State.modIo_gArrive (n : Nat) (f : IoDie → IoDie) : (s.modIo n f).gArrive = s.gArrive := rfl
@[simp] theorem State.modIo_gDone (n : Nat) (f : IoDie → IoDie) : (s.modIo n f).gDone = s.gDone := rfl
@[simp] theorem State.modIo_gContrib (n : Nat) (f : IoDie → IoDie) : (s.modIo n f).gContrib = s.gContrib := rfl
@[simp] theorem State.modIo_wire (n : Nat) (f : IoDie → IoDie) : (s.modIo n f).wire = s.wire := rfl
@[simp] theorem State.modIo_ctl (n : Nat) (f : IoDie → IoDie) : (s.modIo n f).ctl = s.ctl := rfl
@[simp] theorem State.modIo_responses (n : Nat) (f : IoDie → IoDie) : (s.modIo n f).responses = s.responses := rfl
@[simp] theorem State.modIo_kicks (n : Nat) (f : IoDie → IoDie) : (s.modIo n f).kicks = s.kicks := rfl
@[simp] theorem State.modIo_rmacks (n : Nat) (f : IoDie → IoDie) : (s.modIo n f).rmacks = s.rmacks := rfl
@[simp] theorem State.modIo_flags (n : Nat) (f : IoDie → IoDie) : (s.modIo n f).flags = s.flags := rfl
@[simp] theorem State.modIo_flagSrcs (n : Nat) (f : IoDie → IoDie) : (s.modIo n f).flagSrcs = s.flagSrcs := rfl
@[simp] theorem State.modIo_forks (n : Nat) (f : IoDie → IoDie) : (s.modIo n f).forks = s.forks := rfl
@[simp] theorem State.modIo_links (n : Nat) (f : IoDie → IoDie) : (s.modIo n f).links = s.links := rfl
@[simp] theorem State.modIo_sessions (n : Nat) (f : IoDie → IoDie) : (s.modIo n f).sessions = s.sessions := rfl
@[simp] theorem State.modIo_epochs (n : Nat) (f : IoDie → IoDie) : (s.modIo n f).epochs = s.epochs := rfl
@[simp] theorem State.modIo_devId (n : Nat) (f : IoDie → IoDie) : (s.modIo n f).devId = s.devId := rfl
@[simp] theorem State.modIo_map (n : Nat) (f : IoDie → IoDie) : (s.modIo n f).map = s.map := rfl
@[simp] theorem State.modIo_hostPort (n : Nat) (f : IoDie → IoDie) : (s.modIo n f).hostPort = s.hostPort := rfl
@[simp] theorem State.modIo_funcUp (n : Nat) (f : IoDie → IoDie) : (s.modIo n f).funcUp = s.funcUp := rfl
@[simp] theorem State.modIo_mrev (n : Nat) (f : IoDie → IoDie) : (s.modIo n f).mrev = s.mrev := rfl
@[simp] theorem State.modIo_hostMem (n : Nat) (f : IoDie → IoDie) : (s.modIo n f).hostMem = s.hostMem := rfl
@[simp] theorem State.modIo_msix (n : Nat) (f : IoDie → IoDie) : (s.modIo n f).msix = s.msix := rfl
@[simp] theorem State.modIo_cxlReply (n : Nat) (f : IoDie → IoDie) : (s.modIo n f).cxlReply = s.cxlReply := rfl
@[simp] theorem State.modIo_toMgmt (n : Nat) (f : IoDie → IoDie) : (s.modIo n f).toMgmt = s.toMgmt := rfl
@[simp] theorem State.modIo_images (n : Nat) (f : IoDie → IoDie) : (s.modIo n f).images = s.images := rfl
@[simp] theorem State.modIo_closesOut (n : Nat) (f : IoDie → IoDie) : (s.modIo n f).closesOut = s.closesOut := rfl
@[simp] theorem State.modIo_turns (n : Nat) (f : IoDie → IoDie) : (s.modIo n f).turns = s.turns := rfl
@[simp] theorem State.modIo_barReply (n : Nat) (f : IoDie → IoDie) : (s.modIo n f).barReply = s.barReply := rfl
@[simp] theorem State.modIo_versions (n : Nat) (f : IoDie → IoDie) : (s.modIo n f).versions = s.versions := rfl
@[simp] theorem State.modIo_lastEpoch (n : Nat) (f : IoDie → IoDie) : (s.modIo n f).lastEpoch = s.lastEpoch := rfl
@[simp] theorem State.modIo_cfgRetry (n : Nat) (f : IoDie → IoDie) : (s.modIo n f).cfgRetry = s.cfgRetry := rfl

@[simp] theorem State.modCtx_agenda (n : Nat) (f : Ctx → Ctx) : (s.modCtx n f).agenda = s.agenda := rfl
@[simp] theorem State.modCtx_focus (n : Nat) (f : Ctx → Ctx) : (s.modCtx n f).focus = s.focus := rfl
@[simp] theorem State.modCtx_cur (n : Nat) (f : Ctx → Ctx) : (s.modCtx n f).cur = s.cur := rfl
@[simp] theorem State.modCtx_stalled (n : Nat) (f : Ctx → Ctx) : (s.modCtx n f).stalled = s.stalled := rfl
@[simp] theorem State.modCtx_fresh (n : Nat) (f : Ctx → Ctx) : (s.modCtx n f).fresh = s.fresh := rfl
@[simp] theorem State.modCtx_seq (n : Nat) (f : Ctx → Ctx) : (s.modCtx n f).seq = s.seq := rfl
@[simp] theorem State.modCtx_procs (n : Nat) (f : Ctx → Ctx) : (s.modCtx n f).procs = s.procs := rfl
@[simp] theorem State.modCtx_cores (n : Nat) (f : Ctx → Ctx) : (s.modCtx n f).cores = s.cores := rfl
@[simp] theorem State.modCtx_clusters (n : Nat) (f : Ctx → Ctx) : (s.modCtx n f).clusters = s.clusters := rfl
@[simp] theorem State.modCtx_dies (n : Nat) (f : Ctx → Ctx) : (s.modCtx n f).dies = s.dies := rfl
@[simp] theorem State.modCtx_ios (n : Nat) (f : Ctx → Ctx) : (s.modCtx n f).ios = s.ios := rfl
@[simp] theorem State.modCtx_queues (n : Nat) (f : Ctx → Ctx) : (s.modCtx n f).queues = s.queues := rfl
@[simp] theorem State.modCtx_mem (n : Nat) (f : Ctx → Ctx) : (s.modCtx n f).mem = s.mem := rfl
@[simp] theorem State.modCtx_empty (n : Nat) (f : Ctx → Ctx) : (s.modCtx n f).empty = s.empty := rfl
@[simp] theorem State.modCtx_ecc (n : Nat) (f : Ctx → Ctx) : (s.modCtx n f).ecc = s.ecc := rfl
@[simp] theorem State.modCtx_waiters (n : Nat) (f : Ctx → Ctx) : (s.modCtx n f).waiters = s.waiters := rfl
@[simp] theorem State.modCtx_pipes (n : Nat) (f : Ctx → Ctx) : (s.modCtx n f).pipes = s.pipes := rfl
@[simp] theorem State.modCtx_tiles (n : Nat) (f : Ctx → Ctx) : (s.modCtx n f).tiles = s.tiles := rfl
@[simp] theorem State.modCtx_chanIn (n : Nat) (f : Ctx → Ctx) : (s.modCtx n f).chanIn = s.chanIn := rfl
@[simp] theorem State.modCtx_notices (n : Nat) (f : Ctx → Ctx) : (s.modCtx n f).notices = s.notices := rfl
@[simp] theorem State.modCtx_gpackets (n : Nat) (f : Ctx → Ctx) : (s.modCtx n f).gpackets = s.gpackets := rfl
@[simp] theorem State.modCtx_gArrive (n : Nat) (f : Ctx → Ctx) : (s.modCtx n f).gArrive = s.gArrive := rfl
@[simp] theorem State.modCtx_gDone (n : Nat) (f : Ctx → Ctx) : (s.modCtx n f).gDone = s.gDone := rfl
@[simp] theorem State.modCtx_gContrib (n : Nat) (f : Ctx → Ctx) : (s.modCtx n f).gContrib = s.gContrib := rfl
@[simp] theorem State.modCtx_wire (n : Nat) (f : Ctx → Ctx) : (s.modCtx n f).wire = s.wire := rfl
@[simp] theorem State.modCtx_ctl (n : Nat) (f : Ctx → Ctx) : (s.modCtx n f).ctl = s.ctl := rfl
@[simp] theorem State.modCtx_responses (n : Nat) (f : Ctx → Ctx) : (s.modCtx n f).responses = s.responses := rfl
@[simp] theorem State.modCtx_kicks (n : Nat) (f : Ctx → Ctx) : (s.modCtx n f).kicks = s.kicks := rfl
@[simp] theorem State.modCtx_rmacks (n : Nat) (f : Ctx → Ctx) : (s.modCtx n f).rmacks = s.rmacks := rfl
@[simp] theorem State.modCtx_flags (n : Nat) (f : Ctx → Ctx) : (s.modCtx n f).flags = s.flags := rfl
@[simp] theorem State.modCtx_flagSrcs (n : Nat) (f : Ctx → Ctx) : (s.modCtx n f).flagSrcs = s.flagSrcs := rfl
@[simp] theorem State.modCtx_forks (n : Nat) (f : Ctx → Ctx) : (s.modCtx n f).forks = s.forks := rfl
@[simp] theorem State.modCtx_links (n : Nat) (f : Ctx → Ctx) : (s.modCtx n f).links = s.links := rfl
@[simp] theorem State.modCtx_sessions (n : Nat) (f : Ctx → Ctx) : (s.modCtx n f).sessions = s.sessions := rfl
@[simp] theorem State.modCtx_epochs (n : Nat) (f : Ctx → Ctx) : (s.modCtx n f).epochs = s.epochs := rfl
@[simp] theorem State.modCtx_devId (n : Nat) (f : Ctx → Ctx) : (s.modCtx n f).devId = s.devId := rfl
@[simp] theorem State.modCtx_map (n : Nat) (f : Ctx → Ctx) : (s.modCtx n f).map = s.map := rfl
@[simp] theorem State.modCtx_hostPort (n : Nat) (f : Ctx → Ctx) : (s.modCtx n f).hostPort = s.hostPort := rfl
@[simp] theorem State.modCtx_funcUp (n : Nat) (f : Ctx → Ctx) : (s.modCtx n f).funcUp = s.funcUp := rfl
@[simp] theorem State.modCtx_mrev (n : Nat) (f : Ctx → Ctx) : (s.modCtx n f).mrev = s.mrev := rfl
@[simp] theorem State.modCtx_hostMem (n : Nat) (f : Ctx → Ctx) : (s.modCtx n f).hostMem = s.hostMem := rfl
@[simp] theorem State.modCtx_msix (n : Nat) (f : Ctx → Ctx) : (s.modCtx n f).msix = s.msix := rfl
@[simp] theorem State.modCtx_cxlReply (n : Nat) (f : Ctx → Ctx) : (s.modCtx n f).cxlReply = s.cxlReply := rfl
@[simp] theorem State.modCtx_toMgmt (n : Nat) (f : Ctx → Ctx) : (s.modCtx n f).toMgmt = s.toMgmt := rfl
@[simp] theorem State.modCtx_images (n : Nat) (f : Ctx → Ctx) : (s.modCtx n f).images = s.images := rfl
@[simp] theorem State.modCtx_closesOut (n : Nat) (f : Ctx → Ctx) : (s.modCtx n f).closesOut = s.closesOut := rfl
@[simp] theorem State.modCtx_turns (n : Nat) (f : Ctx → Ctx) : (s.modCtx n f).turns = s.turns := rfl
@[simp] theorem State.modCtx_barReply (n : Nat) (f : Ctx → Ctx) : (s.modCtx n f).barReply = s.barReply := rfl
@[simp] theorem State.modCtx_versions (n : Nat) (f : Ctx → Ctx) : (s.modCtx n f).versions = s.versions := rfl
@[simp] theorem State.modCtx_lastEpoch (n : Nat) (f : Ctx → Ctx) : (s.modCtx n f).lastEpoch = s.lastEpoch := rfl
@[simp] theorem State.modCtx_cfgRetry (n : Nat) (f : Ctx → Ctx) : (s.modCtx n f).cfgRetry = s.cfgRetry := rfl

@[simp] theorem State.modQueue_agenda (n : Nat) (f : HQueue → HQueue) : (s.modQueue n f).agenda = s.agenda := rfl
@[simp] theorem State.modQueue_focus (n : Nat) (f : HQueue → HQueue) : (s.modQueue n f).focus = s.focus := rfl
@[simp] theorem State.modQueue_cur (n : Nat) (f : HQueue → HQueue) : (s.modQueue n f).cur = s.cur := rfl
@[simp] theorem State.modQueue_stalled (n : Nat) (f : HQueue → HQueue) : (s.modQueue n f).stalled = s.stalled := rfl
@[simp] theorem State.modQueue_fresh (n : Nat) (f : HQueue → HQueue) : (s.modQueue n f).fresh = s.fresh := rfl
@[simp] theorem State.modQueue_seq (n : Nat) (f : HQueue → HQueue) : (s.modQueue n f).seq = s.seq := rfl
@[simp] theorem State.modQueue_procs (n : Nat) (f : HQueue → HQueue) : (s.modQueue n f).procs = s.procs := rfl
@[simp] theorem State.modQueue_cores (n : Nat) (f : HQueue → HQueue) : (s.modQueue n f).cores = s.cores := rfl
@[simp] theorem State.modQueue_clusters (n : Nat) (f : HQueue → HQueue) : (s.modQueue n f).clusters = s.clusters := rfl
@[simp] theorem State.modQueue_dies (n : Nat) (f : HQueue → HQueue) : (s.modQueue n f).dies = s.dies := rfl
@[simp] theorem State.modQueue_ios (n : Nat) (f : HQueue → HQueue) : (s.modQueue n f).ios = s.ios := rfl
@[simp] theorem State.modQueue_ctxs (n : Nat) (f : HQueue → HQueue) : (s.modQueue n f).ctxs = s.ctxs := rfl
@[simp] theorem State.modQueue_mem (n : Nat) (f : HQueue → HQueue) : (s.modQueue n f).mem = s.mem := rfl
@[simp] theorem State.modQueue_empty (n : Nat) (f : HQueue → HQueue) : (s.modQueue n f).empty = s.empty := rfl
@[simp] theorem State.modQueue_ecc (n : Nat) (f : HQueue → HQueue) : (s.modQueue n f).ecc = s.ecc := rfl
@[simp] theorem State.modQueue_waiters (n : Nat) (f : HQueue → HQueue) : (s.modQueue n f).waiters = s.waiters := rfl
@[simp] theorem State.modQueue_pipes (n : Nat) (f : HQueue → HQueue) : (s.modQueue n f).pipes = s.pipes := rfl
@[simp] theorem State.modQueue_tiles (n : Nat) (f : HQueue → HQueue) : (s.modQueue n f).tiles = s.tiles := rfl
@[simp] theorem State.modQueue_chanIn (n : Nat) (f : HQueue → HQueue) : (s.modQueue n f).chanIn = s.chanIn := rfl
@[simp] theorem State.modQueue_notices (n : Nat) (f : HQueue → HQueue) : (s.modQueue n f).notices = s.notices := rfl
@[simp] theorem State.modQueue_gpackets (n : Nat) (f : HQueue → HQueue) : (s.modQueue n f).gpackets = s.gpackets := rfl
@[simp] theorem State.modQueue_gArrive (n : Nat) (f : HQueue → HQueue) : (s.modQueue n f).gArrive = s.gArrive := rfl
@[simp] theorem State.modQueue_gDone (n : Nat) (f : HQueue → HQueue) : (s.modQueue n f).gDone = s.gDone := rfl
@[simp] theorem State.modQueue_gContrib (n : Nat) (f : HQueue → HQueue) : (s.modQueue n f).gContrib = s.gContrib := rfl
@[simp] theorem State.modQueue_wire (n : Nat) (f : HQueue → HQueue) : (s.modQueue n f).wire = s.wire := rfl
@[simp] theorem State.modQueue_ctl (n : Nat) (f : HQueue → HQueue) : (s.modQueue n f).ctl = s.ctl := rfl
@[simp] theorem State.modQueue_responses (n : Nat) (f : HQueue → HQueue) : (s.modQueue n f).responses = s.responses := rfl
@[simp] theorem State.modQueue_kicks (n : Nat) (f : HQueue → HQueue) : (s.modQueue n f).kicks = s.kicks := rfl
@[simp] theorem State.modQueue_rmacks (n : Nat) (f : HQueue → HQueue) : (s.modQueue n f).rmacks = s.rmacks := rfl
@[simp] theorem State.modQueue_flags (n : Nat) (f : HQueue → HQueue) : (s.modQueue n f).flags = s.flags := rfl
@[simp] theorem State.modQueue_flagSrcs (n : Nat) (f : HQueue → HQueue) : (s.modQueue n f).flagSrcs = s.flagSrcs := rfl
@[simp] theorem State.modQueue_forks (n : Nat) (f : HQueue → HQueue) : (s.modQueue n f).forks = s.forks := rfl
@[simp] theorem State.modQueue_links (n : Nat) (f : HQueue → HQueue) : (s.modQueue n f).links = s.links := rfl
@[simp] theorem State.modQueue_sessions (n : Nat) (f : HQueue → HQueue) : (s.modQueue n f).sessions = s.sessions := rfl
@[simp] theorem State.modQueue_epochs (n : Nat) (f : HQueue → HQueue) : (s.modQueue n f).epochs = s.epochs := rfl
@[simp] theorem State.modQueue_devId (n : Nat) (f : HQueue → HQueue) : (s.modQueue n f).devId = s.devId := rfl
@[simp] theorem State.modQueue_map (n : Nat) (f : HQueue → HQueue) : (s.modQueue n f).map = s.map := rfl
@[simp] theorem State.modQueue_hostPort (n : Nat) (f : HQueue → HQueue) : (s.modQueue n f).hostPort = s.hostPort := rfl
@[simp] theorem State.modQueue_funcUp (n : Nat) (f : HQueue → HQueue) : (s.modQueue n f).funcUp = s.funcUp := rfl
@[simp] theorem State.modQueue_mrev (n : Nat) (f : HQueue → HQueue) : (s.modQueue n f).mrev = s.mrev := rfl
@[simp] theorem State.modQueue_hostMem (n : Nat) (f : HQueue → HQueue) : (s.modQueue n f).hostMem = s.hostMem := rfl
@[simp] theorem State.modQueue_msix (n : Nat) (f : HQueue → HQueue) : (s.modQueue n f).msix = s.msix := rfl
@[simp] theorem State.modQueue_cxlReply (n : Nat) (f : HQueue → HQueue) : (s.modQueue n f).cxlReply = s.cxlReply := rfl
@[simp] theorem State.modQueue_toMgmt (n : Nat) (f : HQueue → HQueue) : (s.modQueue n f).toMgmt = s.toMgmt := rfl
@[simp] theorem State.modQueue_images (n : Nat) (f : HQueue → HQueue) : (s.modQueue n f).images = s.images := rfl
@[simp] theorem State.modQueue_closesOut (n : Nat) (f : HQueue → HQueue) : (s.modQueue n f).closesOut = s.closesOut := rfl
@[simp] theorem State.modQueue_turns (n : Nat) (f : HQueue → HQueue) : (s.modQueue n f).turns = s.turns := rfl
@[simp] theorem State.modQueue_barReply (n : Nat) (f : HQueue → HQueue) : (s.modQueue n f).barReply = s.barReply := rfl
@[simp] theorem State.modQueue_versions (n : Nat) (f : HQueue → HQueue) : (s.modQueue n f).versions = s.versions := rfl
@[simp] theorem State.modQueue_lastEpoch (n : Nat) (f : HQueue → HQueue) : (s.modQueue n f).lastEpoch = s.lastEpoch := rfl
@[simp] theorem State.modQueue_cfgRetry (n : Nat) (f : HQueue → HQueue) : (s.modQueue n f).cfgRetry = s.cfgRetry := rfl

@[simp] theorem State.withCur_agenda (q : Proc) : (s.withCur q).agenda = s.agenda := rfl
@[simp] theorem State.withCur_focus (q : Proc) : (s.withCur q).focus = s.focus := rfl
@[simp] theorem State.withCur_cur (q : Proc) : (s.withCur q).cur = s.cur := rfl
@[simp] theorem State.withCur_stalled (q : Proc) : (s.withCur q).stalled = s.stalled := rfl
@[simp] theorem State.withCur_fresh (q : Proc) : (s.withCur q).fresh = s.fresh := rfl
@[simp] theorem State.withCur_seq (q : Proc) : (s.withCur q).seq = s.seq := rfl
@[simp] theorem State.withCur_cores (q : Proc) : (s.withCur q).cores = s.cores := rfl
@[simp] theorem State.withCur_clusters (q : Proc) : (s.withCur q).clusters = s.clusters := rfl
@[simp] theorem State.withCur_dies (q : Proc) : (s.withCur q).dies = s.dies := rfl
@[simp] theorem State.withCur_ios (q : Proc) : (s.withCur q).ios = s.ios := rfl
@[simp] theorem State.withCur_ctxs (q : Proc) : (s.withCur q).ctxs = s.ctxs := rfl
@[simp] theorem State.withCur_queues (q : Proc) : (s.withCur q).queues = s.queues := rfl
@[simp] theorem State.withCur_mem (q : Proc) : (s.withCur q).mem = s.mem := rfl
@[simp] theorem State.withCur_empty (q : Proc) : (s.withCur q).empty = s.empty := rfl
@[simp] theorem State.withCur_ecc (q : Proc) : (s.withCur q).ecc = s.ecc := rfl
@[simp] theorem State.withCur_waiters (q : Proc) : (s.withCur q).waiters = s.waiters := rfl
@[simp] theorem State.withCur_pipes (q : Proc) : (s.withCur q).pipes = s.pipes := rfl
@[simp] theorem State.withCur_tiles (q : Proc) : (s.withCur q).tiles = s.tiles := rfl
@[simp] theorem State.withCur_chanIn (q : Proc) : (s.withCur q).chanIn = s.chanIn := rfl
@[simp] theorem State.withCur_notices (q : Proc) : (s.withCur q).notices = s.notices := rfl
@[simp] theorem State.withCur_gpackets (q : Proc) : (s.withCur q).gpackets = s.gpackets := rfl
@[simp] theorem State.withCur_gArrive (q : Proc) : (s.withCur q).gArrive = s.gArrive := rfl
@[simp] theorem State.withCur_gDone (q : Proc) : (s.withCur q).gDone = s.gDone := rfl
@[simp] theorem State.withCur_gContrib (q : Proc) : (s.withCur q).gContrib = s.gContrib := rfl
@[simp] theorem State.withCur_wire (q : Proc) : (s.withCur q).wire = s.wire := rfl
@[simp] theorem State.withCur_ctl (q : Proc) : (s.withCur q).ctl = s.ctl := rfl
@[simp] theorem State.withCur_responses (q : Proc) : (s.withCur q).responses = s.responses := rfl
@[simp] theorem State.withCur_kicks (q : Proc) : (s.withCur q).kicks = s.kicks := rfl
@[simp] theorem State.withCur_rmacks (q : Proc) : (s.withCur q).rmacks = s.rmacks := rfl
@[simp] theorem State.withCur_flags (q : Proc) : (s.withCur q).flags = s.flags := rfl
@[simp] theorem State.withCur_flagSrcs (q : Proc) : (s.withCur q).flagSrcs = s.flagSrcs := rfl
@[simp] theorem State.withCur_forks (q : Proc) : (s.withCur q).forks = s.forks := rfl
@[simp] theorem State.withCur_links (q : Proc) : (s.withCur q).links = s.links := rfl
@[simp] theorem State.withCur_sessions (q : Proc) : (s.withCur q).sessions = s.sessions := rfl
@[simp] theorem State.withCur_epochs (q : Proc) : (s.withCur q).epochs = s.epochs := rfl
@[simp] theorem State.withCur_devId (q : Proc) : (s.withCur q).devId = s.devId := rfl
@[simp] theorem State.withCur_map (q : Proc) : (s.withCur q).map = s.map := rfl
@[simp] theorem State.withCur_hostPort (q : Proc) : (s.withCur q).hostPort = s.hostPort := rfl
@[simp] theorem State.withCur_funcUp (q : Proc) : (s.withCur q).funcUp = s.funcUp := rfl
@[simp] theorem State.withCur_mrev (q : Proc) : (s.withCur q).mrev = s.mrev := rfl
@[simp] theorem State.withCur_hostMem (q : Proc) : (s.withCur q).hostMem = s.hostMem := rfl
@[simp] theorem State.withCur_msix (q : Proc) : (s.withCur q).msix = s.msix := rfl
@[simp] theorem State.withCur_cxlReply (q : Proc) : (s.withCur q).cxlReply = s.cxlReply := rfl
@[simp] theorem State.withCur_toMgmt (q : Proc) : (s.withCur q).toMgmt = s.toMgmt := rfl
@[simp] theorem State.withCur_images (q : Proc) : (s.withCur q).images = s.images := rfl
@[simp] theorem State.withCur_closesOut (q : Proc) : (s.withCur q).closesOut = s.closesOut := rfl
@[simp] theorem State.withCur_turns (q : Proc) : (s.withCur q).turns = s.turns := rfl
@[simp] theorem State.withCur_barReply (q : Proc) : (s.withCur q).barReply = s.barReply := rfl
@[simp] theorem State.withCur_versions (q : Proc) : (s.withCur q).versions = s.versions := rfl
@[simp] theorem State.withCur_lastEpoch (q : Proc) : (s.withCur q).lastEpoch = s.lastEpoch := rfl
@[simp] theorem State.withCur_cfgRetry (q : Proc) : (s.withCur q).cfgRetry = s.cfgRetry := rfl

@[simp] theorem State.modCore_at_proc (n : Nat) (f : Core → Core) (k : Nat) : (s.modCore n f).proc k = s.proc k := rfl
@[simp] theorem State.modCluster_at_proc (n : Nat) (f : Cluster → Cluster) (k : Nat) : (s.modCluster n f).proc k = s.proc k := rfl
@[simp] theorem State.modDie_at_proc (n : Nat) (f : Die → Die) (k : Nat) : (s.modDie n f).proc k = s.proc k := rfl
@[simp] theorem State.modIo_at_proc (n : Nat) (f : IoDie → IoDie) (k : Nat) : (s.modIo n f).proc k = s.proc k := rfl
@[simp] theorem State.modCtx_at_proc (n : Nat) (f : Ctx → Ctx) (k : Nat) : (s.modCtx n f).proc k = s.proc k := rfl
@[simp] theorem State.modQueue_at_proc (n : Nat) (f : HQueue → HQueue) (k : Nat) : (s.modQueue n f).proc k = s.proc k := rfl
@[simp] theorem State.modProc_at_core (n : Nat) (f : Proc → Proc) (k : Nat) : (s.modProc n f).core k = s.core k := rfl
@[simp] theorem State.modCluster_at_core (n : Nat) (f : Cluster → Cluster) (k : Nat) : (s.modCluster n f).core k = s.core k := rfl
@[simp] theorem State.modDie_at_core (n : Nat) (f : Die → Die) (k : Nat) : (s.modDie n f).core k = s.core k := rfl
@[simp] theorem State.modIo_at_core (n : Nat) (f : IoDie → IoDie) (k : Nat) : (s.modIo n f).core k = s.core k := rfl
@[simp] theorem State.modCtx_at_core (n : Nat) (f : Ctx → Ctx) (k : Nat) : (s.modCtx n f).core k = s.core k := rfl
@[simp] theorem State.modQueue_at_core (n : Nat) (f : HQueue → HQueue) (k : Nat) : (s.modQueue n f).core k = s.core k := rfl
@[simp] theorem State.withCur_at_core (q : Proc) (k : Nat) : (s.withCur q).core k = s.core k := rfl
@[simp] theorem State.modProc_at_cluster (n : Nat) (f : Proc → Proc) (k : Nat) : (s.modProc n f).cluster k = s.cluster k := rfl
@[simp] theorem State.modCore_at_cluster (n : Nat) (f : Core → Core) (k : Nat) : (s.modCore n f).cluster k = s.cluster k := rfl
@[simp] theorem State.modDie_at_cluster (n : Nat) (f : Die → Die) (k : Nat) : (s.modDie n f).cluster k = s.cluster k := rfl
@[simp] theorem State.modIo_at_cluster (n : Nat) (f : IoDie → IoDie) (k : Nat) : (s.modIo n f).cluster k = s.cluster k := rfl
@[simp] theorem State.modCtx_at_cluster (n : Nat) (f : Ctx → Ctx) (k : Nat) : (s.modCtx n f).cluster k = s.cluster k := rfl
@[simp] theorem State.modQueue_at_cluster (n : Nat) (f : HQueue → HQueue) (k : Nat) : (s.modQueue n f).cluster k = s.cluster k := rfl
@[simp] theorem State.withCur_at_cluster (q : Proc) (k : Nat) : (s.withCur q).cluster k = s.cluster k := rfl
@[simp] theorem State.modProc_at_die (n : Nat) (f : Proc → Proc) (k : Nat) : (s.modProc n f).die k = s.die k := rfl
@[simp] theorem State.modCore_at_die (n : Nat) (f : Core → Core) (k : Nat) : (s.modCore n f).die k = s.die k := rfl
@[simp] theorem State.modCluster_at_die (n : Nat) (f : Cluster → Cluster) (k : Nat) : (s.modCluster n f).die k = s.die k := rfl
@[simp] theorem State.modIo_at_die (n : Nat) (f : IoDie → IoDie) (k : Nat) : (s.modIo n f).die k = s.die k := rfl
@[simp] theorem State.modCtx_at_die (n : Nat) (f : Ctx → Ctx) (k : Nat) : (s.modCtx n f).die k = s.die k := rfl
@[simp] theorem State.modQueue_at_die (n : Nat) (f : HQueue → HQueue) (k : Nat) : (s.modQueue n f).die k = s.die k := rfl
@[simp] theorem State.withCur_at_die (q : Proc) (k : Nat) : (s.withCur q).die k = s.die k := rfl
@[simp] theorem State.modProc_at_io (n : Nat) (f : Proc → Proc) (k : Nat) : (s.modProc n f).io k = s.io k := rfl
@[simp] theorem State.modCore_at_io (n : Nat) (f : Core → Core) (k : Nat) : (s.modCore n f).io k = s.io k := rfl
@[simp] theorem State.modCluster_at_io (n : Nat) (f : Cluster → Cluster) (k : Nat) : (s.modCluster n f).io k = s.io k := rfl
@[simp] theorem State.modDie_at_io (n : Nat) (f : Die → Die) (k : Nat) : (s.modDie n f).io k = s.io k := rfl
@[simp] theorem State.modCtx_at_io (n : Nat) (f : Ctx → Ctx) (k : Nat) : (s.modCtx n f).io k = s.io k := rfl
@[simp] theorem State.modQueue_at_io (n : Nat) (f : HQueue → HQueue) (k : Nat) : (s.modQueue n f).io k = s.io k := rfl
@[simp] theorem State.withCur_at_io (q : Proc) (k : Nat) : (s.withCur q).io k = s.io k := rfl
@[simp] theorem State.modProc_at_ctx (n : Nat) (f : Proc → Proc) (k : Nat) : (s.modProc n f).ctx k = s.ctx k := rfl
@[simp] theorem State.modCore_at_ctx (n : Nat) (f : Core → Core) (k : Nat) : (s.modCore n f).ctx k = s.ctx k := rfl
@[simp] theorem State.modCluster_at_ctx (n : Nat) (f : Cluster → Cluster) (k : Nat) : (s.modCluster n f).ctx k = s.ctx k := rfl
@[simp] theorem State.modDie_at_ctx (n : Nat) (f : Die → Die) (k : Nat) : (s.modDie n f).ctx k = s.ctx k := rfl
@[simp] theorem State.modIo_at_ctx (n : Nat) (f : IoDie → IoDie) (k : Nat) : (s.modIo n f).ctx k = s.ctx k := rfl
@[simp] theorem State.modQueue_at_ctx (n : Nat) (f : HQueue → HQueue) (k : Nat) : (s.modQueue n f).ctx k = s.ctx k := rfl
@[simp] theorem State.withCur_at_ctx (q : Proc) (k : Nat) : (s.withCur q).ctx k = s.ctx k := rfl
@[simp] theorem State.modProc_at_queue (n : Nat) (f : Proc → Proc) (k : Nat) : (s.modProc n f).queue k = s.queue k := rfl
@[simp] theorem State.modCore_at_queue (n : Nat) (f : Core → Core) (k : Nat) : (s.modCore n f).queue k = s.queue k := rfl
@[simp] theorem State.modCluster_at_queue (n : Nat) (f : Cluster → Cluster) (k : Nat) : (s.modCluster n f).queue k = s.queue k := rfl
@[simp] theorem State.modDie_at_queue (n : Nat) (f : Die → Die) (k : Nat) : (s.modDie n f).queue k = s.queue k := rfl
@[simp] theorem State.modIo_at_queue (n : Nat) (f : IoDie → IoDie) (k : Nat) : (s.modIo n f).queue k = s.queue k := rfl
@[simp] theorem State.modCtx_at_queue (n : Nat) (f : Ctx → Ctx) (k : Nat) : (s.modCtx n f).queue k = s.queue k := rfl
@[simp] theorem State.withCur_at_queue (q : Proc) (k : Nat) : (s.withCur q).queue k = s.queue k := rfl
@[simp] theorem State.modProc_at_link (n : Nat) (f : Proc → Proc) (k : Nat) : (s.modProc n f).link k = s.link k := rfl
@[simp] theorem State.modCore_at_link (n : Nat) (f : Core → Core) (k : Nat) : (s.modCore n f).link k = s.link k := rfl
@[simp] theorem State.modCluster_at_link (n : Nat) (f : Cluster → Cluster) (k : Nat) : (s.modCluster n f).link k = s.link k := rfl
@[simp] theorem State.modDie_at_link (n : Nat) (f : Die → Die) (k : Nat) : (s.modDie n f).link k = s.link k := rfl
@[simp] theorem State.modIo_at_link (n : Nat) (f : IoDie → IoDie) (k : Nat) : (s.modIo n f).link k = s.link k := rfl
@[simp] theorem State.modCtx_at_link (n : Nat) (f : Ctx → Ctx) (k : Nat) : (s.modCtx n f).link k = s.link k := rfl
@[simp] theorem State.modQueue_at_link (n : Nat) (f : HQueue → HQueue) (k : Nat) : (s.modQueue n f).link k = s.link k := rfl
@[simp] theorem State.withCur_at_link (q : Proc) (k : Nat) : (s.withCur q).link k = s.link k := rfl

end Sys2Proof.Machine
end

