-- ==== Sys2Proof/Laws/Perform.lean ====
section
/-! SUPPORT. How an instruction that comes to its own effect settles: the one lemma that every completion cites, and
the forms of outcome that recur. -/

namespace Sys2Proof.Machine

theorem perform_next (e : Entry) (x : Args) (s : State) (body : Env → Act) : ∃ t, perform e x s body = .next t := by
  unfold perform; split <;> exact ⟨_, rfl⟩

/-- An instruction that is ready runs its effect on its operand values. -/
theorem perform_ready {e : Entry} {x : Args} {s : State} {p : Proc} (h : Ready e x s p) (body : Env → Act) :
    perform e x s body = .next (settle s s.cur p x (body (envOf e x s s.cur p))) := by
  have hw : ((written e x p).filter fun r => p.pending.contains r).isEmpty = true := by
    rw [List.isEmpty_iff, List.filter_eq_nil_iff]
    intro r hr
    have := List.all_eq_true.1 h.dests r hr
    simp_all
  simp only [perform, h.proc, runProc, h.checks, h.guardFull, h.guard, h.sources, hw, h.packet, h.tile, Bool.not_true,
    Bool.false_eq_true, if_false]

theorem modProc_eq {s : State} {p : Proc} (f : Proc → Proc) (h : s.proc s.cur = some p) :
    s.modProc s.cur f = s.withCur (f p) := by
  simp only [State.modProc, State.withCur, tblMod_some f h]

@[simp] theorem withCur_cur (s : State) (q : Proc) : (s.withCur q).proc s.cur = some q := tblGet_set_self _ _ _

@[simp] theorem withCur_withCur (s : State) (q r : Proc) : (s.withCur q).withCur r = s.withCur r := by
  simp [State.withCur]

theorem withCur_proc (s : State) (q : Proc) (n : Nat) :
    (s.withCur q).proc n = if n = s.cur then some q else s.proc n := tblGet_set _ _ _ _

theorem withCur_mod (s : State) (q : Proc) (f : Proc → Proc) : (s.withCur q).modProc s.cur f = s.withCur (f q) := by
  have h : (s.withCur q).proc (s.withCur q).cur = some q := withCur_cur s q
  have := modProc_eq f h
  rw [withCur_withCur] at this
  exact this

/-- The state in which a ready instruction acts. -/
theorem envOf_s {e : Entry} {x : Args} {s : State} {p : Proc} (h : s.proc s.cur = some p) :
    (envOf e x s s.cur p).s = s.withCur (taken e x p) := modProc_eq _ h

@[simp] theorem envOf_s0 (e : Entry) (x : Args) (s : State) (pid : Nat) (p : Proc) : (envOf e x s pid p).s0 = s := rfl
@[simp] theorem envOf_pid (e : Entry) (x : Args) (s : State) (pid : Nat) (p : Proc) : (envOf e x s pid p).pid = pid := rfl
@[simp] theorem envOf_p (e : Entry) (x : Args) (s : State) (pid : Nat) (p : Proc) : (envOf e x s pid p).p = p := rfl
@[simp] theorem envOf_x (e : Entry) (x : Args) (s : State) (pid : Nat) (p : Proc) : (envOf e x s pid p).x = x := rfl

theorem upd_eq {e : Entry} {x : Args} {s : State} {p : Proc} (h : s.proc s.cur = some p) (f : Proc → Proc) :
    (envOf e x s s.cur p).upd f = s.withCur (f (taken e x p)) := by
  simp only [Env.upd, envOf_pid, envOf_s h, withCur_mod]

/-- An effect on the process alone. -/
theorem settle_upd {e : Entry} {x : Args} {s : State} {p : Proc} (h : s.proc s.cur = some p) (f : Proc → Proc) :
    settle s s.cur p x (.next ((envOf e x s s.cur p).upd f)) = s.after e x p f := by
  simp only [settle, upd_eq h, State.retire, withCur_mod, State.after]

theorem settle_ret {e : Entry} {x : Args} {s : State} {p : Proc} (h : s.proc s.cur = some p) (v : Word) :
    settle s s.cur p x ((envOf e x s s.cur p).ret v) = s.after e x p fun q => q.wrOp x.d.toNat v := settle_upd h _

theorem settle_retP {e : Entry} {x : Args} {s : State} {p : Proc} (h : s.proc s.cur = some p) (v : Bool) :
    settle s s.cur p x ((envOf e x s s.cur p).retP v) = s.after e x p fun q => q.wr (.p x.d.toNat) (if v then 1 else 0) :=
  settle_upd h _

theorem settle_retA {e : Entry} {x : Args} {s : State} {p : Proc} (h : s.proc s.cur = some p) (r : AReg) :
    settle s s.cur p x ((envOf e x s s.cur p).retA r) = s.after e x p fun q => q.wrAddr x.d.toNat r := settle_upd h _

/-- A jump with no effect beside the marks. -/
theorem settle_jump {e : Entry} {x : Args} {s : State} {p : Proc} (h : s.proc s.cur = some p) (t : Word) :
    settle s s.cur p x (.jump (envOf e x s s.cur p).s t) = s.afterTo e x p t fun q => q := by
  simp only [settle, envOf_s h, State.retire, withCur_mod, State.afterTo]

/-- A fault of an instruction is the delivery of that fault, and nothing before it (R229). -/
theorem settle_trap {e : Entry} {x : Args} {s : State} {p : Proc} (c info : Nat) (fa : Word) :
    settle s s.cur p x ((envOf e x s s.cur p).trap c info fa)
      = s.deliver s.cur { cause := c, info := info, faddr := fa } (if c = 6 then p.nextPc x else p.pc) := rfl

theorem finishFp_ok {e : Entry} {x : Args} {s : State} {p : Proc} (h : s.proc s.cur = some p) {c : Cond}
    (ht : trapCause p.fpc c = none) (w : Proc → Proc) :
    settle s s.cur p x ((envOf e x s s.cur p).finishFp c w) = s.after e x p fun q => w (q.raiseFlags c) := by
  simp only [Env.finishFp, envOf_p, ht]; exact settle_upd h _

theorem finishFp_trap {e : Entry} {x : Args} {s : State} {p : Proc} {c : Cond} {k : Nat}
    (h : s.proc s.cur = some p) (ht : trapCause p.fpc c = some k) (hk : k ≠ 6) (w : Proc → Proc) :
    settle s s.cur p x ((envOf e x s s.cur p).finishFp c w)
      = (s.withCur (p.raiseFlags c)).deliver s.cur { cause := k } p.pc := by
  simp only [Env.finishFp, envOf_p, ht, settle, envOf_s0, envOf_pid, modProc_eq _ h, hk, if_false]

/-! ### What the updates of a process leave -/

theorem Proc.put_shape (p : Proc) (r : RName) (v : Word) :
    p.put r v = { p with win := (p.put r v).win, glob := (p.put r v).glob, areg := (p.put r v).areg, pred := (p.put r v).pred } := by
  cases r with
  | p i => simp only [Proc.put]; split <;> rfl
  | _ => rfl

theorem Proc.setEmpty_shape (p : Proc) (r : RName) : p.setEmpty r = { p with empties := (p.setEmpty r).empties } := by
  unfold Proc.setEmpty; split <;> rfl

theorem taken_shape (e : Entry) (x : Args) (p : Proc) : taken e x p = { p with empties := (taken e x p).empties } := by
  unfold taken
  generalize marked e x p = l
  induction l generalizing p with
  | nil => rfl
  | cons r l ih =>
    rw [List.foldl_cons, ih, Proc.setEmpty_shape]

theorem Proc.wr_shape (p : Proc) (r : RName) (v : Word) :
    p.wr r v = { p with win := (p.wr r v).win, glob := (p.wr r v).glob, areg := (p.wr r v).areg,
                        pred := (p.wr r v).pred, empties := (p.wr r v).empties } := by
  unfold Proc.wr Proc.setFull; rw [Proc.put_shape]

theorem Proc.wrOp_shape (p : Proc) (f : Nat) (v : Word) :
    p.wrOp f v = { p with win := (p.wrOp f v).win, glob := (p.wrOp f v).glob, areg := (p.wrOp f v).areg,
                          pred := (p.wrOp f v).pred, empties := (p.wrOp f v).empties } := by
  unfold Proc.wrOp; split
  · rw [Proc.wr_shape]
  · rfl

/-! ### Registers read and written -/

theorem Proc.reg_put (p : Proc) (r q : RName) (v : Word) (hp : ∀ i, r ≠ .p i) :
    (p.put r v).reg q = if q = r then v else p.reg q := by
  cases r with
  | p i => exact absurd rfl (hp i)
  | w n => cases q <;> simp [Proc.put, Proc.reg, Proc.addr, Proc.predV, tblGetD_set]
  | g n => cases q <;> simp [Proc.put, Proc.reg, Proc.addr, Proc.predV, tblGetD_set]
  | a n =>
    cases q with
    | a m => by_cases h : m = n <;> simp [Proc.put, Proc.reg, Proc.addr, tblGetD_set, h]
    | _ => simp [Proc.put, Proc.reg, Proc.addr, Proc.predV]

@[simp] theorem Proc.reg_setFull (p : Proc) (r q : RName) : (p.setFull r).reg q = p.reg q := by
  cases q <;> rfl

theorem Proc.reg_wr (p : Proc) (r q : RName) (v : Word) (hp : ∀ i, r ≠ .p i) :
    (p.wr r v).reg q = if q = r then v else p.reg q := by
  simp [Proc.wr, Proc.reg_put p r q v hp]

@[simp] theorem Proc.reg_setEmpty (p : Proc) (r q : RName) : (p.setEmpty r).reg q = p.reg q := by
  rw [Proc.setEmpty_shape]; cases q <;> rfl

@[simp] theorem reg_taken (e : Entry) (x : Args) (p : Proc) (q : RName) : (taken e x p).reg q = p.reg q := by
  rw [taken_shape]; cases q <;> rfl

theorem Proc.full_wr (p : Proc) (r q : RName) (v : Word) : (p.wr r v).full q = (q == r || p.full q) := by
  have : (p.put r v).empties = p.empties := by rw [Proc.put_shape]
  by_cases h : q = r
  · subst h; simp [Proc.wr, Proc.full, Proc.setFull]
  · by_cases h0 : q = .p 0 <;> by_cases h1 : q ∈ p.empties <;>
      simp [Proc.wr, Proc.full, Proc.setFull, this, h, h0, h1]

end Sys2Proof.Machine
end

