-- ==== Sys2Proof/Tests/Slice0.lean ====
section
/-! SUPPORT. Tests: ill-formed terms that WellFormed refuses, words that the manual writes out, and results that the manual
states. Beside them the small machine that the tests and the witnesses of the statements run on. -/

namespace Sys2Proof.Tests

open Sys2Proof Sys2Proof.Machine

-- One kernel evaluation at a time: each would otherwise hold a thread of its own.
set_option Elab.async false

/-- An instruction whose fields are zero, guarded by p0. -/
def plain : Args :=
  { len := .l64, gpred := 0, gsense := false, i := false, d := 0, a := 0, b := 0, sa := false, sb := false, e := false,
    ty := 0, im21 := 0, ext := 0 }

/-! ### Ill-formed terms, one for each check of R76 -/

theorem test_wf_accepts : (Instr.add { plain with d := 1, a := 2, b := 3 }).wellFormed = true := by decide +kernel
theorem test_wf_length : (Instr.ffma { plain with len := .l96, ty := 8 }).wellFormed = false := by decide +kernel
theorem test_wf_extension : (Instr.add { plain with ext := 1 }).wellFormed = false := by decide +kernel
theorem test_wf_type : (Instr.add { plain with ty := 9 }).wellFormed = false := by decide +kernel
theorem test_wf_modifier : (Instr.add { plain with im21 := 0x800 }).wellFormed = false := by decide +kernel
theorem test_wf_rounding : (Instr.add { plain with im21 := 0x80 }).wellFormed = false := by decide +kernel
theorem test_wf_rounding_code : (Instr.fadd { plain with ty := 8, im21 := 0x380 }).wellFormed = false := by decide +kernel
theorem test_wf_unused_field : (Instr.abs { plain with b := 1 }).wellFormed = false := by decide +kernel
theorem test_wf_unused_c : (Instr.add { plain with im21 := 1 }).wellFormed = false := by decide +kernel
theorem test_wf_immediate : (Instr.abs { plain with i := true }).wellFormed = false := by decide +kernel
theorem test_wf_end_bit : (Instr.add { plain with e := true }).wellFormed = false := by decide +kernel
theorem test_wf_operand : (Instr.add { plain with a := 58 }).wellFormed = false := by decide +kernel
theorem test_wf_destination : (Instr.add { plain with d := 57 }).wellFormed = false := by decide +kernel
theorem test_wf_address_register : (Instr.ldl { plain with a := 3 }).wellFormed = false := by decide +kernel
theorem test_wf_sync_zero : (Instr.add { plain with a := 56, sa := true }).wellFormed = false := by decide +kernel
theorem test_wf_sync_unused : (Instr.abs { plain with sb := true }).wellFormed = false := by decide +kernel
theorem test_wf_sync_memory : (Instr.ldl { plain with a := 40, sa := true }).wellFormed = false := by decide +kernel
theorem test_wf_constructor : (Instr.chqBind { plain with im21 := 0x400 }).wellFormed = false := by decide +kernel

/-! ### Words of the manual, with the fields that their assembly text gives -/

/-- The bytes of a word decode to the instruction. -/
def reads (r : Nat × Nat × Nat × Instr) : Bool :=
  decide (decode (leBytes 8 r.1 ++ leBytes r.2.1 r.2.2.1) = .instr r.2.2.2)

def specWords0 : List (Nat × Nat × Nat × Instr) := [
   -- ADD.s64 w8, w0, w1
   (0x0000000040200000, 0, 0x0, .add { plain with d := 8, b := 1 }),
   -- ADD.s32 w9, w8, -5
   (0xFFFFD88008242000, 0, 0x0, .add { plain with d := 9, a := 8, ty := 1, i := true, im21 := 0x1FFFFB }),
   -- (!p2) FADD.f32.rz w10, w4.s, 1.5
   (0x00080490042AA081, 4, 0x3FC00000, .fadd { plain with len := .l96, gpred := 2, d := 10, a := 4, ty := 9, gsense := true, i := true, sa := true, im21 := 0x100, ext := 0x3FC00000 }),
   -- FFMA.f64 w11, w5, w6, w7
   (0x00003C01852C008C, 0, 0x0, .ffma { plain with d := 11, a := 5, b := 6, ty := 8, im21 := 0x7 }),
   -- AND.z64 w13, w8, w9
   (0x0000020248340018, 0, 0x0, .and { plain with d := 13, a := 8, b := 9, ty := 4 }),
   -- XOR.z64 w14, w13, w13
   (0x000002034D380020, 0, 0x0, .xor { plain with d := 14, a := 13, b := 13, ty := 4 }),
   -- NOP
   (0x0000000000000114, 0, 0x0, .nop plain),
   -- ADD.s64 w12, w8, 0x1_0000_0000
   (0x0000000008302002, 8, 0x100000000, .add { plain with len := .l128, d := 12, a := 8, i := true, ext := 0x100000000 }),
   -- GET.s64 w5, [a3]
   (0x0001C0002B140200, 0, 0x0, .get { plain with d := 5, a := 43, im21 := 0x38 }),
   -- FENCE.rel.device
   (0x01A000000000020C, 0, 0x0, .fenceRel { plain with im21 := 0x3400 }),
   -- WAITC 0, 0, any, any
   (0x7FE0000000000214, 0, 0x0, .waitc { plain with im21 := 0xFFC00 }),
   -- RMV w8, w9
   (0x000000000920022C, 0, 0x0, .rmv { plain with d := 8, a := 9 }),
   -- RMACK w5, w6
   (0x0000000006140230, 0, 0x0, .rmack { plain with d := 5, a := 6 }),
   -- QPOST.try w5, w6, [a2]
   (0x0020000A861402FC, 0, 0x0, .qpost { plain with d := 5, a := 6, b := 42, im21 := 0x400 })]

theorem test_spec_words_0 : specWords0.all reads = true := by decide +kernel

def specWords1 : List (Nat × Nat × Nat × Instr) := [
   -- SPAWN.core w9, w10, w11, label, w16, 4
   (0x84400002CA240281, 4, 0x10, .spawn { plain with len := .l96, d := 9, a := 10, b := 11, im21 := 0x108800, ext := 0x10 }),
   -- JINIT [a3], w4
   (0x000000012B000288, 0, 0x0, .jinit { plain with a := 43, b := 4 }),
   -- JOIN [a3]
   (0x000000002B00028C, 0, 0x0, .join { plain with a := 43 }),
   -- PUSHK [a2]
   (0x000000002A000290, 0, 0x0, .pushk { plain with a := 42 }),
   -- SPRI w5, w6
   (0x000000000614029C, 0, 0x0, .spri { plain with d := 5, a := 6 }),
   -- SLEEP.abs w4
   (0x00200000040002A0, 0, 0x0, .sleep { plain with a := 4, im21 := 0x400 }),
   -- ALTB
   (0x00000000000002C8, 0, 0x0, .altb plain),
   -- ALTG.to w23
   (0x00400000170002CC, 0, 0x0, .altg { plain with a := 23, im21 := 0x800 }),
   -- ALTW w10
   (0x00000000002802D0, 0, 0x0, .altw { plain with d := 10 }),
   -- SEND w6, w7
   (0x00000041C60002A4, 0, 0x0, .send { plain with a := 6, b := 7, e := true }),
   -- SEND.m w6, w7
   (0x00000001C60002A4, 0, 0x0, .send { plain with a := 6, b := 7 }),
   -- RECV.a.l w8, w6, p3
   (0x00601800062002A8, 0, 0x0, .recv { plain with d := 8, a := 6, im21 := 0xC03 }),
   -- SENDT w9, w6, [a2], w11
   (0x0000580A862402B4, 0, 0x0, .sendt { plain with d := 9, a := 6, b := 42, im21 := 0xB }),
   -- CHB w5, w6, w7
   (0x00000001C61402BC, 0, 0x0, .chb { plain with d := 5, a := 6, b := 7 })]

theorem test_spec_words_1 : specWords1.all reads = true := by decide +kernel

def specWords2 : List (Nat × Nat × Nat × Instr) := [
   -- CHQ.stat w5, w6
   (0x00200000061402C0, 0, 0x0, .chqStat { plain with d := 5, a := 6, im21 := 0x400 }),
   -- KMOV.tok k2, w11
   (0x000000000B081774, 0, 0x0, .kmov { plain with d := 2, a := 11 }),
   -- VRNG.zm.z32 v0, w8, w9, w10, k2
   (0x014052824800036C, 0, 0x0, .vrng { plain with a := 8, b := 9, ty := 5, im21 := 0x280A }),
   -- VCMP.lt.zm.z32 k1, v0, 0xE0000000, k2
   (0x0540028000042345, 4, 0xE0000000, .vcmp { plain with len := .l96, d := 1, ty := 5, i := true, im21 := 0xA800, ext := 0xE0000000 }),
   -- KPOP.z32 w12, k1
   (0x0000028001301374, 0, 0x0, .kpop { plain with d := 12, a := 1, ty := 5 }),
   -- VADD.zm.f32.rz v1, v2, v3, k2
   (0x01480480C2040320, 0, 0x0, .vadd { plain with d := 1, a := 2, b := 3, ty := 9, im21 := 0x2900 }),
   -- TCVT.p0.f32.bf16 y1, z0
   (0x00000100000403AC, 0, 0x0, .tcvt { plain with d := 1, ty := 2 }),
   -- TLD.bf16 y0, [a2]
   (0x000001002A000384, 0, 0x0, .tld { plain with a := 42, ty := 2 }),
   -- TMMA.bf16 z1, y0, y3
   (0x00000100C004038C, 0, 0x0, .tmma { plain with d := 1, b := 3, ty := 2 }),
   -- VFMA.f32 v4, v1, v3, v4
   (0x00002480C110032C, 0, 0x0, .vfma { plain with d := 4, a := 1, b := 3, ty := 9, im21 := 0x4 }),
   -- VPRM.z32 v2, v0, v7, v1
   (0x00000A81C008035C, 0, 0x0, .vprm { plain with d := 2, b := 7, ty := 5, im21 := 0x1 }),
   -- TBS.e4m3 v2, y1, w8, v4
   (0x00002202010803A0, 0, 0x0, .tbs { plain with d := 2, a := 1, b := 8, ty := 4, im21 := 0x4 }),
   -- XACC.v x0, v2
   (0x00000000020003A4, 0, 0x0, .xaccV { plain with a := 2 }),
   -- XRD.f32 w9, x0
   (0x00000080002403A8, 0, 0x0, .xrd { plain with d := 9, ty := 1 })]

theorem test_spec_words_2 : specWords2.all reads = true := by decide +kernel

def specWords3 : List (Nat × Nat × Nat × Instr) := [
   -- GRED.add.f32 w5, w6, w7
   (0x00000481C61402D8, 0, 0x0, .gred { plain with d := 5, a := 6, b := 7, ty := 9 }),
   -- GSEND.b w9, w6, [a2], w11, barrier 5
   (0x10A0580A862402D4, 0, 0x0, .gsend { plain with d := 9, a := 6, b := 42, im21 := 0x2140B }),
   -- GSW w6, w7, w8
   (0x00004001C60002E0, 0, 0x0, .gsw { plain with a := 6, b := 7, im21 := 0x8 }),
   -- BINI.arr w4, w5
   (0x00000001440002E4, 0, 0x0, .bini { plain with a := 4, b := 5 }),
   -- BINI.grp.auto w4, w0, w9
   (0x00C04800040002E4, 0, 0x0, .bini { plain with a := 4, im21 := 0x1809 }),
   -- BAW w6, w4
   (0x00000000041802F0, 0, 0x0, .baw { plain with d := 6, a := 4 }),
   -- BGEN.tgt w7, w4
   (0x00200000041C02F8, 0, 0x0, .bgen { plain with d := 7, a := 4, im21 := 0x400 }),
   -- TLBI.pg w4
   (0x0000000004000218, 0, 0x0, .tlbiPg { plain with a := 4 }),
   -- FBRD.w1 w5, w6, w7
   (0x00200001C614021C, 0, 0x0, .fbrd { plain with d := 5, a := 6, b := 7, im21 := 0x400 }),
   -- RPLY.all w4
   (0x0000000004000220, 0, 0x0, .rplyAll { plain with a := 4 }),
   -- RPLY.one w4, w5
   (0x0020000144000220, 0, 0x0, .rplyOne { plain with a := 4, b := 5, im21 := 0x400 }),
   -- PHOT w5, w6
   (0x0000000006140224, 0, 0x0, .phot { plain with d := 5, a := 6 }),
   -- PMIG w5, w6, w7
   (0x00000001C6140228, 0, 0x0, .pmig { plain with d := 5, a := 6, b := 7 })]

theorem test_spec_words_3 : specWords3.all reads = true := by decide +kernel

theorem test_reject_length : decode (leBytes 8 3) = .reject .lengthCode := by decide +kernel
theorem test_reject_crossing : decode (leBytes 4 0) = .reject .crosses := by decide +kernel
theorem test_reject_major : decode (leBytes 8 0x3FC) = .reject .major := by decide +kernel
theorem test_reject_function : decode (leBytes 8 0x0C00) = .reject .function := by decide +kernel

/-! ### The small machine: dies 0 and 1, core 0 and core 16, context 0, and one running process -/

def area (space : BitVec 2) (base len ptr : Nat) : AReg :=
  { ps := space ++ 0x3E#6, len := BitVec.ofNat 40 len, base := BitVec.ofNat 64 base, ptr := BitVec.ofNat 64 ptr }

/-- a0 LOCAL, a1 CLUSTER, a2 GLOBAL on die 0, a3 REMOTE on die 1; w4 = 4, w5 = 5, w6 = 6 and w7 = 64. -/
def proc0 : Proc :=
  { ctx := 0, rank := 0, core := 0, priv := true, vclass := true, depth := 4, st := .running, pc := 65536, resident := true,
    level := 1, res := 2, pool := [(0, ()), (1, ())], fpc := 0, lastIssue := 1,
    win := [(28, 4), (29, 5), (30, 6), (31, 64)],
    areg := [(0, area 0 0 4096 64), (1, area 1 0 4096 64), (2, area 2 65536 65536 65536), (3, area 3 0x10000010000 65536 0x10000010000)] }

/-- A page of die 0 or 1: mapped with every permission at offset 65,536 of the die, frame 1. -/
def page (die : Nat) : TlbEnt := { fetchPage with base := die * 2 ^ 40 + 65536 }

def ctx0 : Ctx :=
  { st := .running, tlen := 65536, slen := 65536, dpool := 4096, dieTable := [0, 1, 255, 255, 255, 255, 255, 255],
    tables := [(0, 0x20000), (1, 0x20000)], tabLen := 65536,
    chans := [(0, { assigned := true, type := 4 }), (1, { assigned := true, kind := 1, type := 0, depth := 2 }),
      (2, { assigned := true, kind := 1, type := 1, depth := 2 }), (3, { assigned := true, kind := 1, type := 2 }),
      (4, { assigned := true, kind := 3, type := 0, target := 0 }), (5, { assigned := true, kind := 4, type := 3, target := 7 })],
    groups := [(0, { first := 0, stride := 1, state := 2, count := 4 })] }

/-- The machine with process 1 in slot 0 of core 0. -/
def machine (p : Proc) : State :=
  { procs := [(1, p)], cur := 1, seq := 2, ctxs := [(0, ctx0)], funcUp := true,
    cores := [(0, { live := true, slots := [some 1, none, none, none, none, none, none, none] }), (16, { live := true })],
    dies := [(0, { present := true, tlb := [page 0] }), (1, { present := true, phys := 1, tlb := [page 1] })],
    ios := [(8, { present := true })], links := (List.range 41).map fun l => (l, { st := 2 }),
    queues := [(7, { en := true })] }

/-- A handle of context 0: type, receive end, channel index (R237). -/
def handle (type : Nat) (rx : Bool) (i : Nat) : Word := BitVec.ofNat 64 (type * 2 ^ 55 + (if rx then 2 ^ 54 else 0) + i)

/-- w8 of the process holds `v`. -/
def w8 (p : Proc) (v : Word) : Proc := { p with win := tblSet p.win 32 v }

/-- The process that an outcome leaves as process 1. -/
def after (o : Host.Outcome State Fault Refusal) : Option Proc :=
  match o with
  | .next t => t.proc 1
  | _ => none

/-- A scalar register of the process that an outcome leaves. -/
def reg (o : Host.Outcome State Fault Refusal) (f : Nat) : Option Word := (after o).map fun p => p.scalar f

/-! ### Results -/

-- R96: "SHR.s32 of 0xFFFF_FFF0 by 4 gives 0x0FFF_FFFF, which is then sign-extended from bit 31"
theorem test_shr_s32 : reg (exec (.shr { plain with d := 1, a := 8, b := 4, ty := 1 }) (machine (w8 proc0 0xFFFFFFF0))) 1 =
    some 0x0FFFFFFF := by decide +kernel
-- R96: "Without .sat, ABS and NEG of the most negative s value return that value"
theorem test_abs_min : reg (exec (.abs { plain with d := 1, a := 8 }) (machine (w8 proc0 0x8000000000000000))) 1 =
    some 0x8000000000000000 := by decide +kernel
-- R97: "DIV of the most negative s value by −1 gives that value"
theorem test_div_min : reg (exec (.div { plain with d := 1, a := 8, i := true, im21 := -1 })
    (machine (w8 proc0 0x8000000000000000))) 1 = some 0x8000000000000000 := by decide +kernel
-- R97: "If y = 0, with y from a register or an immediate, fault 8 is raised and D is not written"
theorem test_div_zero : (after (exec (.div { plain with d := 4, a := 8, i := true }) (machine proc0))).map
    (fun p => (p.cause, p.reg (.w 28), p.st)) = some (8, 4, .faulted) := by decide +kernel
-- R117: the target is p + 4 · off
theorem test_bra_back : (after (exec (.bra { plain with im21 := -1 }) (machine proc0))).map (·.pc) = some 65532 := by decide +kernel
-- R118, R86: the link in the new w7, the window one level up
theorem test_call : (after (exec (.call { plain with im21 := 4 }) (machine proc0))).map
    (fun p => (p.pc, p.level, p.reg (.w 55), p.reg (.w 28))) = some (65552, 2, 65544, 4) := by decide +kernel
-- R121: "If CR.THDL.ACT = 0, it raises fault 4"
theorem test_eret_outside : (after (exec (.eret plain) (machine proc0))).map (·.cause) = some 4 := by decide +kernel
-- R229, R94: a fault of a process with a handler saves its address and continues at the handler
theorem test_fault_entry : (after (exec (.brk { plain with im21 := 7 }) (machine { proc0 with thdl := 0x2001 }))).map
    (fun p => (p.pc, p.epc, p.cause, p.thdl, p.level)) = some (0x2000, 65536, 0x700000005, 0x2003, 2) := by decide +kernel
-- R55: "kmx(0, 0, 0) is 0x4B6E_FB59, and kmx(0, 0, 1) is 0x7B7E_CD36"
theorem test_kmx : (kmx 0 0 0, kmx 0 0 1) = (0x4B6EFB59, 0x7B7ECD36) := by decide +kernel
-- R140: a load of s8 extends the byte by its sign
theorem test_ldl_s8 : reg (exec (.ldl { plain with d := 1, a := 40, ty := 3, im21 := 7 })
    { machine proc0 with mem := memWrite [] (tcmPA 0 0 71) [0x80] }) 1 = some 0xFFFFFFFFFFFFFF80 := by decide +kernel
-- R126, R140: an access beyond the register's range raises fault 14 with its address
theorem test_ldl_range : (after (exec (.ldl { plain with d := 1, a := 40, im21 := 4032 }) (machine proc0))).map
    (fun p => (p.cause, p.faddr)) = some (14, 4096) := by decide +kernel
-- R132, R139: a GLOBAL store takes a store-buffer entry and counts
theorem test_stg : (after (exec (.stg { plain with a := 42, b := 4 }) (machine proc0))).map (·.cStore) = some 1 := by decide +kernel
-- R312: the e4m3 block of the rule: scale 125, elements 1.0, 1.0 and 0.5 give (0x500, 0xFFF5)
theorem test_tbs : blockPair (-9) true 125 (([0x38, 0x38, 0x30] ++ List.replicate 29 0).map fun b => (elemFmt 4).value b) =
    (0x500, 0xFFF5) := by decide +kernel
-- R314: "gives V = 0.625. XRD.f32 then writes 0x0000_0000_3F20_0000 to w9"
theorem test_xrd : reg (exec (.xrd { plain with d := 9, a := 0, ty := 1 }) (machine
    { proc0 with x := [(0, (({} : XAcc)).addPair 0x500 0xFFF5)] })) 9 = some 0x3F200000 := by decide +kernel
-- R327: a generation of one arrival completes at once
theorem test_bini : (match exec (.bini { plain with a := 4, b := 5 }) (machine proc0) with
    | .next t => some (t.bar 0 4)
    | _ => none) = some { state := 1, target := 5 } := by decide +kernel
-- R382: "A write to LK.RATEn is ignored whole if K is 0 or above 16, if M is above 8, or if K + M exceeds 24"
theorem test_rate : (rateWrite 0x10402 0x11F0F, rateWrite 0x10402 0x10C08) = (0x10402, 0x10C08) := by decide +kernel

/-! ### The two functions by which one instruction is placed and run -/

theorem test_table_word : decodeTableWord 64 0x0000000000200008 = some (.mul { plain with d := 8 }) := by decide +kernel
theorem test_step_from_reset : (match step (State.reset.withFetchWord 64 0x0000180000600058) with
    | .next t => (t.proc 1).map fun p => (p.pc, p.scalar 24)
    | _ => none) = some (65544, 3) := by decide +kernel

end Sys2Proof.Tests
end

