-- ==== Sys2Proof/Tests/Witness1.lean ====
section
/-! SUPPORT. Witnesses: for each statement, concrete states and operands that meet the hypotheses of its clauses. Here the
scalar, control, memory, engine and remote statements. -/

namespace Sys2Proof.Tests

open Sys2Proof Sys2Proof.Machine

-- One kernel evaluation at a time: each would otherwise hold a thread of its own.
set_option Elab.async false

/-- `Ready` as a computation. -/
def readyB (e : Entry) (x : Args) (s : State) (p : Proc) : Bool :=
  decide (s.proc s.cur = some p) && decide (lateChecks e x s p = none) && p.full (.p x.gpred.toNat) && guardTrue x p
    && (marked e x p).all p.full && (written e x p).all (fun r => !p.pending.contains r)
    && !(p.packet.isSome && multiCycle e.op e.fn x)
    && !(p.cTile != 0 && s.tileClash s.cur p.core (countedRegs e x).1 (countedRegs e x).2)

theorem ready_of {e : Entry} {x : Args} {s : State} {p : Proc} (h : readyB e x s p = true) : Ready e x s p := by
  simp only [readyB, Bool.and_eq_true, decide_eq_true_eq, Bool.not_eq_true'] at h
  constructor <;> tauto

theorem ready_all {α : Type} {l : List α} {f : α → Entry} {x : Args} {s : State} {p : Proc}
    (h : (l.all fun r => readyB (f r) x s p) = true) : ∀ r ∈ l, Ready (f r) x s p :=
  fun r hr => ready_of (List.all_eq_true.1 h r hr)

theorem ready_each {α : Type} {l : List α} {f : α → Entry} {g : α → Args} {s : State} {p : Proc}
    (h : (l.all fun r => readyB (f r) (g r) s p) = true) : ∀ r ∈ l, Ready (f r) (g r) s p :=
  fun r hr => ready_of (List.all_eq_true.1 h r hr)

theorem all_true {α : Type} (l : List α) (f : α → Bool) (h : l.all f = true) : ∀ r ∈ l, f r = true := List.all_eq_true.1 h

theorem all_dec {α : Type} {l : List α} {P : α → Prop} [DecidablePred P] (h : (l.all fun r => decide (P r)) = true) :
    ∀ r ∈ l, P r := fun r hr => of_decide_eq_true (List.all_eq_true.1 h r hr)

/-- D = w1, A = w4, B = w5, of type s64; and the same with a0, a1, a2 or a3 as A. -/
def x0 : Args := { plain with d := 1, a := 4, b := 5 }
def xa (i : Nat) : Args := { plain with d := 1, a := BitVec.ofNat 6 (40 + i), b := 5 }
abbrev M : State := machine proc0

theorem witness_IntegerArithmetic : (∀ r ∈ Spec.satRows, Ready r.2.1 x0 M proc0) ∧ (∀ r ∈ Spec.bitRows, Ready r.2.1 x0 M proc0) ∧
    tyN x0 < 8 ∧ (modOf .modw x0).getLsbD 0 = false :=
  ⟨ready_all (by decide +kernel), ready_all (by decide +kernel), by decide⟩

-- a divisor that is not zero, and the immediate zero
theorem witness_IntegerDivides : (∀ e ∈ [eDiv, eRem], Ready e x0 M proc0 ∧ Spec.argB e x0 M proc0 ≠ 0) ∧
    (∀ e ∈ [eDiv, eRem], Ready e { x0 with i := true, b := 0 } M proc0 ∧ Spec.argB e { x0 with i := true, b := 0 } M proc0 = 0) := by
  refine ⟨fun e he => ⟨ready_all (f := id) (by decide +kernel) e he, ?_⟩, fun e he => ⟨ready_all (f := id) (by decide +kernel) e he, ?_⟩⟩ <;>
    fin_cases he <;> decide +kernel

theorem witness_IntegerMoves : (∀ r ∈ Spec.moveRows, Ready r.2.1 x0 M proc0) ∧ (∀ e ∈ [eCmp, ePset], Ready e x0 M proc0) ∧
    tyN x0 < 8 := ⟨ready_all (by decide +kernel), ready_all (f := id) (by decide +kernel), by decide⟩

/-- f64 operands: w8 = 1.0; and a process whose invalid trap is enabled, with w8 a signalling NaN. -/
def xf : Args := { plain with d := 1, a := 8, b := 8, ty := 8, im21 := 8 }
def pf : Proc := w8 proc0 0x3FF0000000000000
def pt : Proc := { w8 proc0 0x7FF0000000000001 with fpc := 0x100 }

theorem witness_FloatingInstructions :
    (∀ r ∈ Spec.floatRows, Ready r.2.1 xf (machine pf) pf) ∧
    (∀ r ∈ Spec.floatRows, Spec.NoTrap pf (r.2.2 (envOf r.2.1 xf (machine pf) 1 pf)).1) ∧
    (∀ r ∈ Spec.floatRows.take 6, Ready r.2.1 xf (machine pt) pt) ∧
    (∀ r ∈ Spec.floatRows.take 6, ((r.2.2 (envOf r.2.1 xf (machine pt) 1 pt)).1.nv && pt.fpc.getLsbD 8) = true) ∧
    (∀ e ∈ [eFabs, eFneg, eFcls], Ready e xf (machine pf) pf) :=
  ⟨ready_all (by decide +kernel), fun _ _ => .inl (by decide +kernel), ready_all (by decide +kernel), all_dec (by decide +kernel),
    ready_all (f := id) (by decide +kernel)⟩

-- the largest finite f16, and a subnormal of e4m3
theorem witness_RoundingKeepsRepresentable : (0x7BFF : Nat) < 2 ^ (fmtOf 3).width ∧
    (fmtOf 3).decode 0x7BFF = .fin false 2047 5 ∧ 1 < 2 ^ (fmtOf 4).width ∧ (fmtOf 4).decode 1 = .fin false 1 (-9) := by decide +kernel

/-- w8 = 100, which lies in a0's range. -/
def pa : Proc := w8 proc0 100
/-- AMK a5, a0, w8, w4: the bytes [100, 104), RD and WR with V; with w7 for w4 in C, 64 bytes; from zero. -/
def xm : Args := { plain with d := 45, a := 40, b := 8, im21 := 0x20 * 1024 + 4 }

theorem witness_AddressRegisterResults : (∀ e ∈ [eAget, eAnar, eAsetp, eAadv, eAmk], Ready e { xm with i := false } (machine pa) pa) ∧
    -- AADV within the range, and beyond it
    (((Spec.srcA xm pa).ptr.toNat : Int) + (pa.scalar 8).toInt ≤ 4096 ∧
      4096 < ((Spec.srcA xm (w8 proc0 5000)).ptr.toNat : Int) + ((w8 proc0 5000).scalar 8).toInt) ∧
    -- AMK: a range inside, a range outside, a permission that a0 lacks, and from zero
    Spec.inRange (Spec.srcA xm pa) 100 4 ∧ ¬ Spec.inRange (Spec.srcA xm pa) 5000 4 ∧
    Ready eAmk { xm with a := 56 } (machine pa) pa ∧ Ready eAadv xm (machine (w8 proc0 5000)) (w8 proc0 5000) :=
  ⟨ready_all (f := id) (by decide +kernel), by decide +kernel, by unfold Spec.inRange; decide +kernel,
    by unfold Spec.inRange; decide +kernel, ready_of (by decide +kernel), ready_of (by decide +kernel)⟩

theorem witness_AuthorityNeverWidens : (∀ r ∈ [(Instr.amk, eAmk), (.anar, eAnar), (.aadv, eAadv)], Ready r.2 xm (machine pa) pa) ∧
    xm.a ≠ 56 := ⟨ready_all (by decide +kernel), by decide⟩

-- a size within the range and one beyond it
theorem witness_AccessCheck : Ready eAchk { xm with d := 1, b := 4 } M proc0 ∧ Ready eAchk { xm with d := 1 } (machine (w8 proc0 5000))
    (w8 proc0 5000) := ⟨ready_of (by decide +kernel), ready_of (by decide +kernel)⟩

/-- A process whose window is full: its depth equals the frames resident, and its spill area ends below the next slot. -/
def pfull : Proc := { proc0 with depth := 2, spill := 0 }

theorem witness_ControlTransfers : (∀ e ∈ [eBra, eJmp, eCall, eCallr, eRet], Ready e plain M proc0) ∧ Spec.RoomAbove M proc0 ∧
    Spec.RoomBelow proc0 ∧ proc0.pending.contains (.w 31) = false ∧ Ready eCall plain (machine pfull) pfull ∧
    pfull.res = pfull.depth ∧ pfull.spillLimit < pfull.spillBase + 192 * (pfull.level + 1 - pfull.depth + 1) :=
  ⟨ready_all (f := id) (by decide +kernel), by unfold Spec.RoomAbove; decide +kernel, by unfold Spec.RoomBelow; decide +kernel,
    by decide, ready_of (by decide +kernel), by decide +kernel⟩

/-- A process with a handler at 0x2000, and the same in its handler. -/
def ph : Proc := { proc0 with thdl := 0x2001 }
def pact : Proc := { proc0 with thdl := 0x2003, epc := 65600 }

theorem witness_FaultEntersHandler : (machine ph).proc 1 = some ph ∧ ph.packet = none ∧ ph.thdl.getLsbD 0 = true ∧
    ph.thdl.getLsbD 1 = false ∧ Spec.RoomAbove (machine ph) ph :=
  ⟨by decide +kernel, by decide, by decide, by decide, by unfold Spec.RoomAbove; decide +kernel⟩

theorem witness_FaultWithoutHandler : ((machine proc0).proc 1 = some proc0 ∧ proc0.thdl.getLsbD 0 = false) ∧
    (machine pact).proc 1 = some pact ∧ pact.thdl.getLsbD 1 = true := by decide +kernel

theorem witness_ReturnFromHandler : Ready eEret plain M proc0 ∧ proc0.thdl.getLsbD 1 = false ∧
    Ready eEret plain (machine pact) pact ∧ pact.thdl.getLsbD 1 = true ∧ Spec.RoomBelow pact :=
  ⟨ready_of (by decide +kernel), by decide, ready_of (by decide +kernel), by decide, by unfold Spec.RoomBelow; decide +kernel⟩

/-- CRR w1 and CRW of w4 for a control register. -/
def xcr (n : Nat) : Args := { plain with d := 1, im21 := BitVec.ofNat 21 n }
def xcw (n : Nat) : Args := { plain with a := 4, im21 := BitVec.ofNat 21 n }

-- every register by its number
theorem witness_ControlRegisterReads :
    (∀ n ∈ ((Spec.ownRegs proc0 ++ Spec.sharedRegs M proc0).map (·.1)), Ready eCrr (xcr n) M proc0) ∧
    (∀ n ∈ ((Spec.ownRegs proc0 ++ Spec.sharedRegs M proc0).map (·.1)), crNum (xcr n) = n) ∧ M.tmmaBusy 1 0 = false ∧
    (∀ e ∈ [eTick, eSelf], Ready e { plain with d := 1 } M proc0) :=
  ⟨ready_each (by decide +kernel), all_dec (by decide +kernel), by decide +kernel, ready_all (f := id) (by decide +kernel)⟩

theorem witness_ControlRegisterWrites :
    (∀ n ∈ ((Spec.ownWrite proc0 1).map (·.1)) ++ [0x006, 0x020, 0x030, 0x031], Ready eCrw (xcw n) M proc0) ∧
    (∀ n ∈ ((Spec.ownWrite proc0 1).map (·.1)) ++ [0x006, 0x020, 0x030, 0x031], crNum (xcw n) = n) ∧ M.tmmaBusy 1 0 = false :=
  ⟨ready_each (by decide +kernel), all_dec (by decide +kernel), by decide +kernel⟩

/-- Loads, stores and atomics through a0 to a3, of s64 at the pointer, with w5 as the value stored and w6 in C. -/
def xl (i : Nat) : Args := { plain with d := 1, a := BitVec.ofNat 6 (40 + i), b := 5 }
/-- The same, misaligned by one byte, and beyond the register's range. -/
def xodd (i : Nat) : Args := { xl i with im21 := 1 }
def xfar (i : Nat) : Args := { xl i with im21 := 4096 }
/-- The machine with an uncorrectable word where a0 or a1 points; with an empty word there. -/
def Mecc (i : Nat) : State := { M with ecc := [(Spec.windowPA M proc0 i 64 / 8, ())] }
def Mempty (i : Nat) : State := { M with empty := [(Spec.windowPA M proc0 i 64 / 8, ())] }

/-- What the first failing check of an access through a0 or a1 comes to. -/
abbrev fault1 (x : Args) (i n : Nat) (perms : BitVec 8) : Option Nat :=
  Spec.firstFault M proc0 (Spec.srcA x proc0) i (Spec.ea x proc0).toNat n 8 perms

theorem witness_LocalAccesses :
    (∀ r ∈ Spec.loadRows, Ready r.2.1 (xl r.2.2) M proc0) ∧
    (∀ r ∈ Spec.loadRows, fault1 (xl r.2.2) r.2.2 8 0x10 = none ∧ fault1 (xodd r.2.2) r.2.2 8 0x10 = some 16 ∧
      fault1 (xfar r.2.2) r.2.2 8 0x10 = some 14 ∧ Spec.size (xl r.2.2) = 8 ∧
      M.badWord (Spec.windowPA M proc0 r.2.2 (Spec.ea (xl r.2.2) proc0).toNat) 8 = none ∧
      ((Mecc r.2.2).badWord (Spec.windowPA M proc0 r.2.2 (Spec.ea (xl r.2.2) proc0).toNat) 8).isSome = true) ∧
    (∀ r ∈ Spec.storeRows, Ready r.2.1 (xl r.2.2) M proc0) ∧
    (∀ r ∈ Spec.storeRows, fault1 (xl r.2.2) r.2.2 8 0x08 = none ∧ fault1 (xodd r.2.2) r.2.2 8 0x08 = some 16) ∧ M.wf = true :=
  ⟨ready_each (by decide +kernel), all_dec (by decide +kernel), ready_each (by decide +kernel), all_dec (by decide +kernel),
    by decide +kernel⟩

/-- The piece that the page gives for a2's pointer. -/
def piece0 (need : Bool) : Piece := { va := 65536, pa := hbmPA 0 65536, len := 8, cached := need, leaf := some fetchPage.leaf }
/-- The machine whose store buffer holds one store at a2's pointer; one that overlaps it; sixteen entries; and with the
line in L1. -/
def sbOf (n va len : Nat) : List SbEntry := (List.range n).map fun i => ⟨i, 1, 0, .store va (hbmPA 0 va) (natBytes len 7)⟩
def Msb (n va len : Nat) : State := M.modCore 0 fun c => { c with sb := sbOf n va len, sbSeq := n }
def Ml1 : State := M.modCore 0 fun c => { c with l1 := [(hbmPA 0 65536 / 64, ())] }

theorem witness_GlobalAccesses : (∀ s ∈ [M, Msb 1 65536 8, Msb 1 65540 8, Ml1, Msb 16 65536 8], Ready eLdg (xl 2) s proc0) ∧
    (∀ s ∈ [M, Msb 16 65536 8], Ready eStg (xl 2) s proc0) ∧ (Spec.srcA (xl 2) proc0).ptr = 65536 ∧
    M.check 0 0 true (Spec.srcA (xl 2) proc0) 65536 8 2 0x10 8 { rd := true } = .ok [piece0 false] ∧
    M.check 0 0 true (Spec.srcA (xl 2) proc0) 65536 8 2 0x08 8 { wr := true } = .ok [piece0 false] ∧
    M.forward 0 0 65536 8 = .none_ ∧ (Msb 1 65536 8).forward 0 0 65536 8 = .data (natBytes 8 7) ∧
    (Msb 1 65540 8).forward 0 0 65536 8 = .wait ∧
    (∀ l ∈ unitsOf 64 (hbmPA 0 65536) 8, (piece0 false).l1 = true ∧ nsHas (Ml1.core 0).l1 l = true) ∧
    unitsOf 64 (hbmPA 0 65536) 8 = [hbmPA 0 65536 / 64] ∧ nsHas (M.core 0).l1 (hbmPA 0 65536 / 64) = false ∧
    (M.core 0).sb.length < 16 ∧ proc0.cStore < 65535 ∧ ((Msb 16 65536 8).core 0).sb.length = 16 ∧
    M.badPiece [piece0 false] = none ∧ proc0.packet = none ∧ proc0.granted = [] :=
  ⟨fun s hs => ready_of (all_true _ (fun s => readyB eLdg (xl 2) s proc0) (by decide +kernel) s hs),
    fun s hs => ready_of (all_true _ (fun s => readyB eStg (xl 2) s proc0) (by decide +kernel) s hs), by decide +kernel⟩

/-- Process 1 parked, with its place taken back. -/
def parked (r : Reason) (w : Wait) : Proc := { proc0 with st := .parked r w 0 }

theorem witness_StoreBufferAndMisses : ((Msb 1 65536 8).core 0).sb = ⟨0, 1, 0, .store 65536 (hbmPA 0 65536) (natBytes 8 7)⟩ :: [] ∧
    (Msb 1 65536 8).proc 1 = some proc0 ∧ (Msb 1 65536 8).wf = true ∧
    (machine (parked .memoryServer (.line 5))).proc 1 = some (parked .memoryServer (.line 5)) ∧
    (parked .memoryServer (.line 5)).st = .parked .memoryServer (.line 5) 0 := by decide +kernel

/-- LDS.c and STF.e: the same with the modifier of the 96-bit form. -/
def xc (i : Nat) : Args := { xl i with len := .l96, im21 := 0x400 }
/-- The machine in which process 1 waits for the word `w` with LDS, and the waiter that stands there. -/
def waiter0 : Waiter := { pid := 1, op := .lds false, dest := some (.w 25), next := 65544, ea := 64 }
def Mwait : State := { machine (parked .fullBit (.word 8)) with empty := [(8, ())], waiters := [(8, [waiter0])] }

/-- An aligned access through a0 or a1 that passes every check: the address, space and words of the statements. -/
theorem witness_SynchronisingWords : (∀ i ∈ [0, 1], Ready eLds (xl i) M proc0) ∧ (∀ i ∈ [0, 1], Ready eStf (xl i) M proc0) ∧
    (∀ i ∈ [0, 1], Ready eLds (xc i) (Mempty i) proc0) ∧ (∀ i ∈ [0, 1], Ready eStf (xc i) (Mempty i) proc0) ∧
    (∀ i ∈ [0, 1], ((Spec.srcA (xl i) proc0).ps.extractLsb' 6 2).toNat = i ∧ fault1 (xl i) i 8 0x10 = none ∧
      fault1 (xc i) i 8 0x18 = none ∧ fault1 (xl i) i 8 0x08 = none ∧ (modOf .offset (xl i)).getLsbD 0 = false ∧
      (modOf .offset (xc i)).getLsbD 0 = true ∧ M.wordFull (Spec.windowPA M proc0 i 64 / 8) = true ∧
      M.badWord (Spec.windowPA M proc0 i 64) 8 = none ∧ (Mempty i).wordFull (Spec.windowPA M proc0 i 64 / 8) = false) ∧
    M.waiters = [] ∧ proc0.packet = none ∧
    tblGetD Mwait.waiters 8 [] = [waiter0] ∧ tblSorted Mwait.waiters = true ∧ Mwait.wordFull 8 = false ∧ nsHas Mwait.ecc 8 = false ∧
    Mwait.wf = true ∧ waiter0.dest = some (.w 25) ∧ Mwait.proc 1 = some (parked .fullBit (.word 8)) :=
  ⟨ready_each (f := fun _ => eLds) (by decide +kernel), ready_each (f := fun _ => eStf) (by decide +kernel), fun i hi => ready_of (by fin_cases hi <;> decide +kernel),
    fun i hi => ready_of (by fin_cases hi <;> decide +kernel), all_dec (by decide +kernel), by decide +kernel⟩

-- a range of five words, and of none
theorem witness_FullEmptyRanges : (∀ i ∈ [0, 1], Ready eFeb (xl i) M proc0) ∧
    (∀ i ∈ [0, 1], ((Spec.srcA (xl i) proc0).ps.extractLsb' 6 2).toNat = i ∧ Spec.windowPA M proc0 i 64 % 8 = 0 ∧
      (proc0.scalar 5).toNat = 5 ∧ fault1 (xl i) i 40 0x08 = none ∧ fault1 (xl i) i 40 0x10 = none) ∧
    (proc0.scalar 56).toNat = 0 ∧ M.waiters = [] :=
  ⟨ready_each (f := fun _ => eFeb) (by decide +kernel), all_dec (by decide +kernel), by decide +kernel⟩

/-- AMO.op.z64 w1, [a0], w5, w6; .cas is operation 7. -/
def xam (i op : Nat) : Args := { xl i with len := .l96, ty := 4, im21 := BitVec.ofNat 21 (1024 * op + 6) }

theorem witness_Atomics : (∀ i ∈ [0, 1], Ready eAmo (xam i 7) M proc0) ∧
    (∀ i ∈ [0, 1], ((Spec.srcA (xam i 7) proc0).ps.extractLsb' 6 2).toNat = i ∧ fault1 (xam i 7) i 8 0x1C = none ∧
      Spec.size (xam i 7) = 8 ∧ (∀ op < 8, mN (xam i op) % 16 = op) ∧ tyN (xam i 7) ∈ [0, 1, 4, 5] ∧
      M.badWord (Spec.windowPA M proc0 i 64) 8 = none ∧ fault1 { xam i 0 with ext := 1 } i 8 0x1C = some 16) ∧ M.wf = true :=
  ⟨ready_each (f := fun _ => eAmo) (by decide +kernel), all_dec (by decide +kernel), by decide +kernel⟩

/-- CLN and INV of the 64 bytes at a2 (w7 = 64), and of none. -/
def xcl : Args := { plain with a := 42, b := 7 }

-- an operand that no check refuses, a count of zero, and one that starts in the register's last line and leaves its range
theorem witness_CacheHints : Ready ePrf { plain with a := 42 } M proc0 ∧ (∀ e ∈ [eCln, eInv], Ready e xcl M proc0) ∧
    (∀ e ∈ [eCln, eInv], Ready e { xcl with b := 8 } (machine (w8 proc0 131072)) (w8 proc0 131072)) ∧
    (∀ r ∈ [((0x10 : BitVec 8), 0), (0x08, 64)],
      Spec.firstFault M proc0 (Spec.srcA xcl proc0) 2 65536 64 r.2 r.1 = none ∧
      Spec.firstFault (machine (w8 proc0 131072)) (w8 proc0 131072) (Spec.srcA xcl proc0) 2 65536 131072 r.2 r.1 = some 14) ∧
    (proc0.scalar 7).toNat = 64 ∧ (Spec.srcA xcl proc0).ptr.toNat = 65536 ∧
    (∀ w : Bool, joinAcc ((splitUnits 65536 64).map fun u =>
      M.rangePart 0 0 true (if w then { wr := true } else { rd := true }) u.1 u.2) = .ok [{ piece0 false with len := 64 }]) ∧
    (M.core 0).sb.length < 16 ∧ proc0.cStore < 65535 ∧ (proc0.scalar 56).toNat = 0 :=
  ⟨ready_of (by decide +kernel), ready_all (f := id) (by decide +kernel), ready_all (f := id) (by decide +kernel), by decide +kernel⟩

/-- An engine instruction from a1 to a0 with the index in a0, of `w4` bytes or blocks: CPY d, [a0], [a1], w4, status w1. -/
def xe : Args := { plain with d := 1, a := 40, b := 41, ext := 4, im21 := 4 }
/-- The same with zero counts, and with the counts of CPYS, ZENC and ZDEC in w8 and of CPYG in F. -/
def xe0 : Args := { xe with im21 := 56, ext := 56 }
def pe : Proc := w8 proc0 0x0000000100000008
def xe1 : Args := { xe with im21 := 8, ext := 8 }
def xeg : Args := { xe with im21 := 40, ext := 4 }

/-- The operands of each engine instruction for its counts. -/
def xen (r : Spec.EngineRow) : Args := if r.entry.op = eCpyg.op then xeg else if r.entry.op = eCpy.op then xe else xe1

/-- `Spec.engineOk` as a computation. -/
def engineOkB (s : State) (p : Proc) (o : AReg × Nat × Option Nat × BitVec 8) : Bool :=
  decide (Spec.spaceOf o.1 ≠ 3) && match o.2.2.1 with
    | some n => decide (Spec.firstFault s p o.1 (Spec.spaceOf o.1) o.2.1 n 0 o.2.2.2 = none)
    | none => o.1.ps.getLsbD 5 && decide (o.2.2.2 &&& o.1.ps = o.2.2.2)

theorem engineOk_of {s : State} {p : Proc} {o : AReg × Nat × Option Nat × BitVec 8} (h : engineOkB s p o = true) :
    Spec.engineOk s p o := by
  obtain ⟨a, va, n, pm⟩ := o
  cases n <;> simpa [engineOkB, Spec.engineOk] using h

theorem witness_EngineIssue : (∀ r ∈ Spec.engineRows, Ready (Spec.EngineRow.entry r) xe0 M proc0) ∧
    (∀ r ∈ Spec.engineRows, Spec.EngineRow.empty r (envOf r.entry xe0 M 1 proc0) = true) ∧
    (∀ r ∈ Spec.engineRows, Ready (Spec.EngineRow.entry r) (xen r) (machine pe) pe) ∧
    (∀ r ∈ Spec.engineRows, Spec.EngineRow.empty r (envOf r.entry (xen r) (machine pe) 1 pe) = false) ∧
    (∀ r ∈ Spec.engineRows, ∀ o ∈ Spec.EngineRow.operands r (envOf r.entry (xen r) (machine pe) 1 pe),
      Spec.engineOk (machine pe) pe o) ∧ (modOf .modw xe1).getLsbD 7 = false ∧
    ((machine pe).cluster 0).engine.length < 64 ∧ pe.cCopy < 65535 :=
  ⟨ready_each (f := Spec.EngineRow.entry) (g := fun _ => xe0) (by decide +kernel), all_dec (by decide +kernel),
    ready_each (by decide +kernel), all_dec (by decide +kernel),
    fun r hr o ho => engineOk_of (all_true _ (engineOkB (machine pe) pe) (all_true Spec.engineRows (fun r =>
      (Spec.EngineRow.operands r (envOf r.entry (xen r) (machine pe) 1 pe)).all (engineOkB (machine pe) pe))
      (by decide +kernel) r hr) o ho), by decide +kernel⟩

/-- A copy of 300 bytes from a1 to a0 at the head of cluster 0's engine: not begun, and finished. -/
def en0 : EngEntry := { pid := 1, core := 0, ctx := 0, dest := some (.w 25), bar := none, what := .cpy (proc0.addr 0) (proc0.addr 1) 300, sb := 0 }
def Meng (e : EngEntry) : State := M.modCluster 0 fun _ => { engine := [e] }

theorem witness_EngineEvents : ((Meng en0).cluster 0).engine = [en0] ∧ (Meng en0).proc 1 = some proc0 ∧ (Meng en0).sbDone 0 0 = true ∧
    proc0.opsDone [] = true ∧ Spec.spaceOf (proc0.addr 0) = 0 ∧ Spec.spaceOf (proc0.addr 1) = 1 ∧ (Meng en0).waiters = [] ∧
    (Meng en0).tileStoresBefore 1 0 0 = false ∧ en0.buf = none ∧ en0.early = [] ∧ en0.stalled = false ∧
    (Meng en0).wf = true ∧ (Meng en0).badWord (Spec.windowAt (Meng en0) 0 0 1 64) 256 = none ∧
    ((Meng { en0 with finished := true }).cluster 0).engine = [{ en0 with finished := true }] := by decide +kernel

/-- w8 is a handle of channel 4, a memory-server channel of die 0. -/
def pms : Proc := w8 proc0 (handle 0 false 4)
def xms : Args := { plain with d := 1, a := 8, b := 40 }
/-- A request that waits at server 0 of die 0; taken with a cause. -/
def req0 : MsReq := { pid := 1, ctx := 0, core := 0, rank := 0, dest := some (.w 25), words := [0, 0, 0, 0] }
def Mms (r : MsReq) : State := M.modDie 0 fun d => { d with servers := [(0, [r])] }
/-- A read of `n` bytes at GLOBAL 65536 into LOCAL memory, taken. -/
def reqr (n : Nat) : MsReq := { req0 with words := [BitVec.ofNat 64 n, 65536, 0, 0], taken := true }

/-- The same where channel 4 names a server of die 1. -/
def Mfar : State := { machine pms with ctxs := [(0, { ctx0 with chans := tblSet ctx0.chans 4 { assigned := true, kind := 3, type := 0, target := 256 } })] }

theorem witness_MemoryServerRequests : (Ready eMsrq xms (machine pms) pms ∧ Ready eMsrq xms Mfar pms) ∧
    ((machine pms).isFar 0 4 0 = false ∧ Mfar.isFar 0 4 0 = true ∧ 32 ≤ Mfar.unitSize 0 Mfar.devId ∧
      Mfar.hcheck 0 0 (pms.scalar 8) false [0] [3] = none ∧ (Mfar.chan 0 4).closed = false ∧ pms.packet = none ∧
      pms.st = .running ∧ pms.cCopy < 65535) ∧
    (machine pms).hcheck 0 0 (pms.scalar 8) false [0] [3] = none ∧
    Spec.firstFault (machine pms) pms (pms.addr 0) 0 (pms.addr 0).ptr.toNat 32 8 0x10 = none ∧
    (machine pms).badWord (Spec.windowPA (machine pms) pms 0 64) 32 = none ∧ ((machine pms).ctx 0).msHard = false ∧
    tblGetD ((machine pms).die 0).servers 0 [] = [] ∧
    tblGetD ((Mms req0).die 0).servers 0 [] = [req0] ∧ (Mms req0).serverReady req0 = true ∧
    (((Mms req0).ctx 0).msHard || !(Mms req0).msOut 0 0) = true ∧
    tblGetD ((Mms { req0 with taken := true, cause := 28 }).die 0).servers 0 [] = [{ req0 with taken := true, cause := 28 }] ∧
    (req0.word 3 = 0 ∧ (Mms req0).proc 1 = some proc0) ∧ (machine pms).chanEnd 0 4 = {} ∧ Mfar.chanEnd 0 4 = {} ∧
    (Mms req0).ctxs.all (fun c => c.2.ends.all fun e => e.2.sends.isEmpty) = true ∧
    (∀ n ∈ [8, 128], tblGetD ((Mms (reqr n)).die 0).servers 0 [] = [reqr n] ∧ (reqr n).cause = 0 ∧ (reqr n).op = 0 ∧ (reqr n).count = n ∧
      (reqr n).gaddr = 65536 ∧ (reqr n).word 3 = 0 ∧ (Mms (reqr n)).proc 1 = some proc0 ∧ (Mms (reqr n)).wf = true ∧ (Mms (reqr n)).waiters = [] ∧
      (Mms (reqr n)).resolve 0 0 false { rd := true } 65536 (min 64 n) = .ok [{ piece0 false with len := min 64 n }] ∧
      (Mms (reqr n)).badPiece [{ piece0 false with len := min 64 n }] = none) :=
  ⟨⟨ready_of (by decide +kernel), ready_of (by decide +kernel)⟩, by decide +kernel⟩

/-- GET, PUT and RAMO through a3 with no path mask; w8 = 64 gives the block forms their count. -/
def xg : Args := { plain with d := 1, a := 43, b := 5, im21 := 56 }
/-- GET.blk to a0 from a3 and PUT.blk to a3 from a0, of w8 bytes. -/
def xgb (dst src : BitVec 6) : Args := { plain with d := 1, a := dst, b := src, im21 := 0x1008 }
def pg : Proc := w8 proc0 64
/-- A PUT of 8 bytes to a3's pointer, which stands in die 0's outbound buffer. -/
def put0 : OutMsg := { kind := 0, pid := 1, ctx := 0, rank := 0, tok := 9, ddev := 0, ddie := 1, addr := 0x10000010000, opw := 0,
                       payload := natBytes 8 7 }
/-- One of its first four bytes only. -/
def put4 : OutMsg := { put0 with payload := natBytes 4 7 }
def Mput (m : OutMsg) : State := M.modDie 0 fun d => { d with out := [(0, m)] }

-- a GET that is sent, one whose bytes the buffer has, one that waits for it, and one that has waited
theorem witness_RemoteIssue : (∀ e ∈ [eGet, ePut, eRamo], Ready e xg M proc0) ∧
    (Ready eGet (xgb 40 43) M proc0 ∧ Ready ePut (xgb 43 40) M proc0) ∧
    Spec.Reachable M proc0 (Spec.srcA xg proc0).ptr 0 0 1 .device ∧
    (Ready eGet xg (Mput put0) proc0 ∧ Ready eGet xg (Mput put4) proc0 ∧
      Ready eGet xg (machine { proc0 with phase := 1 }) { proc0 with phase := 1 }) ∧ getBlk xg = false ∧
    M.rcheck 0 (Spec.srcA xg proc0) (Spec.srcA xg proc0).ptr.toNat 8 0x10 8 = none ∧
    M.rcheck 0 (Spec.srcA xg proc0) (Spec.srcA xg proc0).ptr.toNat 8 0x08 8 = none ∧
    M.rcheck 0 (Spec.srcA xg proc0) (Spec.srcA xg proc0).ptr.toNat 8 0x1C 8 = none ∧
    (M.die 0).entries < 2048 ∧ proc0.cLoad < 65535 ∧
    proc0.cStore < 65535 ∧ mN xg % 4 ≠ 2 ∧ proc0.putCount = [] ∧ (M.ctx 0).dmode ≠ 2 ∧
    M.buffered 0 0 0x10000010000 8 = .send ∧ (Mput put0).buffered 0 0 0x10000010000 8 = .data (natBytes 8 7) ∧
    (Mput put4).buffered 0 0 0x10000010000 8 = .wait ∧ getBlk (xgb 40 43) = true ∧
    (proc0.scalar (cOf .modw (xgb 40 43)).toNat).extractLsb' 0 32 = 0 :=
  ⟨ready_all (f := id) (by decide +kernel), ⟨ready_of (by decide +kernel), ready_of (by decide +kernel)⟩,
    by unfold Spec.Reachable; decide +kernel,
    ⟨ready_of (by decide +kernel), ready_of (by decide +kernel), ready_of (by decide +kernel)⟩, by decide +kernel⟩

theorem witness_RemoteBlocks : (Ready eGet (xgb 40 43) (machine pg) pg ∧ Ready ePut (xgb 43 40) (machine pg) pg) ∧
    Spec.Reachable (machine pg) pg (pg.addr 3).ptr 0 0 1 .device ∧ (machine pg).tileStoresBefore 1 0 2 = false ∧
    getBlk (xgb 40 43) = true ∧ ((pg.scalar 8).extractLsb' 0 32).toNat = 64 ∧
    (machine pg).rcheck 0 (pg.addr 3) (pg.addr 3).ptr.toNat 64 0x10 8 = none ∧
    (machine pg).rcheck 0 (pg.addr 3) (pg.addr 3).ptr.toNat 64 0x08 8 = none ∧ Spec.spaceOf (pg.addr 0) = 0 ∧
    Spec.firstFault (machine pg) pg (pg.addr 0) 0 64 64 8 0x0A = none ∧ Spec.firstFault (machine pg) pg (pg.addr 0) 0 64 64 8 0x12 = none ∧
    ((machine pg).die 0).out = [] ∧ pg.sbMark = none ∧
    ((machine pg).core 0).sb = [] ∧ (machine pg).badWord (Spec.windowPA (machine pg) pg 0 64) 64 = none ∧
    (unitOffsets 64 ((machine pg).unitSize 0 0)).length ≤ 2048 ∧ 0 < (machine pg).unitSize 0 0 ∧ pg.putCount = [] :=
  ⟨⟨ready_of (by decide +kernel), ready_of (by decide +kernel)⟩, by unfold Spec.Reachable; decide +kernel, by decide +kernel⟩

/-- A PUT and a GET of process 1 to its own die, with their operation. -/
def own (kind : Nat) : OutMsg := { put0 with kind := kind, ddie := 0, addr := 65536, payload := if kind = 2 then [] else natBytes 8 7, count := 8 }
def op0 (kind : OpKind) : Op := { kind := kind, owner := .die, left := 1, dest := if kind = .put then none else some (.w 25) }
def pop (kind : OpKind) : Proc := { proc0 with ops := [(9, op0 kind)], cLoad := 1, cStore := 1 }
def Mown (kind : OpKind) (m : OutMsg) : State := (machine (pop kind)).modDie 0 fun d => { d with out := [(0, m)] }

theorem witness_OwnerPerforms : (∀ k ∈ [(OpKind.put, 0), (.get, 2), (.ramo, 4)], tblGet ((Mown k.1 (own k.2)).die 0).out 0 = some (own k.2) ∧
      tblSorted ((Mown k.1 (own k.2)).die 0).out = true ∧ (Mown k.1 (own k.2)).sameAddrHeld 0 0 (own k.2) = false ∧
      (Mown k.1 (own k.2)).proc 1 = some (pop k.1) ∧ (own k.2).got = none ∧ tblGet (pop k.1).ops 9 = some (op0 k.1)) ∧
    (Mown .put (own 0)).resolve 0 0 false { wr := true } 65536 8 = .ok [piece0 false] ∧
    (Mown .get (own 2)).resolve 0 0 false { rd := true } 65536 8 = .ok [piece0 false] ∧
    (Mown .get (own 2)).badPiece [piece0 false] = none ∧ (Mown .put (own 0)).wf = true ∧
    (Mown .ramo (own 4)).resolve 0 0 false { rd := true, wr := true, at_ := true } 65536 8 = .ok [piece0 false] ∧
    (Mown .ramo (own 4)).badPiece [piece0 false] = none ∧ logged [piece0 false] = false ∧ tyBytes ((own 4).opw % 16) = 8 :=
  ⟨all_dec (by decide +kernel), by decide +kernel⟩

/-- A process with one remote load outstanding. -/
def pout : Proc := { proc0 with ops := [(9, { op0 .get with owner := .device })], cLoad := 1 }
/-- FENCE of the system scope; WAITC for all counters to be zero. -/
def xfe : Args := { plain with im21 := 0x4000 }

/-- Two entries in the store buffer. -/
def Mfence : State := M.modCore 0 fun c => { c with sb := sbOf 2 65536 8, sbSeq := 2 }

theorem witness_fenceFull : Ready eFence xfe Mfence proc0 ∧ (∃ e ∈ (Mfence.core 0).sb, e.seq < (Mfence.core 0).sbSeq) ∧ proc0.packet = none :=
  ⟨ready_of (by decide +kernel), by decide +kernel, rfl⟩

theorem witness_FencesAndWaits : (∀ p ∈ [proc0, pout], Ready eFence xfe (machine p) p) ∧ (proc0.acqToks (mN xfe / 4 % 8) = [] ∧
    pout.acqToks (mN xfe / 4 % 8) ≠ [] ∧ proc0.relToks (mN xfe / 4 % 8) = [] ∧ pout.relToks (mN xfe / 4 % 8) ≠ [] ∧
    (M.core 0).sb = []) ∧ Ready eSbd plain M proc0 ∧ (∀ p ∈ [proc0, pout], Ready eWaitc plain (machine p) p) ∧
    (∃ l st c t4, waitLimits plain = [l, st, c, t4] ∧
      (atMost proc0.cLoad l && atMost proc0.cStore st && atMost proc0.cCopy c && atMost proc0.cTile t4) = true ∧
      (atMost pout.cLoad l && atMost pout.cStore st && atMost pout.cCopy c && atMost pout.cTile t4) = false) :=
  ⟨fun p hp => ready_of (by fin_cases hp <;> decide +kernel), by decide +kernel, ready_of (by decide +kernel), fun p hp => ready_of (by fin_cases hp <;> decide +kernel),
    ⟨some 0, some 0, some 0, some 0, by decide +kernel⟩⟩

end Sys2Proof.Tests
end

