-- ==== Sys2Proof/Tests/Witness2.lean ====
section
/-! SUPPORT. Witnesses, continued: page service, placement, contexts, processes, scheduling and channels. -/

namespace Sys2Proof.Tests

open Sys2Proof Sys2Proof.Machine

-- One kernel evaluation at a time: each would otherwise hold a thread of its own.
set_option Elab.async false

/-- The process with several registers of its window set. -/
def rs (p : Proc) (vs : List (Nat × Word)) : Proc := { p with win := vs.foldl (fun t v => tblSet t (24 + v.1) v.2) p.win }

/-- D = w1, A = w8, B = w9. -/
def xr : Args := { plain with d := 1, a := 8, b := 9 }
/-- The process with w8 and w9. -/
def p2 (a b : Word) : Proc := rs proc0 [(8, a), (9, b)]

/-! ### Pages -/

/-- A miss-table entry of a2's page. -/
def miss0 (st : MissState) : Miss :=
  { ticket := 1, ctx := 0, base := 65536, bits := 16, st := st, va := 65536, write := false, fetch := false, reqs := [.proc 1] }
/-- Die 0 changed. -/
def onDie (s : State) (f : Die → Die) : State := s.modDie 0 f

/-- The process with w8 and w9, once its unit has answered. -/
def pph (a b : Word) : Proc := { p2 a b with phase := 1 }

theorem witness_PageService :
    (proc0.packet = none ∧ (p2 0 0).sbMark = none ∧ (p2 0 0).relToks 3 = [] ∧ (M.core 0).sb = [] ∧ xr.i = false) ∧
    -- an address on die 0, outside the windows; die 0 itself
    (Ready eTlbi xr (machine (p2 65536 0)) (p2 65536 0) ∧ Ready ePhot xr (machine (p2 65536 0)) (p2 65536 0) ∧
      (p2 65536 0).scalar 8 = 65536 ∧ M.devId = 0 ∧ (M.ctx 0).mapDie 0 = 0 ∧ M.dieLive 0 = true ∧ 65536 < windowOff ∧
      (onDie M fun d => { d with tlb := [] }).tlbFind 0 0 65536 = none ∧ (M.tlbFind 0 0 65536).isSome = true) ∧
    (∀ e ∈ [eTlbi, eFbrd, eRply], Ready e xr (machine (p2 0 0)) (p2 0 0)) ∧
    -- an answer that has come: PHOT, RPLY, and FBRD of the status word and of slot 7; a window address
    Ready ePhot xr (machine (pph 65536 0)) (pph 65536 0) ∧ Ready eRply xr (machine (pph 0 7)) (pph 0 7) ∧
    (∀ b ∈ [(8 : Word), 7], Ready eFbrd xr (machine (pph 0 b)) (pph 0 b) ∧ ((pph 0 b).scalar 9).toNat = b.toNat) ∧ mN xr % 4 = 0 ∧
    Ready eTlbi xr (machine (p2 0xFFFFFFFFF8 0)) (p2 0xFFFFFFFFF8 0) ∧ windowOff ≤ 0xFFFFFFFFF8 :=
  ⟨by decide +kernel, ⟨ready_of (by decide +kernel), ready_of (by decide +kernel), by decide +kernel⟩,
    ready_all (f := id) (by decide +kernel), ready_of (by decide +kernel), ready_of (by decide +kernel),
    fun b hb => ⟨ready_of (by fin_cases hb <;> decide +kernel), by fin_cases hb <;> decide +kernel⟩, by decide +kernel,
    ready_of (by decide +kernel), by decide +kernel⟩

/-- Page tables of die 0 that map the page of a2 by the leaf of frame 1; the context owns frames 1 and 3. -/
def Mpt : State :=
  { onDie M fun d => { d with tlb := [], frames := [(1, 1), (3, 1)] } with
    mem := [(0x20000, 2 ^ 63 + 4096), (0x21000, 2 ^ 63 + 8192), (0x22008, fetchPage.leaf.toNat)].foldl
      (fun m r => memWrite m (hbmPA 0 r.1) (natBytes 8 r.2)) [] }
/-- A migration of that page to frame 3. -/
def migr0 : Migr := { pid := 1, ctx := 0, base := 65536, bits := 16, leafAt := 0x2008, leaf := fetchPage.leaf,
                      newLeaf := (fetchPage.leaf &&& ~~~0x0001E01FFFFF0000) ||| 0x30000, ticket := 1 }
def Mmig : State := { onDie Mpt fun d => { d with migrs := [migr0], misses := [miss0 .migrating] } with
  procs := [(1, parked .memoryServer (.answer 1))] }

theorem witness_WalksAndMigrations :
    (((onDie Mpt fun d => { d with misses := [miss0 .walking] }).die 0).misses = [miss0 .walking] ∧
      Mpt.migrating 0 0 65536 = false ∧
      Mpt.walk 0 0 65536 = .leaf 16 0x2008 fetchPage.leaf ∧ Mpt.tlbFind 0 0 65536 = none) ∧
    (M.walk 0 0 65536 = .stop 30 false ∧ (M.die 0).freeFbuf = some 0) ∧
    (((onDie M fun d => { d with invals := [⟨1, 0, true, 0⟩] }).die 0).invals = ⟨1, 0, true, 0⟩ :: [] ∧
      (∀ c ∈ M.cores, c.2.sb = []) ∧ M.waiters = [] ∧ (∀ c ∈ M.clusters, ∀ e ∈ c.2.engine, e.early = []) ∧ (M.die 0).migrs = []) ∧
    ((Mmig.die 0).migrs = [migr0] ∧ Mmig.wf = true ∧ (∀ k ∈ Mmig.cores, k.2.sb = []) ∧
      (∀ k ∈ Mmig.clusters, ∀ e ∈ k.2.engine, e.early = []) ∧
      ((Mmig.ctx 0).msHard || !Mmig.msOut 0 0) = true ∧ Mmig.proc 1 = some (parked .memoryServer (.answer 1)) ∧
      (hbmPA 0 0x22008 + 8 ≤ hbmPA 0 (leafFrame migr0.newLeaf * 2 ^ 16) ∧ tblGetD (Mmig.ctx 0).tables 0 0 + 0x2008 = 0x22008)) := by
  decide +kernel

/-! ### Placement and contexts -/

/-- Die 0 with version 1 of the map installed, which die 1 has not acknowledged. -/
def Mver : State := onDie M fun d => { d with map := [(0, 1)] }
def Mrec : State := M.modCtx 0 fun c => { c with dmode := 1, logCap := 4 }
def xlim : Args := { xr with len := .l96, im21 := 0x400 }
def pwake : Proc := { p2 65536 0x30000 with wakeVal := some 1 }
/-- A log in replay, whose next entry of rank 0 is OMARK's value 7. -/
def Mrep : State := M.modCtx 0 fun c => { c with dmode := 2, log := [⟨0, 0, 3, 0, 7, 0⟩] }

theorem witness_PlacementInstructions : xr.i = false ∧
    -- PMIG of the page to frame 3: asking, not present, present, and waking
    (Ready ePmig xr (machine (p2 65536 0x30000)) (p2 65536 0x30000) ∧ (p2 65536 0x30000).wakeVal = none ∧
      ((0x30000 : Word) &&& ~~~0x0001E01FFFFF0000) = 0 ∧ Spec.Quiet M (p2 65536 0x30000) 3 ∧ (M.die 0).misses = [] ∧
      M.walk 0 0 65536 = .stop 30 false ∧ Ready ePmig xr (machine (pph 65536 0x30000)) (pph 65536 0x30000) ∧
      Ready ePmig xr { Mpt with procs := [(1, pph 65536 0x30000)] } (pph 65536 0x30000) ∧
      Mpt.walk 0 0 65536 = .leaf 16 0x2008 fetchPage.leaf ∧ leafFrame 0x30000 % 2 ^ (16 - 16) = 0 ∧
      framesOverlap (leafFrame 0x30000) (leafFrame fetchPage.leaf) 16 = false ∧ Mpt.ownsFrames 0 0 (leafFrame 0x30000) 16 = true ∧
      Ready ePmig xr (machine pwake) pwake ∧ pwake.wakeVal = some 1) ∧
    -- RMV, RMACK of version 0, and of version 1 acknowledged by no die
    (∀ e ∈ [eRmv, eRmack, eOmark, eWdog], Ready e xr (machine (p2 0 0)) (p2 0 0)) ∧ ((p2 0 0).scalar 8).toNat < 512 ∧
    M.curVersion 0 = 0 ∧ M.acked 0 0 = true ∧ ((p2 1 0).scalar 8).toNat ≠ M.curVersion 0 ∧
    Ready eRmack xr { Mver with procs := [(1, p2 1 0)] } (p2 1 0) ∧ Mver.curVersion 0 = 1 ∧ Mver.acked 0 1 = false ∧
    Ready eRmack xr (machine (pph 1 0)) (pph 1 0) ∧
    -- OMARK without and with a log; WDOG
    (M.ctx 0).dmode = 0 ∧ Ready eOmark xr { Mrec with procs := [(1, p2 0 0)] } (p2 0 0) ∧ (Mrec.ctx 0).dmode = 1 ∧
    (Mrec.ctx 0).log.length < (Mrec.ctx 0).logCap ∧ Ready eWdog xlim (machine (p2 0 0)) (p2 0 0) ∧ mN xlim ≠ 0 ∧
    Ready eOmark xr { Mrep with procs := [(1, p2 7 0)] } (p2 7 0) ∧ ((Mrep.ctx 0).dmode = 2 ∧ (Mrep.ctx 0).wdLimit = 0 ∧
      (Mrep.ctx 0).log.find? (fun l => l.rank == 0 && l.ord == 0) = some ⟨0, 0, 3, 0, 7, 0⟩ ∧ (p2 7 0).scalar 8 = 7) :=
  ⟨by decide, ⟨ready_of (by decide +kernel), by decide, by decide, by unfold Spec.Quiet; decide +kernel, by decide +kernel,
    by decide +kernel, ready_of (by decide +kernel), ready_of (by decide +kernel), by decide +kernel, by decide,
    by decide +kernel, by decide +kernel, ready_of (by decide +kernel), by decide⟩, ready_all (f := id) (by decide +kernel), by decide +kernel, by decide +kernel,
    by decide +kernel, by decide +kernel, ready_of (by decide +kernel), by decide +kernel, by decide +kernel,
    ready_of (by decide +kernel), by decide +kernel, ready_of (by decide +kernel), by decide +kernel, by decide +kernel,
    ready_of (by decide +kernel), by decide, ready_of (by decide +kernel), by decide +kernel⟩

/-- A watchdog limit of one unit, passed on core 0. -/
def Mwd : State := (M.modCtx 0 fun c => { c with wdLimit := 1 }).modCore 0 fun c => { c with watch := [(0, 65537)] }
/-- A context that drains, with its last process stopped. -/
def Mdr : State := { M with procs := [], ctxs := [(0, { ctx0 with st := .draining })] }

/-- Watch counts stand in order wherever the table of cores lists one. -/
theorem watch_sorted {s : State} (h : (s.cores.all fun c => tblSorted c.2.watch) = true) (c : Nat) : tblSorted (s.core c).watch = true := by
  unfold State.core tblGetD
  cases hc : tblGet s.cores c with
  | none => rfl
  | some k => exact List.all_eq_true.1 h (c, k) (tblGet_mem hc)

theorem witness_ContextEvents : ({ M with rmacks := [(0, 0, 0)] }.rmacks[0]? = some (0, 0, 0) ∧ 0 ≤ M.curVersion 0) ∧
    ({ M with rmacks := [(0, 0, 1)] }.rmacks[0]? = some (0, 0, 1) ∧ M.curVersion 0 < 1) ∧
    ((M.ctx 0).st = .running ∧ ((onDie M fun d => { d with windows := [(0, 1, 0)] }).die 0).windows = [(0, 1, 0)] ∧
      tblGetD (M.ctx 0).ack 0 0 < 1) ∧
    ((Mwd.ctx 0).st = .running ∧ (Mwd.ctx 0).wdLimit ≠ 0 ∧ (Mwd.ctx 0).wdLimit * 65536 < tblGetD (Mwd.core 0).watch 0 0 ∧
      tblSorted (Mwd.core 0).watch = true) ∧
    ({ M with kicks := [(0, 0)] }.kicks[0]? = some (0, 0) ∧ (∀ c, c / 256 = 0 → tblSorted (M.core c).watch = true)) ∧
    -- a count past the limit before the kick; a period that has ended on die 0 and on core 0, and one that has not
    ({ Mwd with kicks := [(0, 0)] }.kicks[0]? = some (0, 0) ∧ 0 / 256 = 0) ∧
    (((onDie M fun d => { d with cycle := 131072 }).die 0).period + 131072 ≤ ((onDie M fun d => { d with cycle := 131072 }).die 0).cycle ∧
      ((M.modCore 0 fun c => { c with cycle := 65536 }).core 0).period + 65536 ≤ ((M.modCore 0 fun c => { c with cycle := 65536 }).core 0).cycle ∧
      (M.die 0).cycle < (M.die 0).period + 131072) ∧
    (Mrec.ctx 0).dmode = 1 ∧ ((Mdr.ctx 0).st = .draining ∧ Mdr.ctxBusy 0 = false ∧ tblSorted Mdr.ctxs = true) :=
  ⟨by decide +kernel, by decide +kernel, by decide +kernel, by decide +kernel,
    ⟨by decide +kernel, fun c _ => watch_sorted (by decide +kernel) c⟩, by decide +kernel, by decide +kernel, by decide +kernel⟩

/-! ### Processes -/

/-- Context 0 with kernel 0 of one entry; process 1 without the vector class, so that the pool has room for more. -/
def kernel0 : Kernel :=
  { codeOff := 65536, codeLen := 65536, constOff := 0, constLen := 0, dataOff := 0, dataLen := 0, entries := [⟨0, 1, false, 0⟩] }
def Mk (p : Proc) : State := (machine p).modCtx 0 fun c => { c with kernels := [(0, kernel0)] }
def pk (vs : List (Nat × Word)) : Proc := rs { proc0 with vclass := false } vs
/-- SPAWN of w4 and w5 with rank w9, placed here, on the core of w8, or where there is room. -/
def xsp (place : Nat) : Args := { xr with len := .l96, im21 := BitVec.ofNat 21 (1024 * (4 * 64 + 2 * 8 + 2 * place)), ext := 64 }
/-- FORKR of w8 iterations in blocks of w9's low half with its cell at a1. -/
def xfk : Args := { xsp 0 with im21 := 1024 * (4 * 64 + 2 * 8) + 41 }
def pfk : Proc := pk [(8, 8), (9, 0x500000004)]
/-- The machine whose join cell at a0 or a1 holds `v`. -/
def Mcell (i v : Nat) : State := { M with mem := memWrite [] (Spec.windowPA M proc0 i 64) (natBytes 8 v) }

theorem procs_end (p : Proc) : ∀ n, (machine p).seq ≤ n → (machine p).proc n = none := by
  intro n hn
  have h2 : 2 ≤ n := hn
  show tblGet [(1, p)] n = none
  simp only [tblGet]
  rw [if_neg (by omega)]; split <;> rfl

theorem witness_ProcessesAndJoins : (∀ p : Proc, (machine p).wf = true ∧ (machine p).waiters = [] ∧
      (machine p).cur < (machine p).seq ∧ ∀ n, (machine p).seq ≤ n → (machine p).proc n = none) ∧
    (∀ k ∈ [0, 1, 2], Ready eSpawn (xsp k) (Mk (pk [(8, 0), (9, 5)])) (pk [(8, 0), (9, 5)])) ∧
    (∀ k ∈ [0, 1, 2], Spec.placedOn (xsp k) (Mk (pk [(8, 0), (9, 5)])) (pk [(8, 0), (9, 5)]) 0) ∧
    Spec.Quiet (Mk (pk [(8, 0), (9, 5)])) (pk [(8, 0), (9, 5)]) 3 ∧ (spawnF (xsp 0) = 4 ∧ spawnN (xsp 0) = 2 ∧
      (pk [(8, 0), (9, 5)]).packet = none ∧ (pk [(8, 0), (9, 5)]).pending = [] ∧ pfk.packet = none ∧ pfk.phase = 0) ∧
    ((Mk (pk [])).newProc (Mk (pk [])).occupants (Spec.childOf (xsp 0) (pk []) 0 5)).isSome = true ∧
    (Mk (pk [])).rankHeld 0 5 = false ∧
    -- FORKR of two children, with ranks 5 and 6
    Ready eForkr xfk (Mk pfk) pfk ∧ Spec.Quiet (Mk pfk) pfk 3 ∧ spawnPlace xfk = 0 ∧ spawnN xfk = 2 ∧
    ((pfk.scalar 8).toNat, (pfk.scalar 9).toNat) = (8, 5 * 2 ^ 32 + 4) ∧ (cOf .modw xfk).toNat = 41 ∧
    Spec.firstFault (Mk pfk) pfk (pfk.addr 1) 1 64 8 8 0x1C = none ∧ (Mk pfk).badWord (Spec.windowPA (Mk pfk) pfk 1 64) 8 = none ∧
    (∀ k < 2, (Mk pfk).rankHeld 0 (5 + k) = false) ∧
    ((envOf eForkr xfk (Mk pfk) 1 pfk).children ((Mk pfk).recruit ((envOf eForkr xfk (Mk pfk) 1 pfk).childSeed 0 0) 0 0 2) 2 8 4 5).isSome
      = true ∧
    -- JINIT, JOIN of each count, PUSHK
    (∀ i ∈ [0, 1], Ready eJinit (xl i) M proc0) ∧ (∀ i ∈ [0, 1], ∀ v ∈ [0, 1, 2], Ready eJoin (xl i) (Mcell i v) proc0 ∧
      (Mcell i v).readNat (Spec.windowPA M proc0 i 64) 8 = v) ∧ (∀ i ∈ [0, 1], fault1 (xl i) i 8 0x1C = none) ∧
    Spec.Quiet M proc0 4 ∧ Ready ePushk (xl 0) M proc0 ∧ (M.core 0).deque.length < 256 ∧ M.badWord (Spec.windowPA M proc0 0 64) 32 = none ∧
    fault1 (xl 0) 0 32 0x10 = none :=
  ⟨fun p => ⟨rfl, rfl, (by decide : (1 : Nat) < 2), procs_end p⟩, fun k hk => ready_of (by fin_cases hk <;> decide +kernel),
    fun k hk => by fin_cases hk <;> unfold Spec.placedOn <;> decide +kernel, by unfold Spec.Quiet; decide +kernel, by decide,
    by decide +kernel, by decide +kernel, ready_of (by decide +kernel), by unfold Spec.Quiet; decide +kernel, by decide,
    by decide, by decide +kernel, by decide, by decide +kernel, by decide +kernel, by decide +kernel, by decide +kernel,
    ready_each (f := fun _ => eJinit) (by decide +kernel), fun i hi v hv => ⟨ready_of (by fin_cases hi <;> fin_cases hv <;> decide +kernel),
      by fin_cases hi <;> fin_cases hv <;> decide +kernel⟩, by decide +kernel, by unfold Spec.Quiet; decide +kernel,
    ready_of (by decide +kernel), by decide +kernel⟩

/-- A process with one delayed fault; one that may not raise its priority. -/
def pdel : Proc := { proc0 with delayed := [{ cause := 42 }] }
def pflo : Proc := { p2 0 0 with priv := false, floor := 1 }

theorem witness_NopTrapStopYieldSleep : (∀ e ∈ [eStop, eYield, eSpri, eSleep, eNop, eTrap, eBrk], Ready e xr (machine (p2 0 0)) (p2 0 0)) ∧
    (machine (p2 0 0)).drained 1 (p2 0 0) = true ∧ proc0.delayed = [] ∧ proc0.overflow = none ∧ proc0.packet = none ∧
    Ready eStop xr (machine pout) pout ∧ (machine pout).drained 1 pout = false ∧
    Ready eStop xr (machine pdel) pdel ∧ (machine pdel).drained 1 pdel = true ∧ pdel.delayed = { cause := 42 } :: [] ∧
    (Ready eSpri xr (machine pflo) pflo ∧ pflo.priv = false ∧ (pflo.scalar 8).toNat % 4 < pflo.floor) ∧
    Ready eSleep xr (machine (p2 9 0)) (p2 9 0) ∧ ((machine (p2 9 0)).core 0).tick < 9 :=
  ⟨ready_all (f := id) (by decide +kernel), by decide +kernel, rfl, rfl, rfl, ready_of (by decide +kernel), by decide +kernel,
    ready_of (by decide +kernel), by decide +kernel, rfl, ⟨ready_of (by decide +kernel), rfl, by decide +kernel⟩,
    ready_of (by decide +kernel), by decide +kernel⟩

/-- Process 1 READY in core 0's queue, with the slots given and processes 2 to 9 RUNNING. -/
def Msch (p : Proc) (slots : List (Option Nat)) (n : Proc) : State :=
  { Mk { p with st := .ready } with
    procs := (1, { p with st := .ready }) :: (List.range 8).map fun i => (i + 2, { n with rank := i + 1 }), seq := 10,
    cores := [(0, { live := true, slots := slots, ready := [(p.prio, [1])] })] }
def full8 : List (Option Nat) := (List.range 8).map fun i => some (i + 2)
/-- A task record of rank 5, in the deque of a core. -/
def task0 : TaskRec := { ctx := 0, kernel := 0, entry := 0, start := 65536, rank := 5, arg0 := 1, arg1 := 2, prio := 0, floor := 0, fpc := 0 }
def Mtask (core : Nat) : State := (Mk (pk [])).modCore core fun c => { c with deque := [task0] }
def pold : Proc := { proc0 with prio := 1, quantum := 1024, vclass := false }
def pwf : Proc := { proc0 with wakeFault := some { cause := 34 } }
def Mlim (r : Reason) (w : Wait) : State :=
  ((machine (parked r w)).modCtx 0 fun c => { c with waitlim := 5 }).modCore 0 fun c => { c with cycle := 100 }
/-- Waits that the limit bounds. -/
def bounded : List (Reason × Wait) := [(.fullBit, .word 8), (.barrier, .generation 4 0), (.memoryServer, .collective 0 0)]

theorem witness_nothingDue : (∀ p ∈ [proc0, pold], Spec.NothingDue (Msch p full8 pold) 0) ∧ ((Msch pold full8 pold).core 0).freeSlot = none := by
  unfold Spec.NothingDue
  decide +kernel

theorem witness_SchedulingEvents :
    (((Msch proc0 [none] proc0).core 0).freeSlot = some 0 ∧ (Msch proc0 [none] proc0).readyResident 0 = 1 :: []) ∧
    (((Msch proc0 full8 pold).core 0).freeSlot = none ∧ (Msch proc0 full8 pold).readyResident 0 = 1 :: [] ∧
      displaced 0 ((Msch proc0 full8 pold).holders 0) = some (7, 9, { pold with rank := 8 }) ∧ pold.st = .running) ∧
    (((Msch pold full8 pold).core 0).slots[0]? = some (some 2) ∧ (Msch pold full8 pold).proc 2 = some { pold with rank := 1 } ∧
      ((Msch pold full8 pold).core 0).quant ≤ pold.quantum ∧ pold.packet = none ∧
      ((Msch pold full8 pold).readyResident 0).find? (fun i => ((Msch pold full8 pold).proc i).map (·.prio) == some pold.prio) = some 1) ∧
    (((Msch { proc0 with resident := false } full8 pold).core 0).queue = [1] ∧
      ((Msch { proc0 with resident := false } full8 pold).fill 1).isSome = true) ∧
    ((machine (parked .sleep (.tick 0))).proc 1 = some (parked .sleep (.tick 0)) ∧ 0 ≤ ((machine (parked .sleep (.tick 0))).core 0).tick) ∧
    (∀ b ∈ bounded, (Mlim b.1 b.2).proc 1 = some (parked b.1 b.2) ∧ ((Mlim b.1 b.2).ctx 0).waitlim ≠ 0 ∧
      ((Mlim b.1 b.2).ctx 0).waitlim < ((Mlim b.1 b.2).core 0).cycle - 0) ∧
    ((machine { proc0 with st := .stopped }).procBusy 1 { proc0 with st := .stopped } = false ∧ tblSorted M.procs = true) ∧
    ((machine pwf).proc 1 = some pwf ∧ pwf.wakeFault = some { cause := 34 } ∧ pwf.held = none ∧ pwf.delayedDue = false ∧
      pwf.st = .running) ∧
    ((machine pdel).proc 1 = some pdel ∧ pdel.thdl.getLsbD 1 = false ∧ pdel.delayed = { cause := 42 } :: []) ∧
    (((Mtask 0).core 0).deque = [] ++ [task0] ∧ ((Mtask 0).ctx 0).st = .running ∧ (Mtask 0).underloaded 0 = true ∧
      (Mtask 0).rankHeld 0 5 = false ∧ ((Mtask 0).newProc (Mtask 0).occupants (Spec.taskSeed 0 task0)).isSome = true) ∧
    (((Mtask 1).core 0).deque = [] ∧ (stealOrder 0).find? (Mtask 1).stealable = some 1 ∧ ((Mtask 1).core 1).deque = task0 :: [] ∧ (Mtask 1).underloaded 0 = true ∧ (Mtask 1).rankHeld 0 5 = false ∧
      ((Mtask 1).newProc (Mtask 1).occupants (Spec.taskSeed 0 task0)).isSome = true) := by decide +kernel

/-! ### Channels -/

/-- A process whose w8 is a handle of channel `i`, and w9 = 77. -/
def pch (type : Nat) (rx : Bool) (i : Nat) : Proc := p2 (handle type rx i) 77
/-- A closed message of one part in a channel. -/
def msg0 : Msg := { ticket := 1, pid := 9, parts := [natBytes 8 7] }
/-- The machine whose channel `i` has the receive end `e`. -/
def Mend (p : Proc) (i : Nat) (e : ChanEnd) : State := (machine p).modCtx 0 fun c => { c with ends := [(i, e)] }

/-- `Spec.OpenHere` as a computation. -/
theorem openHere_of {s : State} {p : Proc} {i : Nat}
    (h : (((s.chan p.ctx i).kind = 1 ∨ (s.chan p.ctx i).kind = 2) ∧ (s.chan p.ctx i).closed = false ∧
      s.endPlace p.ctx i = (s.devId, coreDie p.core) ∧ (s.chanEnd p.ctx i).rebind = [] ∧
      nsHas (s.ctx p.ctx).moving ((s.chan p.ctx i).target % 2 ^ 32) = false ∧ (s.chanEnd p.ctx i).matched = [] ∧ ∀ m ∈ (s.chanEnd p.ctx i).held, m.rsv = none)) : Spec.OpenHere s p i := h

theorem witness_ChannelParts :
    -- SEND and SENDV, with .e and without
    (∀ e ∈ [true, false], Ready eSend { xr with e := e } (machine (pch 0 false 1)) (pch 0 false 1) ∧
      Ready eSendv { xr with e := e } (machine (pch 1 false 2)) (pch 1 false 2)) ∧
    (∀ i ∈ [1, 2], Spec.OpenHere M proc0 i ∧ M.chanEnd 0 i = {} ∧ 0 < (M.chan 0 i).depth ∧ Spec.Quiet M proc0 2) ∧
    (hIndex ((pch 0 false 1).scalar 8) = 1 ∧ M.hcheck 0 0 ((pch 0 false 1).scalar 8) false [0] [1, 2, 3, 5] = none ∧
      hIndex ((pch 1 false 2).scalar 8) = 2 ∧ M.hcheck 0 0 ((pch 1 false 2).scalar 8) false [1] [1, 2, 3, 5] = none) ∧
    -- RECV and RECVV of a message held, and RECV of none
    (Ready eRecv xr (Mend (pch 0 true 1) 1 { held := [msg0] }) (pch 0 true 1) ∧
      M.hcheck 0 0 ((pch 0 true 1).scalar 8) true [0, 4] [1, 2] = none ∧
      Ready eRecvv xr (Mend (pch 1 true 2) 2 { held := [msg0] }) (pch 1 true 2) ∧
      M.hcheck 0 0 ((pch 1 true 2).scalar 8) true [1] [1, 2] = none ∧
      (∀ i ∈ [1, 2], Spec.OpenHere (Mend proc0 i { held := [msg0] }) proc0 i ∧
        ((Mend proc0 i { held := [msg0] }).chanEnd 0 i).held = msg0 :: []) ∧ msg0.closed = true ∧ msg0.parts ≠ []) ∧
    Ready eRecv xr (machine (pch 0 true 1)) (pch 0 true 1) ∧ ((pch 0 true 1).st = .running ∧ (pch 0 true 1).wakeVal = none ∧
      (pch 0 true 1).phase = 0 ∧ (pch 0 true 1).rx = [] ∧ (pch 0 true 1).packet = none) :=
  ⟨fun e he => ⟨ready_of (by fin_cases he <;> decide +kernel), ready_of (by fin_cases he <;> decide +kernel)⟩,
    fun i hi => ⟨openHere_of (by fin_cases hi <;> decide +kernel), by fin_cases hi <;> decide +kernel,
      by fin_cases hi <;> decide +kernel, by unfold Spec.Quiet; decide +kernel⟩, by decide +kernel,
    ⟨ready_of (by decide +kernel), by decide +kernel, ready_of (by decide +kernel), by decide +kernel,
      fun i hi => ⟨openHere_of (by fin_cases hi <;> decide +kernel), by fin_cases hi <;> decide +kernel⟩, by decide⟩,
    ready_of (by decide +kernel), by decide +kernel⟩

/-- SENDT and RECVT of the 64 bytes at a0; CHB to kind 001 with rank 0. -/
def xti : Args := { xr with b := 40, im21 := 7 }
def pbi (w : Word) : Proc := p2 (handle 0 false 1) w
/-- A process with an open alt. -/
def pal (gs : List Guard) : Proc := { pch 0 true 1 with alt := some gs }
def xg5 (k : Nat) : Args := { xr with im21 := BitVec.ofNat 21 (1024 * k), a := if k = 4 then 1 else 8 }

theorem witness_ChannelControl :
    (Ready eSendt xti (machine (pch 2 false 3)) (pch 2 false 3) ∧ Ready eRecvt xti (machine (pch 2 true 3)) (pch 2 true 3) ∧
      Spec.OpenHere M proc0 3 ∧ (M.chan 0 3).depth = 0 ∧ M.chanEnd 0 3 = {} ∧
      M.hcheck 0 0 ((pch 2 false 3).scalar 8) false [2] [1, 2, 5] = none ∧
      M.hcheck 0 0 ((pch 2 true 3).scalar 8) true [2] [1, 2] = none ∧ Spec.tileOk xti M proc0 0x12 ∧ Spec.tileOk xti M proc0 0x0A ∧
      Spec.Quiet M proc0 2) ∧
    (Ready eChb xr (machine (pbi (2 ^ 61))) (pbi (2 ^ 61)) ∧ M.hcheck12 0 ((pbi (2 ^ 61)).scalar 8) [0, 1, 2, 3, 4] none = none ∧
      M.chanEnd 0 1 = {} ∧ M.transferring 0 1 = false ∧ M.unsentSends 0 1 = [] ∧ M.tileStoresBefore 1 0 2 = false ∧ ((pbi (2 ^ 61)).scalar 9).toNat / 2 ^ 61 = 1 ∧ (kindTypes 1).contains (M.chan 0 1).type = true ∧
      ((pbi (2 ^ 61)).scalar 9).toNat % 2 ^ 40 = 0) ∧
    (∀ e ∈ [eChq, eChcl], Ready e xr (machine (pbi 0)) (pbi 0)) ∧
    (∀ e ∈ [eChq, eChcl], Ready e xr (machine { pbi 0 with phase := 1 }) { pbi 0 with phase := 1 }) ∧
    (((machine (pbi 0)).modCtx 0 fun c => { c with chans := tblMod c.chans 1 fun h => { h with closed := true } }).chan 0 1).closed = true ∧
    (Ready eAltb xr (machine (pbi 0)) (pbi 0) ∧ (M.ctx 0).ends = []) ∧
    (∀ k ∈ List.range 5, Ready eAltg (xg5 k) (machine (pal [])) (pal []) ∧ mN (xg5 k) = k) ∧
    (M.hcheck 0 0 ((pal []).scalar 8) true [0, 1, 2, 4] [1, 2] = none ∧
      M.hcheck 0 0 ((pbi 0).scalar 8) false [0, 1, 2, 4] [1, 2] = none) ∧
    (Ready eAltw xr (machine (pal [.timeout 5, .timeout 0])) (pal [.timeout 5, .timeout 0]) ∧ (M.ctx 0).dmode = 0 ∧
      M.guardReady { pal [] with altT0 := some 0 } (.timeout 0) = true ∧
      M.guardReady { pal [] with altT0 := some 0 } (.timeout 5) = false ∧
      Ready eAltw xr (machine (pal [.timeout 5])) (pal [.timeout 5])) :=
  ⟨⟨ready_of (by decide +kernel), ready_of (by decide +kernel), openHere_of (by decide +kernel), by decide +kernel, by decide +kernel,
    by decide +kernel, by decide +kernel, by unfold Spec.tileOk; decide +kernel, by unfold Spec.tileOk; decide +kernel,
    by unfold Spec.Quiet; decide +kernel⟩, ⟨ready_of (by decide +kernel), by decide +kernel⟩, ready_all (f := id) (by decide +kernel),
    ready_all (f := id) (by decide +kernel), by decide +kernel, ⟨ready_of (by decide +kernel), by decide +kernel⟩,
    fun k hk => ⟨ready_of (all_true _ (fun k => readyB eAltg (xg5 k) (machine (pal [])) (pal [])) (by decide +kernel) k hk),
      (by decide : ∀ k ∈ List.range 5, mN (xg5 k) = k) k hk⟩, by decide +kernel,
    ready_of (by decide +kernel), by decide +kernel, by decide +kernel, by decide +kernel, ready_of (by decide +kernel)⟩

/-- A message and a notice on their way; the ends of a tile of 64 bytes. -/
def wire0 : ChanWire := { ctx := 0, chan := 1, msg := { msg0 with pid := 1, link := some (0, 1) } }
def tend0 (i : Nat) : TileEnd := { area := proc0.addr i, ea := 64, n := 64, tok := 1 }
def tile0 : Tile := { ticket := 1, ctx := 0, chan := 3, from_ := some (1, tend0 0), to_ := some (2, tend0 1) }
def Mtile : State := { M with procs := [(1, proc0), (2, { proc0 with rank := 1 })], seq := 3, tiles := [tile0] }
def pchw : Proc := { parked .channel (.chan 1) with waitsOn := some (handle 0 false 1, 1) }
def palw : Proc := { parked .alt .alt with alt := some [.timeout 0], altT0 := some 0 }
def Msup : State := { M with ctxs := [(0, { ctx0 with chans := [(0, { assigned := true, type := 4, kind := 6, target := 1 })] })],
                             cores := [(0, { live := true, records := [(bareRecord 0 50, none)] })] }

theorem witness_ChannelEvents :
    ({ M with chanIn := [wire0] }.chanIn[0]? = some wire0 ∧ (M.chan 0 1).closed = false ∧ M.chanEnd 0 1 = {} ∧ 0 < (M.chan 0 1).depth ∧
      wire0.msg.tile = none ∧ wire0.msg.link = some (0, 1) ∧ wire0.msg.drop = false ∧ (M.chan 0 1).kind = 1 ∧ (M.endPlace 0 1).1 = M.devId) ∧
    ({ machine pchw with notices := [wire0] }.notices[0]? = some wire0 ∧ wire0.msg.pid ≠ 0 ∧ wire0.msg.req = none ∧ (machine pchw).proc 1 = some pchw ∧
      pchw.st = .parked .channel (.chan wire0.msg.ticket) 0) ∧
    (Mtile.tiles[0]? = some tile0 ∧ Mtile.proc 1 = some proc0 ∧ Mtile.proc 2 = some { proc0 with rank := 1 } ∧ Mtile.wf = true ∧
      Mtile.waiters = [] ∧ Spec.spaceOf (tend0 0).area = 0 ∧ Spec.spaceOf (tend0 1).area = 1 ∧
      Mtile.badWord (Spec.windowPA Mtile proc0 0 64) 64 = none) ∧
    (pchw.waitsOn = some (handle 0 false 1, 1) ∧ hIndex (handle 0 false 1) = 1 ∧ pchw.ops = []) ∧
    ((machine palw).proc 1 = some palw ∧ palw.st = .parked .alt .alt 0 ∧ (machine palw).altReady palw = true) ∧
    ((Msup.core 0).records = (bareRecord 0 50, none) :: [] ∧ (Msup.core 0).recFlight = 0 ∧ Msup.earlierVersion (bareRecord 0 50) = false ∧ (Msup.chan 0 0).kind = 6 ∧ (Msup.chan 0 0).closed = false) := by decide +kernel

end Sys2Proof.Tests
end

