-- ==== Sys2Proof/Tests/Witness3.lean ====
section
/-! SUPPORT. Witnesses, continued: barriers, groups, vectors and tiles. -/

namespace Sys2Proof.Tests

open Sys2Proof Sys2Proof.Machine

-- One kernel evaluation at a time: each would otherwise hold a thread of its own.
set_option Elab.async false

/-! ### Barriers and groups -/

/-- The machine whose core 0 has barrier 4 as given; w8 = 4 names it. -/
def Mbar (p : Proc) (b : Barrier) : State := (machine p).modCore 0 fun c => { c with bars := [(4, b)] }
def open5 (target count : Nat) : Barrier := { state := 1, target := target, count := count }
def grp0 : Barrier := { state := 1, mode := 2, gv := true, target := 1 }
def paw : Proc := { p2 4 2 with phase := 1 }
def xb (m c : Nat) : Args := { xr with im21 := BitVec.ofNat 21 (1024 * m + c) }
/-- w8, w9 and w10. -/
def p3 (a b c : Word) : Proc := rs proc0 [(8, a), (9, b), (10, c)]

theorem witness_Barriers : proc0.st = .running ∧ ((p2 4 5).scalar 8).toNat = 4 ∧
    -- BINI of an arrival and a byte barrier, and of one bound to group 0
    (∀ m ∈ [0, 1], Ready eBini (xb m 56) (machine (p2 4 5)) (p2 4 5) ∧ mN (xb m 56) % 4 = m) ∧ M.bar 0 4 = {} ∧
    (Ready eBini (xb 2 56) (machine (p2 4 0)) (p2 4 0) ∧ mN (xb 2 56) % 4 = 2 ∧ M.groupUsable 0 0 = true ∧ (M.group 0 0).has 0 = true) ∧
    -- BARV and BADD of 2: not complete, complete, too many
    (∀ n ∈ [1, 2, 5], Ready eBarv xr (Mbar (p2 4 2) (open5 n 0)) (p2 4 2) ∧ Ready eBadd xr (Mbar (p2 4 2) (open5 n 0)) (p2 4 2) ∧
      (Mbar (p2 4 2) (open5 n 0)).bar 0 4 = open5 n 0) ∧ Spec.Quiet M (p2 4 2) 2 ∧
    (Ready eBarv xr (Mbar (p2 4 2) grp0) (p2 4 2) ∧ ((Mbar (p2 4 2) grp0).group 0 grp0.group).has 0 = true ∧ Spec.Quiet M (p2 4 2) 4) ∧
    -- BAW that completes and that waits; BWT of another generation and of this one; BGEN
    (∀ n ∈ [1, 2], Ready eBaw xr (Mbar (p2 4 2) (open5 n 0)) (p2 4 2)) ∧
    (∀ b ∈ [(2 : Word), 0], Ready eBwt xr (Mbar (p2 4 b) (open5 5 0)) (p2 4 b)) ∧ Ready eBgen xr (Mbar (p2 4 2) (open5 5 0)) (p2 4 2) ∧
    -- BADD of zero; BAW that has waited, once its generation has passed
    (Ready eBadd xr (Mbar (p2 4 0) (open5 5 0)) (p2 4 0) ∧ (p2 4 0).scalar 9 = 0) ∧
    (Ready eBaw xr (Mbar paw { open5 5 0 with gen := 1 }) paw ∧ paw.phase = 1 ∧ paw.token = 0) :=
  ⟨rfl, by decide +kernel, fun m hm => ⟨ready_of (by fin_cases hm <;> decide +kernel), by fin_cases hm <;> decide +kernel⟩, by decide +kernel,
    ⟨ready_of (by decide +kernel), by decide +kernel⟩, fun n hn => ⟨ready_of (by fin_cases hn <;> decide +kernel),
      ready_of (by fin_cases hn <;> decide +kernel), by fin_cases hn <;> decide +kernel⟩, by unfold Spec.Quiet; decide +kernel,
    ⟨ready_of (by decide +kernel), by decide +kernel, by unfold Spec.Quiet; decide +kernel⟩,
    fun n hn => ready_of (by fin_cases hn <;> decide +kernel), fun b hb => ready_of (by fin_cases hb <;> decide +kernel),
    ready_of (by decide +kernel), ⟨ready_of (by decide +kernel), by decide +kernel⟩, ⟨ready_of (by decide +kernel), by decide⟩⟩

/-- GSEND of `n` bytes from a0 to offset 128; GSW to ranks 0, 2; QPOST of the record at a0. -/
def pgs (n : Nat) : Proc := p3 0 0 (BitVec.ofNat 64 (128 * 2 ^ 40 + n))
def xgs : Args := { xr with b := 40, im21 := 10 }
def pgw : Proc := p3 0 2 2
def pgr : Proc := { p2 0 5 with wakeVal := some 7 }
def pqp (phase : Nat) : Proc := { pch 3 false 5 with phase := phase }
def xqp (m : Nat) : Args := { xr with b := 40, im21 := BitVec.ofNat 21 (1024 * m) }
def Mfull : State := { machine (pqp 1) with queues := [(7, { en := true, recs := List.replicate 16 [] })] }

theorem witness_GroupsAndQueues : xr.i = false ∧ (M.groupUsable 0 0 = true ∧ (M.group 0 0).has 0 = true) ∧
    (∀ n ∈ [0, 64], Ready eGsend xgs (machine (pgs n)) (pgs n) ∧ ((pgs n).scalar 10).toNat = 128 * 2 ^ 40 + n) ∧ mN xgs = 0 ∧
    (Spec.firstFault M proc0 (proc0.addr 0) 0 64 64 8 0x12 = none ∧ proc0.cCopy < 65535 ∧ 128 + 64 ≤ (M.ctx 0).tlen) ∧
    (Ready eGred xr (machine pgr) pgr ∧ pgr.wakeVal = some 7 ∧ Ready eGred xr (machine (p2 0 5)) (p2 0 5) ∧ Spec.Quiet M (p2 0 5) 3) ∧
    (∀ k ∈ [1, 2, 3], Ready eGqry (xb k 56) (machine (p2 0 3)) (p2 0 3) ∧ mN (xb k 56) = k) ∧ (2 ≤ (M.group 0 0).state ∧ 3 < (M.group 0 0).count) ∧
    (Ready eGsw (xb 0 10) (machine pgw) pgw ∧ (M.group 0 0).state = 2 ∧ (M.group 0 0).draining = 0 ∧ M.legalSet 0 0 0 2 2 = true) ∧
    -- QPOST that asks, and one that is answered by a queue with a free place or a full one
    (∀ m ∈ [0, 1], (∀ k ∈ [0, 1], Ready eQpost (xqp m) (machine (pqp k)) (pqp k)) ∧ Ready eQpost (xqp m) Mfull (pqp 1) ∧
      (mN (xqp m)).testBit 0 = decide (m = 1)) ∧
    (Ready eGsw (xb 0 10) (machine { pgw with phase := 1 }) { pgw with phase := 1 }) ∧
    (M.hcheck 0 0 ((pqp 1).scalar 8) false [3] [4] = none ∧ Spec.Quiet M (pqp 1) 4 ∧ (M.queue 7).closed = false ∧ (M.queue 7).ctx = 0 ∧ fault1 (xl 0) 0 64 0x10 = none ∧
      M.badWord (Spec.windowPA M proc0 0 64) 64 = none ∧ M.readNat (Spec.windowPA M proc0 0 64) 8 = 0 ∧ (M.queue 7).en = true ∧
      16 + (Mfull.queue 7).quota ≤ (Mfull.queue 7).recs.length) :=
  ⟨rfl, by decide +kernel, fun n hn => ⟨ready_of (by fin_cases hn <;> decide +kernel), by fin_cases hn <;> decide +kernel⟩, by decide +kernel,
    by decide +kernel, ⟨ready_of (by decide +kernel), by decide +kernel, ready_of (by decide +kernel), by unfold Spec.Quiet; decide +kernel⟩,
    fun n hn => ⟨ready_of (by fin_cases hn <;> decide +kernel), by fin_cases hn <;> decide +kernel⟩, by decide +kernel,
    ⟨ready_of (by decide +kernel), by decide +kernel⟩,
    fun n hn => ⟨fun k hk => ready_of (by fin_cases hn <;> fin_cases hk <;> decide +kernel), ready_of (by fin_cases hn <;> decide +kernel),
      by fin_cases hn <;> decide +kernel⟩, ready_of (by decide +kernel),
    by decide +kernel, by unfold Spec.Quiet; decide +kernel, by decide +kernel⟩

/-- A packet of 64 bytes for core 0's LOCAL window at 128, not read, and landing; its process has the operation. -/
def gpk0 : GPacket :=
  { ctx := 0, pid := 1, tok := 9, entry := 0, die := 0, core := 0, space := 0, src := 64, count := 64, sb := 0, toks := [], off := 128,
    dsp := false, bar := none }
def gpk1 : GPacket := { gpk0 with bytes := some (List.replicate 64 7), targets := [0] }
def pgop : Proc := { proc0 with ops := [(9, { kind := .other, owner := .die, dest := some (.w 25), left := 1 })], cCopy := 1 }
def Mgp (p : Proc) (k : GPacket) : State := { machine p with gpackets := [k] }
def key0 : RedKey := { op := 0, ty := 0, rm := 0, payl := false }
/-- Group 0 of one member; of a set that is being replaced; a combining point that waits for core 0. -/
def Mred : State :=
  { (machine (parked .memoryServer (.collective 0 0))).modCtx 0 fun c => { c with groups := [(0, { state := 2, count := 1, stride := 1 })] } with
    gContrib := [(0, 0, 0, key0, ⟨1, 0, 7⟩)] }
/-- An instance of three members of f32, of which rank 1 has contributed; the same where rank 2 has as well. -/
def keyf : RedKey := { op := 0, ty := 8, rm := 0, payl := false }
def coll0 (n : Nat) : Collective := { entry := 0, index := 0, first := 0, stride := 1, count := 3, gen := 0, key := keyf,
                                      parts := [⟨2, 1, 0x3F800000⟩, ⟨3, 2, 0x3F800000⟩].take n }
def con0 : Contrib := ⟨1, 0, 0x3F800000⟩
def Mcoll (n : Nat) : State := { Mred.modCtx 0 fun c => { c with colls := [coll0 n] } with gContrib := [(0, 0, 0, keyf, con0)] }
def Mrw : State := M.modCtx 0 fun c => { c with groups := [(0, { state := 3, count := 1, stride := 1 })] }
def Mgb : State := { M.modCtx 0 fun c => { c with gbars := [(1024, ([0], []))] } with gArrive := [(0, 0, 4, 0)] }
def Mgd : State := { Mbar proc0 { grp0 with state := 2 } with gDone := [(0, 0, 4, 0)] }

theorem witness_GroupEvents :
    ((Mgp proc0 gpk0).gpackets = gpk0 :: [] ∧ gpk0.bytes = none ∧ (Mgp proc0 gpk0).proc 1 = some proc0 ∧ ((Mgp proc0 gpk0).core 0).sb = [] ∧
      proc0.ops = [] ∧ (Mgp proc0 gpk0).tileStoresBefore 1 0 9 = false ∧ Spec.ctxSt M 0 = .running ∧ gpk0.space < 2 ∧ ((Mgp proc0 gpk0).ctx 0).lkHard = false ∧ ((Mgp proc0 gpk0).ctx 0).lkb = 0 ∧ M.badWord (Spec.windowAt M 0 0 0 64) 64 = none) ∧
    ((Mgp pgop gpk1).gpackets = gpk1 :: [] ∧ gpk1.bytes = some (List.replicate 64 7) ∧ gpk1.targets = [0] ∧ gpk1.dies = [] ∧
      gpk1.fails = [] ∧ gpk1.far = 0 ∧ gpk1.home = none ∧ gpk1.dsp = false ∧ 128 + 64 ≤ ((Mgp pgop gpk1).ctx 0).tlen ∧ (Mgp pgop gpk1).wf = true ∧ (tblGet pgop.ops 9).isSome = true) ∧
    (Mred.gContrib[0]? = some (0, 0, 0, key0, ⟨1, 0, 7⟩) ∧ (Mred.ctx 0).colls = [] ∧ (Mred.group 0 0).count = 1 ∧ (Mred.group 0 0).first = 0 ∧
      Mred.proc 1 = some (parked .memoryServer (.collective 0 0)) ∧ key0.ty < 8) ∧
    (∀ n ∈ [1, 2], ((Mcoll n).ctx 0).colls = [coll0 n] ∧ ((Mcoll n).ctx 0).peers = [] ∧ (Mcoll n).gContrib[0]? = some (0, 0, 0, keyf, con0) ∧ (coll0 n).key = keyf ∧
      memberRanks 0 1 3 = [0, 1, 2] ∧ ((coll0 n).parts.map (·.rank)) = [1, 2].take n ∧ (((coll0 n).parts ++ [con0]).map (·.pid)).Nodup ∧
      (Mcoll n).proc 1 = some (parked .memoryServer (.collective 0 0))) ∧
    ((Mrw.group 0 0).state = 3 ∧ (Mrw.ctx 0).colls = [] ∧ Mrw.gpackets = []) ∧
    (Mgb.gArrive[0]? = some (0, 0, 4, 0) ∧ Mgb.combinesHere 0 = true ∧ tblGet (Mgb.ctx 0).gbars (256 * 4 + 0) = some ([0], [])) ∧
    (Mgd.gDone[0]? = some (0, 0, 4, 0) ∧ (Mgd.bar 0 4).state = 2) :=
  ⟨by decide +kernel, by decide +kernel, by decide +kernel, fun n hn => by fin_cases hn <;> decide +kernel, by decide +kernel⟩

/-! ### Vectors -/

/-- A vector access of z64 through a0 to a3: contiguous, or with v0 as its indices; .f of f64; beyond the range. -/
def xv (i : Nat) : Args := { plain with d := 1, a := BitVec.ofNat 6 (40 + i), b := 56, ty := 4 }
def xvi (i : Nat) : Args := { xv i with b := 0 }
def xvf (i : Nat) : Args := { xv i with len := .l96, im21 := 0x4000, ty := 8 }
def xvo (i : Nat) : Args := { xv i with im21 := 4032 }
/-- The operands of a row of `Spec.vecLoadRows` or `vecStoreRows`. -/
def xvr (e : Entry) (i : Nat) : Args := if e.op = eVgat.op ∨ e.op = eVsca.op then xvi i else xv i
/-- The process with format descriptors 0 and 1: LOCAL and CLUSTER bytes 0 to 4,095 hold format 2. -/
def pfm : Proc := { proc0 with fmt := [(0, 0x2400000000400000), (1, 0x6400000000400000)] }
def reg0 (f : Nat) : FmtRegion := ⟨0, f, 0, none⟩
/-- The instructions of a space. -/
def vldOf (sp : Nat) : (Args → Instr) × Entry := if sp = 0 then (.vldl, eVldl) else (.vldc, eVldc)
def vstOf (sp : Nat) : (Args → Instr) × Entry := if sp = 0 then (.vstl, eVstl) else (.vstc, eVstc)
/-- Lanes 0 to 15 of a contiguous access pass the checks at their addresses. -/
abbrev lanesOk (x : Args) (i : Nat) (perms : BitVec 8) (at_ : Args → Proc → Nat → Int) : Prop :=
  ∀ j ∈ List.range 16, 0 ≤ at_ x proc0 j ∧ Spec.firstFault M proc0 (Spec.srcA x proc0) i (at_ x proc0 j).toNat 8 8 perms = none ∧
    M.badWord (Spec.windowPA M proc0 i (at_ x proc0 j).toNat) 8 = none

theorem witness_VectorMemory : (∀ i ∈ [0, 1], Spec.spaceOf (Spec.srcA (xv i) proc0) = i ∧ Spec.activeOf (xv i) proc0 (mO (xv i)) = List.range 16 ∧
      (mO (xv i)).testBit 4 = false) ∧
    (∀ i ∈ [0, 1], ∀ r ∈ Spec.vecLoadRows i ++ Spec.vecStoreRows i, readyB r.2.1 (xvr r.2.1 i) M proc0 = true) ∧
    (∀ i ∈ [0, 1], lanesOk (xv i) i 0x10 Spec.vecAt ∧ lanesOk (xvi i) i 0x10 Spec.idxAt ∧ lanesOk (xv i) i 0x08 Spec.vecAt ∧
      lanesOk (xvi i) i 0x08 Spec.idxAt) ∧
    -- beyond the register's range
    (∀ i ∈ [0, 1], Ready (vldOf i).2 (xvo i) M proc0 ∧
      Ready (vstOf i).2 (xvo i) M proc0 ∧ ∀ perms ∈ [(0x10 : BitVec 8), 0x08],
        Spec.firstFault M proc0 (Spec.srcA (xvo i) proc0) i (Spec.vecAt (xvo i) proc0 0).toNat 8 8 perms = some 14) ∧
    -- .f between f64 and format 2
    (∀ i ∈ [0, 1], Ready (vldOf i).2 (xvf i) (machine pfm) pfm ∧ Ready (vstOf i).2 (xvf i) (machine pfm) pfm ∧
      (mO (xvf i)).testBit 4 = true ∧ (Spec.ea (xvf i) pfm).toNat = 64 ∧
      (machine pfm).findRegion pfm i 64 {} (fun r => (List.range 16).map fun j => (64 + (Spec.place r.fmt j).1, (Spec.place r.fmt j).2.1))
        = .region (reg0 2) ∧
      ∀ j ∈ List.range 16, Spec.firstFault (machine pfm) pfm (Spec.srcA (xvf i) pfm) i (64 + (Spec.place 2 j).1) (Spec.place 2 j).2.1 0 0x18 = none ∧
        (machine pfm).badWord (Spec.windowPA (machine pfm) pfm i (64 + (Spec.place 2 j).1)) (Spec.place 2 j).2.1 = none) ∧
    dotfOk false 8 2 = true ∧ dotfOk true 8 2 = true ∧ scaledFmt 2 = false :=
  ⟨by decide +kernel, by decide +kernel, by decide +kernel,
    fun i hi => ⟨ready_of (by fin_cases hi <;> decide +kernel), ready_of (by fin_cases hi <;> decide +kernel), by fin_cases hi <;> decide +kernel⟩,
    fun i hi => ⟨ready_of (by fin_cases hi <;> decide +kernel), ready_of (by fin_cases hi <;> decide +kernel), by fin_cases hi <;> decide +kernel⟩,
    by decide⟩

/-- The pieces of a2's 16 lanes, with both lines in L1. -/
def pieceAt (j : Nat) : Piece :=
  { va := 65536 + 8 * j, pa := hbmPA 0 (65536 + 8 * j), len := 8, leaf := some fetchPage.leaf }
def Mlines : State := M.modCore 0 fun c => { c with l1 := [(hbmPA 0 65536 / 64, ()), (hbmPA 0 65536 / 64 + 1, ())] }

theorem witness_VectorGlobal : (mO (xv 2)).testBit 4 = false ∧ Spec.activeOf (xv 2) proc0 (mO (xv 2)) = List.range 16 ∧
    (∀ j ∈ List.range 16, 0 ≤ Spec.vecAt (xv 2) proc0 j) ∧ Ready eVldg (xv 2) Mlines proc0 ∧ (Mlines.core 0).sb = [] ∧
    (∀ j ∈ List.range 16, Mlines.check 0 0 true (Spec.srcA (xv 2) proc0) (Spec.vecAt (xv 2) proc0 j).toNat 8 2 0x10 8 { rd := true }
        = .ok [pieceAt j] ∧ Mlines.badWord (pieceAt j).pa 8 = none ∧
      ∀ l ∈ unitsOf 64 (pieceAt j).pa 8, (pieceAt j).l1 = true ∧ nsHas (Mlines.core 0).l1 l = true) ∧
    Ready eVstg (xv 2) M proc0 ∧ (M.core 0).sb.length + 16 ≤ 16 ∧ proc0.cStore + 16 ≤ 65535 ∧
    (∀ j ∈ List.range 16, M.check 0 0 true (Spec.srcA (xv 2) proc0) (Spec.vecAt (xv 2) proc0 j).toNat 8 2 0x08 8 { wr := true }
        = .ok [pieceAt j]) ∧
    (∀ e ∈ [eVgat, eVsca], Ready e (xvi 3) M proc0) ∧ Spec.spaceOf (Spec.srcA (xvi 3) proc0) = 3 :=
  ⟨by decide +kernel, by decide +kernel, by decide +kernel, ready_of (by decide +kernel), by decide +kernel, by decide +kernel,
    ready_of (by decide +kernel), by decide +kernel, by decide +kernel, by decide +kernel, ready_all (f := id) (by decide +kernel), by decide +kernel⟩

/-- Lane operands v8 and v9, of a type that a row takes. -/
def xw (r : (Args → Instr) × Entry × (Nat → Bool) × Spec.LaneOp) : Args :=
  { xr with ty := if r.2.2.1 5 then 5 else 9 }
/-- The invalid trap is enabled, and v8 holds signalling NaNs. -/
def pvt : Proc := { proc0 with fpc := 0x100, v := [(8, 0x7F8000017F8000017F800001)] }

theorem witness_VectorLanes : (∀ r ∈ Spec.vecRows, Ready r.2.1 (xw r) M proc0) ∧ (∀ r ∈ Spec.vecRows, r.2.2.1 (tyN (xw r)) = true) ∧
    Ready eVadd { xr with ty := 9 } (machine pvt) pvt ∧ ((pvt.vec 8).extractLsb' 0 32).toNat = 0x7F800001 ∧
    trapCause pvt.fpc { nv := true } = some 9 :=
  ⟨ready_each (f := fun r => r.2.1) (g := xw) (by decide +kernel), fun r hr => all_true _ (fun r => r.2.2.1 (tyN (xw r))) (by decide +kernel) r hr,
    ready_of (by decide +kernel), by decide +kernel, by decide⟩

/-- The same with a modifier, for f32 and for z32. -/
def xm9 (m : Nat) : Args := { xr with ty := 9, im21 := BitVec.ofNat 21 (1024 * m + 56) }
def xm5 (m : Nat) : Args := { xm9 m with ty := 5 }
/-- CR.RNGCTL traps, and the counter wraps at w10. -/
def prn : Proc := { p3 0 0 0xFFFFFFFFFFFFFFFF with rngctl := 1 }

theorem witness_VectorOthers : (∀ e ∈ [eVcmp, eVred, eVbc, eVext, eVins, eVrng], Ready e (xm5 0) M proc0) ∧
    (∀ e ∈ [eVcmp, eVcls, eVred, eVscl, eVqdc], Ready e (xm9 0) M proc0) ∧
    (∀ m ∈ [0, 1, 2], mN (xm5 (16 * m)) / 16 % 4 = m ∧ Spec.activeOf (xm5 (16 * m)) proc0 (mN (xm5 (16 * m))) = List.range 32) ∧
    -- every lane holds 0: each is a least and a greatest one
    (∀ i ∈ List.range 32, Spec.exact (xm5 16) (Spec.lane (xm5 16) proc0 (xm5 16).a i) = 0) ∧
    (proc0.scalar 9).toNat < Spec.lanes (xm5 0) ∧
    (∀ e ∈ [eVext, eVins], Ready e (xm5 0) (machine (p2 0 32)) (p2 0 32)) ∧ Spec.lanes (xm5 0) ≤ ((p2 0 32).scalar 9).toNat ∧
    Ready eVrng { xm5 0 with im21 := 10 } (machine prn) prn ∧ 2 ^ 64 ≤ (prn.scalar 10).toNat + 1 ∧ prn.rngctl.getLsbD 0 = true ∧
    M.vqFault proc0 ((List.range 32).map fun _ => 0) = none ∧ (proc0.vec 8).extractLsb' 0 16 = 0 :=
  ⟨ready_all (f := id) (by decide +kernel), ready_all (f := id) (by decide +kernel), by decide +kernel, by decide +kernel, by decide +kernel,
    ready_all (f := id) (by decide +kernel), by decide +kernel, ready_of (by decide +kernel), by decide +kernel⟩

-- VCVT of f32 out to format 2, and of format 2 to f32
theorem witness_ConversionsAndMasks : (∀ m ∈ [8, 0], Ready eVcvt (xm9 (32 + m)) M proc0 ∧ mN (xm9 (32 + m)) / 16 % 16 = 2) ∧
    (fmtWidth 2, Spec.width (xm9 0)) = (16, 32) ∧
    (∀ r ∈ Spec.maskRows, Ready r.2.1 { plain with d := 1, a := 2, b := 3 } M proc0) ∧
    Ready eKpop { plain with d := 1, a := 2, ty := 5 } M proc0 ∧
    (∀ m ∈ [0, 16, 32, 48], readyB eKmov { plain with d := 1, a := 2, im21 := BitVec.ofNat 21 (1024 * m) } M proc0 = true) :=
  ⟨fun m hm => ⟨ready_of (by fin_cases hm <;> decide +kernel), by fin_cases hm <;> decide +kernel⟩, by decide +kernel,
    ready_all (by decide +kernel), ready_of (by decide +kernel), by decide +kernel⟩

/-! ### Tiles -/

/-- Buffer 0 holds format `f`, and buffer 1 too. -/
def py (f : Nat) : Proc := { pfm with y := [(0, { fmt := f }), (1, { fmt := f })] }
/-- D = 1, A = 0, B = w9 or buffer 1, C = v3, with a modifier and a format. -/
def xt (m f : Nat) : Args := { plain with d := 1, a := 0, b := 9, ty := BitVec.ofNat 4 f, im21 := BitVec.ofNat 21 (1024 * m + 3) }

theorem witness_TileRegisters :
    (∀ m ∈ [0, 1, 2], Ready eTcfg (xt m 2) M proc0 ∧ Ready eTzr (xt m 2) M proc0 ∧ mN (xt m 2) = m) ∧
    (∀ m ∈ [0, 1], ∀ v ∈ [(0 : Word), 99], Ready eTrd (xt m 2) (machine (p2 0 v)) (p2 0 v) ∧
      Ready eTwr (xt m 2) (machine (p2 0 v)) (p2 0 v) ∧ ((p2 0 v).scalar 9).toNat = v.toNat) ∧
    -- TXP of another format and of its own
    (∀ f ∈ [2, 4], Ready eTxp (xt 0 f) (machine (py 2)) (py 2)) ∧ ((py 2).ybuf 0).fmt = 2 ∧
    -- TCVT to a format without and with scales, TBS
    (∀ f ∈ [3, 4], Ready eTcvt (xt 0 f) (machine (py f)) (py f) ∧ Ready eTbs (xt 0 f) (machine (py f)) (py f) ∧ (∀ b ∈ [0, ((py f).ybuf 0).blk],
        Spec.StringReady (machine (py f)) (py f) f 3 (tileBlocks f b)) ∧ 32 ≤ tileCols f ∧ (tbsExp f).isSome = true) ∧ scaledFmt 4 = true ∧
    (∀ m ∈ [0, 8], Ready eXacc (xt m 0) M proc0) ∧ Ready eXrd (xt 0 1) M proc0 ∧
    trapCause proc0.fpc ((fmtOf 1).round 0 false 0 (-192)).c = none :=
  ⟨fun m hm => ⟨ready_of (by fin_cases hm <;> decide +kernel), ready_of (by fin_cases hm <;> decide +kernel), by fin_cases hm <;> decide +kernel⟩,
    fun m hm v hv => ⟨ready_of (by fin_cases hm <;> fin_cases hv <;> decide +kernel), ready_of (by fin_cases hm <;> fin_cases hv <;> decide +kernel),
      by fin_cases hv <;> decide +kernel⟩,
    fun f hf => ready_of (by fin_cases hf <;> decide +kernel), by decide +kernel,
    fun f hf => ⟨ready_of (by fin_cases hf <;> decide +kernel), ready_of (by fin_cases hf <;> decide +kernel),
      fun b hb => by fin_cases hf <;> fin_cases hb <;> unfold Spec.StringReady <;> decide +kernel,
      by fin_cases hf <;> decide +kernel⟩, by decide +kernel, fun m hm => ready_of (by fin_cases hm <;> decide +kernel),
    ready_of (by decide +kernel), by decide +kernel⟩

/-- TMMA z1, y0, y1 of a format; TLD or TST of y1 at a0 or a1, in the format of the descriptors. -/
def xmm (f : Nat) : Args := { plain with d := 1, a := 0, b := 1, ty := BitVec.ofNat 4 f, im21 := 56 }
def xld (i : Nat) : Args := { plain with d := 1, a := BitVec.ofNat 6 (40 + i), b := 56, ty := 2 }
/-- Accumulator traps are enabled. -/
def pmt (f : Nat) : Proc := { py f with fpc := 0x100 }
/-- Tile pipe 0 of core 0 with a load, a store or a multiplication of process 1 begun. -/
def top0 (w : TileWhat) : TileOp := { pid := 1, ctx := 0, what := w, fmt := 2, rows := [64, 128], started := true }
def pct : Proc := { py 2 with cTile := 1 }
def Mpipe (k : Nat) (o : TileOp) : State := { machine pct with pipes := [(k, [o])] }

theorem tileMoves_of {x : Args} {s : State} {p : Proc} {sp : Nat} {perms : BitVec 8} {g : FmtRegion}
    (h : sp < 2 ∧ Spec.spaceOf (Spec.srcA x p) = sp ∧ (mO x).testBit 0 = false ∧ scaledFmt (tyN x) = false ∧ g.fmt = tyN x ∧
      (Spec.ea x p).toNat % 8 = 0 ∧ ((mO x).testBit 1 = true → (p.scalar x.b.toNat).toInt % 8 = 0) ∧
      (∀ r < tileRows (tyN x), 0 ≤ Spec.tileRow x p r ∧ Spec.tileRow x p r < 2 ^ 64 ∧
        Spec.firstFault s p (Spec.srcA x p) sp (Spec.tileRow x p r).toNat (rowBytes (tyN x)) 0 perms = none ∧
        s.findRegion p sp (Spec.tileRow x p r).toNat {} (fun _ => [((Spec.tileRow x p r).toNat, rowBytes (tyN x))]) = .region g)) :
    Spec.TileMoves x s p sp perms g := h

theorem witness_TilePipes :
    -- tags that agree and that do not, without traps and with one
    (∀ f ∈ [2, 9], Ready eTmma (xmm f) (machine (py f)) (py f) ∧ Ready eTmma (xmm f) (machine (pmt f)) (pmt f) ∧
      mmaTags f ((py f).ybuf 0) ((py f).ybuf 1) ((py f).ybuf 2) = true ∧
      (Spec.StringReady (machine (py f)) (py f) f 56 0 ∧ tblGetD (machine (py f)).pipes 1 [] = [] ∧ scaledFmt f = false) ∧
      (py f).cTile < 65535 ∧ (py f).fpc.extractLsb' 8 4 = 0 ∧ (pmt f).fpc.extractLsb' 8 4 ≠ 0) ∧
    (Ready eTmma (xmm 9) (machine (py 2)) (py 2) ∧ mmaTags 9 ((py 2).ybuf 0) ((py 2).ybuf 1) ((py 2).ybuf 2) = false) ∧
    (∀ i ∈ [0, 1], Ready eTld (xld i) (machine (py 2)) (py 2) ∧ Ready eTst (xld i) (machine (py 2)) (py 2) ∧
      Spec.TileMoves (xld i) (machine (py 2)) (py 2) i 0x10 (reg0 2) ∧ Spec.TileMoves (xld i) (machine (py 2)) (py 2) i 0x08 (reg0 2) ∧
      ((py 2).ybuf (xld i).d.toNat).fmt = tyN (xld i)) ∧
    (∀ w ∈ [TileWhat.load 1 [], .store 1 []], tblGetD (Mpipe 0 (top0 w)).pipes 0 [] = top0 w :: [] ∧ (Mpipe 0 (top0 w)).proc 1 = some pct ∧
      ((Mpipe 0 (top0 w)).core 0).sb = [] ∧ (∀ va ∈ (top0 w).rows, (Mpipe 0 (top0 w)).badWord (Spec.windowAt (Mpipe 0 (top0 w)) 0 0 0 va)
        (rowBytes 2) = none)) ∧
    (tblGetD (Mpipe 1 (top0 (.mul 1 0 1 false 0 [] []))).pipes 1 [] = top0 (.mul 1 0 1 false 0 [] []) :: []) ∧
    ((py 9).ybuf 1).fmt = 9 ∧
    -- the general rows of TLD and TST; an instruction that has not begun
    (∀ i ∈ [0, 1], Spec.RowsPass (Spec.rowPlans (envOf eTld (xld i) (machine (py 2)) 1 (py 2)) false) ∧
      Spec.RowsPass (Spec.rowPlans (envOf eTst (xld i) (machine (py 2)) 1 (py 2)) true)) ∧
    tblGetD (Mpipe 0 { top0 (.load 1 []) with started := false }).pipes 0 [] = { top0 (.load 1 []) with started := false } :: [] :=
  ⟨fun f hf => ⟨ready_of (by fin_cases hf <;> decide +kernel), ready_of (by fin_cases hf <;> decide +kernel), by fin_cases hf <;> decide +kernel,
      by fin_cases hf <;> unfold Spec.StringReady <;> decide +kernel, by fin_cases hf <;> decide +kernel⟩,
    ⟨ready_of (by decide +kernel), by decide +kernel⟩,
    fun i hi => ⟨ready_of (by fin_cases hi <;> decide +kernel), ready_of (by fin_cases hi <;> decide +kernel),
      tileMoves_of (by fin_cases hi <;> decide +kernel), tileMoves_of (by fin_cases hi <;> decide +kernel), by fin_cases hi <;> decide +kernel⟩,
    by decide +kernel, by decide +kernel, by decide +kernel,
    fun i hi => by fin_cases hi <;> unfold Spec.RowsPass <;> decide +kernel, by decide +kernel⟩

end Sys2Proof.Tests
end

