-- ==== Sys2Proof/Tests/Witness4.lean ====
section
/-! SUPPORT. Witnesses, continued: management, the host, boot, the fabric, and the statements about every step. -/

namespace Sys2Proof.Tests

open Sys2Proof Sys2Proof.Machine

-- One kernel evaluation at a time: each would otherwise hold a thread of its own.
set_option Elab.async false

/-! ### Management -/

/-- A command of a KIND for a context with its words 1 and 2, and the machine with it at the head of queue 0. -/
def cmd (kind ctx : Nat) (a b : Word) : List Word := [BitVec.ofNat 64 (kind * 2 ^ 56 + ctx * 2 ^ 48), a, b, 5, 0, 0, 0, 0]
def Mq (s : State) (w : List Word) : State := s.modQueue 0 fun _ => { en := true, recs := [w] }
/-- Context 1 in a state. -/
def Mc1 (st : CState) : State := { M with ctxs := [(0, ctx0), (1, { st := st, tag := 1 })] }
/-- A kernel image of one 32-byte block of code and one entry, and firmware's place for it. -/
def image0 : List Byte :=
  natBytes 4 0x4B394B49 ++ natBytes 2 1 ++ [0, 0] ++ natBytes 2 2 ++ List.replicate 54 0 ++
    natBytes 8 1 ++ natBytes 4 96 ++ natBytes 4 32 ++ natBytes 8 4 ++ natBytes 4 128 ++ natBytes 4 16 ++
    List.replicate 32 0 ++ natBytes 4 0 ++ [1, 0, 1, 0] ++ List.replicate 8 0
def offsets0 : List Nat := [0xFF00000000, 0xFF00000000, 0xFF00000000]
def frames0 : List Nat := [16, 16, 16, 0]
def kimage0 : KImage := { code := List.replicate 32 0, const := [], data := [], entries := [⟨0, 1, false, 1⟩], chans := [], groups := [] }
/-- A bind block: one page of each area, 1 MiB of tables. -/
def block0 : List Word := [0, 0x0001000100010001] ++ List.replicate 5 0 ++ [1] ++ List.replicate 34 0
/-- Words of host memory from an address on; a machine with context 1 LOADING that has the kernel image at 4,096 and the bind
block at 8,192. -/
def hostAt (a : Nat) (ws : List Word) : Tbl Word := ws.zipIdx.map fun w => (a + 8 * w.2, w.1)
def Mhost : State :=
  { Mc1 .loading with
    hostMem := hostAt 4096 ((List.range 18).map fun i => BitVec.ofNat 64 (bytesNat ((image0.drop (8 * i)).take 8))) ++ hostAt 8192 block0 }
/-- The image of a context with one process, and the machine that may restore it as context 1: its header at 4,096 and the
die table at 8,192. -/
def img0 : Image :=
  { ctx := { tlen := 4096, dpool := 4096 }, procs := [(1, pk [])], seq := 2, regions := [], bars := [], dies := [0], fwrev := 0, mrev := 1 }
def Mimg : State :=
  { M with ctxs := [], procs := [], images := [(4096, img0)], hostMem := [(4104, 2 ^ 40 + 2 ^ 32), (8192, 0xFFFFFFFFFFFFFF00)] }
def table0 : List Nat := [0, 255, 255, 255, 255, 255, 255, 255]

theorem witness_ManagementCommands :
    (∀ k ∈ [0x10, 0x11, 0x12, 0x13, 0x14, 0x15, 0x16, 0x17, 0x18], ∀ n ∈ [0, 1],
      (Mq M (cmd k n 9 5)).command k = some (cmd k n 9 5) ∧ commandCtx (cmd k n 9 5) = n) ∧
    (Spec.ctxSt M 1 = .empty ∧ (∀ m < 1, Spec.ctxSt M m ≠ .empty) ∧
      ∀ n < 64, Spec.ctxSt { M with ctxs := (List.range 64).map fun i => (i, ctx0) } n ≠ .empty) ∧
    (Spec.ctxSt (Mc1 .loading) 1 = .loading ∧ Mhost.hostBytes 4096 144 = image0 ∧ parseImage (Mhost.mrev.toNat % 256) image0 = some kimage0 ∧
      freeChans ((Mc1 .loading).ctx 1).chans 0 = some [] ∧ tblGet ((Mc1 .loading).ctx 1).kernels 0 = none ∧
      Mhost.placeOk 1 (kernelOf kimage0 offsets0 frames0) = true ∧ Mhost.wf = true ∧
      parseImage ((Mc1 .loading).mrev.toNat % 256) [] = none ∧ Spec.ctxSt M 0 ≠ .loading) ∧
    (Spec.Bindable Mhost 1 (Mhost.bindBlock 8192) 0x11000 0x10000 0x1000000 ∧ Mhost.bindBlock 8192 = block0) ∧
    (Spec.ctxSt M 0 = .running ∧ Spec.ctxSt (Mc1 .suspended) 1 = .suspended ∧ M.proc 1 = some proc0 ∧ proc0.ctx = 0 ∧
      proc0.st = .running ∧ proc0.packet = none) ∧
    (∃ q : Proc, ({ M with procs := [(1, { proc0 with st := .suspended })] }).proc 1 = some q ∧ q.st = .suspended ∧ q.halt = none) ∧
    (let s := (Mc1 .suspended).modCtx 1 fun c => { c with saveTo := some (9, 5) };
      (s.ctx 1).saveTo = some (9, 5) ∧ s.ctxBusy 1 = false) ∧
    (tblGet Mimg.images 4096 = some img0 ∧ (Mimg.hostBytes 8192 8).map (·.toNat) = table0 ∧ Spec.ctxSt M 1 = .empty ∧
      tblGet M.images 5 = none) ∧
    (∃ ps, Spec.Restorable Mimg 1 4096 false 0 0 img0 table0 [(0, 0)] [] ps ∧ ps.length = 1) ∧
    ((9 : Word).toNat < 4096 ∧ (M.queue 9).en = false) :=
  ⟨by decide +kernel, by decide +kernel, by decide +kernel, ⟨by unfold Spec.Bindable; decide +kernel, by decide +kernel⟩, by decide +kernel,
    ⟨_, rfl, rfl, rfl⟩, by decide +kernel, by decide +kernel, ⟨(Mimg.placeProcs 1 img0.ctx table0 img0.procs []).getD [],
      by unfold Spec.Restorable; decide +kernel, by decide +kernel⟩, by decide +kernel⟩

/-! ### The host -/

def rec8 : List Word := List.replicate 8 1
/-- A launch of one instance of kernel 0's entry 0 on core 0 with rank 5, and one of no kernel. -/
def launch0 (k : Nat) : List Word := [BitVec.ofNat 64 (2 ^ 56 + k * 2 ^ 16), 0x500000001, 0x4000000000000000, 9, 1, 2, 3, 4]
def Mlaunch (k : Nat) : State := (Mk (pk [])).modQueue 7 fun _ => { en := true, recs := [launch0 k] }
def Mring : State := M.modQueue 7 fun _ => { en := true, waiting := [(1, 2)] }

theorem witness_HostQueues : Spec.HostReaches M 7 ∧ rec8.length = 8 ∧
    ((M.queue 7).en = true ∧ (M.queue 7).closed = false ∧ M.faultSink 7 = false ∧ (M.queue 7).recs.length < 16 + (M.queue 7).quota ∧
      16 + (Mfull.queue 7).quota ≤ (Mfull.queue 7).recs.length ∧ (M.queue 7).recs = []) ∧
    ((Mring.queue 7).waiting = (1, 2) :: [] ∧
      ((Mring.queue 7).written + 2 ^ 32 - (Mring.queue 7).head) % 2 ^ 32 < 2 ^ ((Mring.queue 7).log2n + 4)) ∧
    (∀ k ∈ [0, 1], ((Mlaunch k).queue 7).recs = launch0 k :: [] ∧ ((Mlaunch k).queue 7).en = true ∧ (Mlaunch k).queueUp 7 = true ∧
      ((Mlaunch k).queue 7).ringFree = true ∧ ((Mlaunch k).queue 7).waiting = [] ∧ (Mlaunch k).faultSink 7 = false ∧
      Spec.ctxSt (Mlaunch k) 0 = .running ∧ (launch0 k).length = 8 ∧
      ((Mlaunch k).queue 7).closed = false ∧
      (((Mlaunch k).modQueue 7 fun q => { q with closed := true }).queue 7).recs = launch0 k :: []) ∧
    (Mlaunch 1).unpackLaunch 0 false (launch0 1) = .inl 28 ∧
    ((match (Mlaunch 0).unpackLaunch 0 false (launch0 0) with
      | .inr ps => ps.length == 1
      | .inl _ => false) = true ∧ tblGet ((Mlaunch 0).ctx 0).kernels 0 = some kernel0) ∧
    (M.hostSpan (7 * 2 ^ 37) 8 = false ∧ M.funcUp = true ∧ M.hostSpan 64 64 = true ∧ M.hostSpan 64 rec8.length = true ∧ M.wf = true) :=
  ⟨by unfold Spec.HostReaches; decide +kernel, by decide +kernel⟩

/-- A process that management core 3 halts. -/
def phalt : Proc := { proc0 with halt := some 3, st := .suspended }
def boot0 : BootPlan :=
  { present := 0xFF, compute := 0xFF, presentIo := 3, io := 3, devId := 0, fwRev := 1, ackw := 64, win := 1024, cacheSlices := 0,
    hostTrained := 1, peers := [], lostLinks := [] }
def Mbooted : State := { M with map := bootRecord boot0 }

theorem witness_DebugAndBoot : (M.named 0 0 = some (1, proc0) ∧ M.proc 1 = some proc0 ∧ proc0.halt = none ∧ proc0.st = .running) ∧
    ((machine phalt).named 0 0 = some (1, phalt) ∧ phalt.halt = some 3 ∧ phalt.st = .suspended ∧
      ∀ r, phalt.debugName (.w 1) = some r → r ∉ phalt.pending) ∧
    bootIos boot0 ≠ [] ∧
    ((Mbooted.io (8 + Mbooted.hostPort)).present = true ∧ (Mbooted.io (8 + Mbooted.hostPort)).lost = false ∧ recField Mbooted.map 0 0 32 ≠ 0) :=
  ⟨by decide +kernel, ⟨by decide +kernel, by decide, by decide, fun r _ => List.not_mem_nil⟩, by decide +kernel⟩

/-! ### The fabric -/

/-- A GET of 8 bytes from die 1 that process 1 waits for in die 0's outbound buffer. -/
def get0 : OutMsg := { put0 with kind := 2, payload := [], count := 8 }
def Mout (k : OpKind) (m : OutMsg) : State := (machine (pop k)).modDie 0 fun d => { d with out := [(0, m)] }

theorem loadOp_of {s : State} {m : OutMsg} {p : Proc} {o : Op}
    (h : tblGet (s.die 0).out 0 = some m ∧ tblSorted (s.die 0).out = true ∧ m.kind = 2 ∧ o.kind = .get ∧ s.proc m.pid = some p ∧
      tblGet p.ops m.tok = some o ∧ o.left = 1 ∧ o.fails = [] ∧ o.precise = false ∧ o.block = false ∧ p.delayed.length < 16 ∧
      m.qp = none ∧ (s.core p.core).live = true) : Spec.LoadOp s 0 0 m p o := by
  constructor <;> simp only [h, true_or, and_self]

theorem storeOp_of {s : State} {m : OutMsg} {p : Proc} {o : Op}
    (h : tblGet (s.die 0).out 0 = some m ∧ tblSorted (s.die 0).out = true ∧ s.proc m.pid = some p ∧ tblGet p.ops m.tok = some o ∧
      o.kind = .put ∧ o.left = 1 ∧ o.fails = [] ∧ o.precise = false ∧ (o.block = false ∧ o.dest = none) ∧ m.qp = none) :
    Spec.StoreOp s 0 0 m p o := by
  constructor <;> simp only [h, and_self]

/-- The machine in which die 0 holds a grant of slot 7 at die 1. -/
def Msend : State := (Mout .put put0).modDie 0 fun d => { d with grants := [(1, [7])] }
/-- A control message from die 1 to die 0, and a fragment with its message's first 256 bytes. -/
def ctl0 (kind : Nat) (body : List Nat) : Ctl := { kind := kind, sdev := 0, sdie := 1, ddev := 0, ddie := 0, body := body }
def frag0 : Frag :=
  { ddev := 0, ddie := 1, sdev := 0, sdie := 0, cls := 0, msgid := 0, epoch := 0, k := 2, m := 2, idx := 0, slot := 5, ctxtag := 0,
    kind := 0, lead := 0, fseq := 0, len := 300, addr := 0, rank := 0, opw := 0, data := List.replicate (fragSize 2 300) 0 }
def resp0 : Commit :=
  { slot := 5, frag := { frag0 with ddie := 0, sdie := 1, kind := 3, k := 1, m := 0, len := 8, data := natBytes 8 7 }, payload := natBytes 8 7 }
def far0 (t : Bool) : Frag := { frag0 with route := [(0, 1), (1, 2)], tagOk := t }
def near0 (t : Bool) : Frag := { frag0 with route := [(0, 1)], tagOk := t }
def slot0 (st : Nat) : DSlot := { st := st, sdev := 0, sdie := 0, first := some { frag0 with sdie := 1 } }
def Mslot (st : Nat) (f : Frag) : State := { M.modDie 1 fun d => { d with dslots := [(5, slot0 st)] } with wire := [f] }
/-- A fragment of a control message that has come to die 0, which has or has not acted on one before it. -/
def fctl0 : Frag :=
  { ddev := 0, ddie := 0, sdev := 0, sdie := 1, age := 255, cls := 0, msgid := 4, epoch := 0, k := 1, m := 2, idx := 0, slot := 0, ctxtag := 0,
    kind := 13, lead := 0, fseq := 0, len := 2, addr := 0, rank := 0, opw := 0, data := List.replicate 64 1, route := [(0, 0)],
    ctl := some (ctl0 13 [1]) }
def Mgot (b : Bool) : State := { M.modDie 0 fun d => { d with ctlGot := if b then [(0, 1, 4, 0)] else [] } with wire := [fctl0] }
/-- A flag from die 1 that waits in slot 5 of die 0. -/
def flag5 : FlagIv := { sdev := 0, sdie := 1, ctx := 0, rank := 0, fseq := 0, flag := some (0, some 5, 0, [1]) }
/-- The flag of a PUT.f to the issuing die, whose counts are reached. -/
def flag0 : FlagIv := { sdev := 0, sdie := 0, ctx := 0, rank := 0, fseq := 0, flag := some (0, none, 0, [0]) }
def putf0 : OutMsg := { own 0 with kind := 1 }

theorem witness_FabricMessages :
    Spec.Sendable Msend 0 0 put0 (Msend.effective 0 0 1 0) 7 [] ∧
    -- a GET that ends by no session, an empty mask, a key, a window, a final failure and its response
    ((∀ m ∈ [{ get0 with ddev := 1 }, { get0 with emptyTill := some 0, pmask := 2 ^ 15 }, { get0 with keyTill := some 0 },
        { get0 with st := .sent0 }], Spec.LoadOp (Mout .get m) 0 0 m (pop .get) (op0 .get)) ∧
      (Mout .get { get0 with ddev := 1 }).sameAddrHeld 0 0 { get0 with ddev := 1 } = false ∧ nsHas M.sessions 1 = false ∧
      M.effective 0 0 1 (2 ^ 15) = [] ∧ (M.die 0).cycle = 0 ∧
      (Mout .get { get0 with st := .sent0 }).unsent 0 { get0 with st := .sent0 } = false ∧
      (Mout .get { get0 with st := .sent0 }).sentMsg (ctl0 12 []) = some (0, { get0 with st := .sent0 }) ∧ M.dieLive 0 = true ∧
      resp0.frag.kind = get0.kind + 1 ∧ resp0.frag.ref = 0 ∧ resp0.frag.parts = 1 ∧ resp0.frag.cause = 0 ∧
      unitOf resp0.frag [resp0] = [resp0]) ∧
    -- a PUT that is acknowledged; a negative acknowledgement of fragment 0
    (Spec.StoreOp (Mout .put { put0 with st := .sent0 }) 0 0 { put0 with st := .sent0 } (pop .put) (op0 .put) ∧
      (∀ o ∈ [OutState.sent0, .sent1], (Mout .put { put0 with st := o }).sentMsg (ctl0 11 [1]) = some (0, { put0 with st := o })) ∧
      put0.qp = none ∧ M.effective 0 0 1 put0.pmask ≠ []) ∧
    -- a fragment on its way, and at its destination
    ((∀ t ∈ [true, false], { M with wire := [far0 t] }.wire[0]? = some (far0 t)) ∧ M.containAt 1 (far0 false) = true ∧ M.linkUp 1 = true ∧
      M.overAt 1 (far0 true) = false ∧ ({ M with wire := [far0 true] }).behindOther 0 1 1 (far0 true) = false ∧
      (far0 true).waited + 256 ≤ (M.modDie 1 fun d => { d with cycle := 256 }).cycleAt 1 ∧ M.dieLive 1 = true ∧
      (near0 true).agrees = true ∧ tblGet ((Mslot 1 (near0 true)).die 1).dslots 5 = some (slot0 1) ∧
      { near0 true with kind := 3, k := 1, m := 0, len := 8, data := List.replicate (fragSize 1 8) 0 }.agrees = true) ∧
    (∀ b ∈ [true, false], (fctl0.agreesCtl = true ∧ fctl0.ctl = some (ctl0 13 [1]) ∧ (Mgot b).wire[0]? = some fctl0 ∧
      ((Mgot b).die 0).ctlGot.contains fctl0.ident = b)) ∧
    (Spec.MayTell M 0 1 ∧ Spec.MayTell (Mslot 2 (near0 true)) 1 0) ∧
    (∀ st ∈ [2, 3], tblGet ((Mslot st (near0 true)).die 1).dslots 5 = some (slot0 st) ∧ (slot0 st).window ≤ ((Mslot st (near0 true)).die 1).cycle) ∧
    -- slots and cancels
    ((tblGetD (M.die 0).dslots 0 {}).st = 0 ∧ (tblGetD (M.die 0).grants (destKey 0 1) []).length + 1 ≤ 64 ∧
      (tblGet ((M.modDie 0 fun d => { d with dslots := [(5, { st := 1, sdie := 1 })] }).die 0).dslots 5).isSome = true ∧ M.flags = [] ∧
      (M.flagSrc 0 0 0).past 0 = false ∧ { M with flags := [flag5] }.flags.find? (fun f => f.of 0 0 0 0) = some flag5 ∧ (ctl0 16 [0, 0, 0, 0]).body = [0, 0, 0, 0] ∧ tblGet ((M.modDie 0 fun d => { d with asked := [(1, 0)] }).die 0).asked (destKey 0 1) = some 0) ∧
    -- a flag
    (Spec.StoreOp (Mown .put putf0) 0 0 putf0 (pop .put) (op0 .put) ∧ putf0.kind = 1 ∧ flag0.flag = some (0, none, 0, [0]) ∧
      ((Mown .put putf0).flagSrc 0 0 0).next = 0 ∧ (Mown .put putf0).resolve 0 0 false { wr := true } 65536 8 = .ok [piece0 false] ∧
      (piece0 false).pa % 8 = 0 ∧ 8 ≤ putf0.payload.length ∧ (Mown .put putf0).waiters = [] ∧ (Mown .put putf0).wf = true) :=
  ⟨⟨by decide +kernel, by decide +kernel, by decide +kernel, by decide +kernel, by decide +kernel, by decide +kernel, by decide +kernel⟩,
    ⟨fun m hm => by fin_cases hm <;> exact loadOp_of (by decide +kernel), by decide +kernel⟩,
    ⟨storeOp_of (by decide +kernel), by decide +kernel⟩, by decide +kernel, by decide +kernel, by unfold Spec.MayTell; decide +kernel, by decide +kernel, by decide +kernel,
    ⟨storeOp_of (by decide +kernel), by decide +kernel⟩⟩

/-- A queue pair of I/O die 8; link 0 in a state; tokens, map versions and a spare core. -/
def Mqp (q : QPair) : State := M.modIo 8 fun d => { d with qps := [(3, q)] }
def Mlink (k : Link) : State := { Mbooted with links := tblSet M.links 0 k }
def Mtok (t : Token) : State := M.modCtx 0 fun c => { c with token := t }
def M8 : State :=
  { Mbooted with ios := [(8, { present := true }), (9, { present := true })],
                 map := editRec Mbooted.map { word := ioBlock 8, at_ := 61, n := 1, value := 1 } }

theorem witness_FabricState :
    ((tblGetD (M.io 8).qps 3 {}).st = 0 ∧ ((0x4000000000000000 : Word).extractLsb' 62 2).toNat = 1 ∧
      ((M.io 8).qps.filter fun r => r.2.resident).length < 16384) ∧
    (tblGet ((Mqp { st := 1, host := true }).io 8).qps 3 = some { st := 1, host := true } ∧
      (((Mqp { st := 1, host := true }).io 8).qps.filter fun r => r.2.resident).length < 16384) ∧
    (tblSorted M.epochs = true ∧ tblSorted M.sessions = true) ∧
    (((Mlink { st := 1 }).link 0).st = 1 ∧ 1 ≤ ((Mlink { st := 1 }).linkRecord 0).1 ∧ 1 ≤ ((Mlink { st := 1 }).linkRecord 0).2 ∧
      ((Mlink { st := 2 }).link 0).st = 2 ∧ ((Mlink { st := 1 }).link 0).fails < 2 ∧ 2 ≤ ((Mlink { st := 1, fails := 2 }).link 0).fails) ∧
    (((Mtok {}).ctx 0).token.moving = false ∧ ((Mtok {}).ctx 0).token.away = false ∧ ((Mtok {}).ctx 0).st = .running ∧ (Mtok {}).liveDies = [0, 1] ∧
      tblSorted ((Mtok {}).ctx 0).dirty = true ∧ (Mtok { lost := true }).liveDies.head? = some 0 ∧
      ((Mtok { lost := true }).ctx 0).token.lost = true ∧ (Mtok { lost := true }).firstDevice 0 = true ∧
      0 + 2 ^ 20 ≤ (((Mtok { lost := true }).modDie 0 fun d => { d with cycle := 2 ^ 20 }).die 0).cycle) ∧
    (M.dieLive 0 = true ∧ ((M.modDie 0 fun d => { d with newMaps := [[(0, 2)]] }).die 0).newMaps = [(0, 2)] :: []) ∧
    (Mbooted.cluFails 0 0 0 = false ∧ Mbooted.slotPos 0 0 0 = some 0 ∧ (Mbooted.die 0).phys < 8 ∧ Mbooted.noPacket 0 = true ∧
      Mbooted.cluSpos 0 0 = 31 ∧ Mbooted.cluFails 0 0 16 = false) ∧
    (M.cluSpos 0 0 ≠ 31 ∧ M.cluFails 0 0 0 = false ∧ M.slotPos 0 0 0 = some 0) ∧
    (∃ p, M.proc 1 = some p ∧ p.core / 256 = 0 ∧ (M.core p.core).live = true ∧ p.st ≠ .stopped) ∧
    (∀ io ∈ [8, 9], (M8.io io).present = true ∧ (M8.io io).lost = false) ∧
    (M8.hostPort = 0 ∧ recField M8.map (ioBlock 8) 61 1 = 1 ∧ recField M8.map 0 0 32 ≠ 0) :=
  ⟨by decide +kernel, by decide +kernel, by decide +kernel, by decide +kernel, by decide +kernel, by decide +kernel, by decide +kernel,
    by decide +kernel, ⟨proc0, by decide +kernel⟩, by decide +kernel⟩

/-! ### Every instruction and every step -/

theorem witness_RegisterFrame : M.proc M.cur = some proc0 := by decide +kernel

/-- NOP stands at process 1's address; at a misaligned address; and no instruction. -/
def Mcode (p : Proc) (w : Nat) : State :=
  { (machine p).modDie 0 fun d => { d with tlb := [fetchPage] } with mem := memWrite [] (hbmPA 0 65536) (natBytes 8 w) }
def podd : Proc := { proc0 with pc := 65537 }
abbrev nopWord : Nat := bytesNat (encode (.nop plain))

theorem witness_StepRunsInstruction :
    (∀ s ∈ [Mcode proc0 nopWord, Mcode proc0 0x3FC, Mcode podd nopWord], s.agenda = [] ∧ (s.core s.focus).live = true ∧
      (s.boundary 0).candidates 0 = (0, 1) :: []) ∧
    (∀ w ∈ [nopWord, 0x3FC], let u := (Mcode proc0 w).boundary 0
      u.proc 1 = some proc0 ∧ u.before 1 proc0 = none ∧ u.shareOut proc0 = false ∧ proc0.pc.toNat % 4 = 0 ∧
      (match u.fetchAt proc0 with
        | .ok [q] => (u.badPiece [q]).isNone && decide (decode (u.read q.pa q.len) = if w = nopWord then .instr (.nop plain) else .reject .major)
        | _ => false) = true ∧ u.mayPass proc0 (.nop plain) = true) ∧
    (((Mcode podd nopWord).boundary 0).proc 1 = some podd ∧ podd.pc.toNat % 4 ≠ 0) ∧
    { State.reset with agenda := [.event .create] }.agenda = .event .create :: [] := by decide +kernel

-- the reset state has the form, and it is the first of those that keep it
theorem witness_MemoryKeepsForm : State.reset.wf = true ∧ step State.reset = .next State.reset := ⟨by decide, rfl⟩

-- the other direction of the encoding: bytes that decode, with bytes behind them
theorem witness_DecodeEncode : decode (encode (.nop plain) ++ [1, 2, 3, 4]) = .instr (.nop plain) ∧
    (Instr.nop plain).wellFormed = true ∧ (opcodeOf (.nop plain)).isSome = true := by decide +kernel

end Sys2Proof.Tests
end

section
/-! The family of the machine's organization: the state that module reset leaves (O58), and why the events of the machine's
parts do not all leave memory as it is (O53). -/

namespace Sys2Proof.Proofs.Organization

open Sys2Proof Sys2Proof.Machine

/-! ### The parts of the machine after module reset -/

theorem reset_core (n : Nat) : State.reset.core n = { slot := n % 16 } := rfl
theorem reset_die (n : Nat) : State.reset.die n = {} := rfl
theorem reset_ctx (n : Nat) : State.reset.ctx n = {} := rfl
theorem reset_queue (n : Nat) : State.reset.queue n = {} := rfl
theorem reset_link (n : Nat) : State.reset.link n = {} := rfl

/-- No die is numbered, hence none is live (R25). -/
theorem reset_dieLive (n : Nat) : State.reset.dieLive n = false := by
  simp [State.dieLive, reset_die]

/-- LK.RATE0 to LK.RATE2 of a die that nothing has written (R382): k, m and containment. -/
theorem fresh_rates : [0, 1, 2].map (fun c => (({} : Die).rateK c, ({} : Die).rateM c, (({} : Die).rateWord c).getLsbD 16))
    = [(4, 2, true), (12, 4, true), (6, 2, true)] := by decide

/-- The core in focus is not live and the agenda is empty, so nothing moves (R388). -/
theorem step_reset : step State.reset = .next State.reset := rfl

/-- Settles O58: every table is empty, so each accessor answers the value that an unlisted key stands for. -/
theorem resetState : Obligations.ResetState := by
  refine ⟨rfl, fun _ => rfl, fun _ => rfl, fun _ => ⟨rfl, rfl⟩, fun n => ?core, fun n => ?die, fun n => ?tables,
    rfl, rfl, rfl, rfl, rfl, step_reset⟩
  case core => simp only [reset_core, and_self]
  case die =>
    rw [reset_dieLive, reset_die, fresh_rates]
    simp only [and_self]
  case tables => simp only [reset_ctx, reset_queue, reset_link, and_self]

/-! ### A queue pair that fails away from the engine -/

/-- The report of a peer fails a READY queue pair (R362). -/
theorem exec_qpPeerError_ready {s : State} {io n : Nat} {q : QPair} (hq : tblGet (s.io io).qps n = some q) (hst : q.st = 1) :
    exec (.qpPeerError io n) s = .next (s.failQp io n) := by
  show execQpPeerError io n s = _
  simp only [execQpPeerError, hq, hst, if_true]

/-- A READY queue pair that is not resident; its backing slot is the 64 bytes at 4,096 of die 0's HBM (R361). -/
def evictedPair : QPair := { st := 1, back := 4096 }

/-- A machine of compute die 0 and I/O die 8, which has that queue pair as its number 0. -/
def evictedMachine : State :=
  { State.reset with dies := [(0, { present := true })], ios := [(8, { present := true, qps := [(0, evictedPair)] })] }

/-- STATE's byte of the backing slot, before the queue pair fails and after: it is zero, then it says ERROR. -/
theorem evictedMachine_stateByte : evictedMachine.read (evictedPair.slot + 7) 1 = [0] := by decide

theorem failQp_evictedMachine_stateByte : (evictedMachine.failQp 8 0).read (evictedPair.slot + 7) 1 = [0x80] := by
  decide +kernel

/-- Refutes O53, in its clause about a queue pair's peer: a READY queue pair that is not resident becomes ERROR in its backing
slot, and a slot in device memory (HOST = 0) is memory, so the event does not leave memory as it was. -/
theorem not_fabricState : ¬ Obligations.FabricState := by
  rintro ⟨-, queuePairs, -⟩
  have hq : tblGet (evictedMachine.io 8).qps 0 = some evictedPair := rfl
  obtain ⟨t, -, hexec, -, -, hread, -⟩ := (queuePairs evictedMachine 8 0 evictedPair hq).2 rfl
  rw [exec_qpPeerError_ready hq rfl, Host.Outcome.next.injEq] at hexec
  have hsame := hread (evictedPair.slot + 7) 1
  rw [← hexec, failQp_evictedMachine_stateByte, evictedMachine_stateByte] at hsame
  exact absurd hsame (by decide)

end Sys2Proof.Proofs.Organization
end

section
/-! The family of arithmetic, first part: the widths and extensions of R95, the conditions of R42, the scalar floating
instructions (O4), and the writes of control registers (O14). -/

namespace Sys2Proof.Proofs.Arithmetic

open Sys2Proof Sys2Proof.Machine

/-! ### Widths and extensions (R11, R95) -/

theorem tyWidth_mem (t : Nat) : tyWidth t ∈ [8, 16, 32, 64] := by
  unfold tyWidth; split <;> decide

theorem width_pos (x : Args) : 0 < Spec.width x := by
  have := tyWidth_mem (tyN x)
  simp only [List.mem_cons, List.not_mem_nil, or_false] at this
  show 0 < tyWidth (tyN x); omega

theorem width_le (x : Args) : Spec.width x ≤ 64 := by
  have := tyWidth_mem (tyN x)
  simp only [List.mem_cons, List.not_mem_nil, or_false] at this
  show tyWidth (tyN x) ≤ 64; omega

/-- Zero extension takes the low bits. -/
theorem zextN_eq (v n : Nat) : zextN v n = (BitVec.ofNat n v).setWidth 64 := by
  simp [zextN, ← BitVec.toNat_inj]

/-- Sign extension takes the low bits as a two's-complement number. -/
theorem sextN_eq (v : Nat) {n : Nat} (hn : 0 < n) (hle : n ≤ 64) : sextN v n = (BitVec.ofNat n v).signExtend 64 := by
  have hlt : v % 2 ^ n < 2 ^ n := Nat.mod_lt _ (by positivity)
  have h2 : (2 : Nat) ^ n ≤ 2 ^ 64 := Nat.pow_le_pow_right (by omega) hle
  have hp : (2 : Nat) ^ n = 2 * 2 ^ (n - 1) := by rw [← pow_succ']; congr 1; omega
  apply BitVec.eq_of_toNat_eq
  simp only [sextN, if_neg (show n ≠ 0 by omega), BitVec.toNat_signExtend, BitVec.msb_eq_decide, BitVec.toNat_ofNat,
    BitVec.toNat_setWidth, decide_eq_true_eq]
  split <;> rename_i h
  · rw [if_neg (by omega), BitVec.toNat_ofNat]; omega
  · rw [if_pos (by omega), BitVec.toNat_ofNat]; omega

/-- The extension of R95 of the low bits of a number. -/
theorem extTy_eq (x : Args) (v : Nat) : extTy (tyN x) v = Spec.widen x (BitVec.ofNat _ v) := by
  unfold extTy Spec.widen
  split
  · exact sextN_eq v (width_pos x) (width_le x)
  · exact zextN_eq v _

/-- The write-back of R95. -/
theorem intWord_eq (x : Args) (v : Int) : intWord (tyN x) v = Spec.widen x (BitVec.ofInt _ v) := by
  rw [intWord, extTy_eq]
  congr 1
  apply BitVec.eq_of_toNat_eq
  rw [BitVec.toNat_ofNat, BitVec.toNat_ofInt]
  have : (2 ^ tyWidth (tyN x) : Int) = ((2 ^ tyWidth (tyN x) : Nat) : Int) := by push_cast; rfl
  rw [this]
  have hpos : (0 : Int) < ((2 ^ tyWidth (tyN x) : Nat) : Int) := by positivity
  have h1 := Int.emod_nonneg v hpos.ne'
  have h2 := Int.emod_lt_of_pos v hpos
  show (v % _).toNat % 2 ^ tyWidth (tyN x) = _
  exact Nat.mod_eq_of_lt (by omega)

/-! ### Conditions and traps (R42) -/

/-- Where CR.FPC enables no trap, no condition traps. -/
theorem trapCause_off {fpc : Word} (h : fpc.extractLsb' 8 4 = 0) (c : Cond) : trapCause fpc c = none := by
  have hbit : ∀ i < 4, fpc.getLsbD (8 + i) = false := fun i hi => by
    have := congrArg (fun b => b.getLsbD i) h
    simpa [BitVec.getLsbD_extractLsb', hi] using this
  have h0 := hbit 0 (by omega); have h1 := hbit 1 (by omega); have h2 := hbit 2 (by omega); have h3 := hbit 3 (by omega)
  simp only [Nat.reduceAdd] at h0 h1 h2 h3
  simp only [trapCause, h0, h1, h2, h3, Bool.and_false, Bool.false_eq_true, if_false]

theorem noTrap_trapCause {p : Proc} {c : Cond} (h : Spec.NoTrap p c) : trapCause p.fpc c = none :=
  h.elim (fun h => trapCause_off h c) id

@[simp] theorem trapCause_none (fpc : Word) : trapCause fpc {} = none := by simp [trapCause]

theorem raiseFlags_eq (q : Proc) (c : Cond) : q.raiseFlags c = Spec.flagged q c := rfl

@[simp] theorem flagged_none (q : Proc) : Spec.flagged q {} = q := by
  simp [Spec.flagged, Cond.bits]

theorem trapCause_ne_six {fpc : Word} {c : Cond} {k : Nat} (h : trapCause fpc c = some k) : k ≠ 6 := by
  unfold trapCause at h
  (repeat' split at h) <;> simp_all <;> omega

/-- A floating instruction that no enabled condition stops writes its result under the flags. -/
theorem settle_finishFp {e : Entry} {x : Args} {s : State} {p : Proc} (h : s.proc s.cur = some p) {c : Cond}
    (ht : Spec.NoTrap p c) (w : Proc → Proc) :
    settle s s.cur p x ((envOf e x s s.cur p).finishFp c w) = s.after e x p fun q => w (Spec.flagged q c) :=
  finishFp_ok h (noTrap_trapCause ht) w

/-! ### Scalar floating instructions (R104 to R110) -/

/-- Each row performs what its entry of the table says, under R42. -/
theorem exec_floatRows : ∀ r ∈ Spec.floatRows, ∀ (x : Args) (s : State),
    exec (r.1 x) s = perform r.2.1 x s fun e => e.finishFp (r.2.2 e).1 (r.2.2 e).2 := by
  simp only [Spec.floatRows, List.forall_mem_cons, List.not_mem_nil, false_imp_iff, implies_true, and_true]
  refine ⟨?_, ?_, ?_, ?_, ?_, ?_, ?_, ?_, ?_, ?_, ?_, ?_, fun x s => ?fcvi⟩
  case fcvi =>
    show execFcvi x s = _
    simp only [execFcvi, ← intWord_eq]
  all_goals exact fun _ _ => rfl

/-- The lowest enabled condition that arose (R42), as a condition on the flags. -/
theorem trapCause_some {fpc : Word} {c : Cond} {k : Nat}
    (hk : k = if c.nv && fpc.getLsbD 8 then 9 else if c.dz && fpc.getLsbD 9 then 10 else if c.of && fpc.getLsbD 10 then 11 else 12)
    (hc : (c.nv && fpc.getLsbD 8 || c.dz && fpc.getLsbD 9 || c.of && fpc.getLsbD 10 || c.uf && fpc.getLsbD 11) = true) :
    trapCause fpc c = some k := by
  subst hk
  unfold trapCause
  generalize (c.nv && _) = a at *
  generalize (c.dz && _) = b at *
  generalize (c.of && _) = d at *
  generalize (c.uf && _) = e at *
  revert a b d e
  decide

theorem fmtTy_width_mem (t : Nat) : (fmtTy t).width ∈ [8, 16, 32, 64] := by
  unfold fmtTy; split <;> decide

/-- The mask of a format's bits is 2^w − 1, in a register of 64 bits. -/
theorem fltMask_toNat (x : Args) : (Spec.fltMask x).toNat = 2 ^ (fmtTy (tyN x)).width - 1 := by
  have h := fmtTy_width_mem (tyN x)
  unfold Spec.fltMask
  generalize (fmtTy (tyN x)).width = w at h
  revert w
  decide

theorem signMask_toNat (x : Args) : (Spec.signMask x).toNat = 2 ^ ((fmtTy (tyN x)).width - 1) := by
  have h := fmtTy_width_mem (tyN x)
  unfold Spec.signMask
  generalize (fmtTy (tyN x)).width = w at h
  revert w
  decide

/-- A pattern of the format in the low bits of a word, without the bits above. -/
theorem toNat_and_fltMask (x : Args) (v : Word) :
    (v &&& Spec.fltMask x).toNat = v.toNat % 2 ^ (fmtTy (tyN x)).width := by
  rw [BitVec.toNat_and, fltMask_toNat, Nat.and_two_pow_sub_one_eq_mod]

/-- A word is the low bits of its low bits under the mask. -/
theorem ofNat_fltBits (x : Args) (v : Word) :
    BitVec.ofNat 64 (v.toNat % 2 ^ (fmtTy (tyN x)).width) = v &&& Spec.fltMask x := by
  rw [← toNat_and_fltMask, BitVec.ofNat_toNat, BitVec.setWidth_eq]

/-- FABS clears the sign bit (R43). -/
theorem clearSign_eq (x : Args) (v : Word) :
    BitVec.ofNat 64 (v.toNat % 2 ^ (fmtTy (tyN x)).width % 2 ^ ((fmtTy (tyN x)).width - 1)) =
      v &&& Spec.fltMask x &&& ~~~Spec.signMask x := by
  have hmem := fmtTy_width_mem (tyN x)
  have hf := fltMask_toNat x
  have hs := signMask_toNat x
  generalize (fmtTy (tyN x)).width = w at *
  have hw : 0 < w ∧ w ≤ 64 := by
    simp only [List.mem_cons, List.not_mem_nil, or_false] at hmem; omega
  rw [Nat.mod_mod_of_dvd _ (Nat.pow_dvd_pow 2 (by omega))]
  apply BitVec.eq_of_getLsbD_eq
  intro i hi
  rw [BitVec.getLsbD_and, BitVec.getLsbD_and, BitVec.getLsbD_not]
  simp only [BitVec.getLsbD, hf, hs, BitVec.toNat_ofNat, Nat.testBit_mod_two_pow, Nat.testBit_two_pow_sub_one,
    Nat.testBit_two_pow, hi, decide_true, Bool.true_and]
  by_cases h1 : i < w - 1
  · simp [h1, show i < w by omega, show ¬ w - 1 = i by omega]
  · by_cases h2 : w - 1 = i <;> simp [h1, h2]; omega

/-- FNEG flips it (R43). -/
theorem flipSign_eq (x : Args) (v : Word) :
    BitVec.ofNat 64 (v.toNat % 2 ^ (fmtTy (tyN x)).width ^^^ 2 ^ ((fmtTy (tyN x)).width - 1)) =
      (v &&& Spec.fltMask x) ^^^ Spec.signMask x := by
  rw [← toNat_and_fltMask, ← signMask_toNat, ← BitVec.toNat_xor, BitVec.ofNat_toNat, BitVec.setWidth_eq]

/-- FCLS gives the bit of the operand's class (R110). -/
theorem classify_eq (f : Fmt) (b : Nat) : BitVec.ofNat 64 (f.classify b) = 1 <<< Spec.classBit f (f.decode b) := by
  unfold Fmt.classify
  cases f.decode b with
  | nan n s fr fw => cases s <;> rfl
  | inf n => cases n <;> rfl
  | fin n m e =>
    simp only [Spec.classBit]
    cases n <;> (repeat' split) <;> rfl

theorem settle_ret_ready {e : Entry} {x : Args} {s : State} {p : Proc} (h : Ready e x s p) {body : Env → Act} {v : Word}
    (hb : body (envOf e x s s.cur p) = (envOf e x s s.cur p).ret v) :
    perform e x s body = .next (s.after e x p fun q => q.wrOp x.d.toNat v) := by
  rw [perform_ready h, hb, settle_ret h.proc]

/-- Settles O4: every row performs under R42, and the sign and class of a pattern are bits of it. -/
theorem floatingInstructions : Obligations.FloatingInstructions := by
  refine ⟨fun r hr x s p h hc => ?ok, fun r hr x s p k h hk hc => ?trap, fun x s p => ⟨fun h => ?fabs, fun h => ?fneg, fun h => ?fcls⟩⟩
  case ok => rw [exec_floatRows r hr, perform_ready h, settle_finishFp h.proc hc]
  case trap =>
    have ht := trapCause_some hk hc
    rw [exec_floatRows r hr, perform_ready h, finishFp_trap h.proc ht (trapCause_ne_six ht), raiseFlags_eq]
  case fabs => exact settle_ret_ready h (congrArg (Env.ret _) (clearSign_eq x (p.scalar x.a.toNat)))
  case fneg => exact settle_ret_ready h (congrArg (Env.ret _) (flipSign_eq x (p.scalar x.a.toNat)))
  case fcls =>
    refine settle_ret_ready h (congrArg (Env.ret _) ?_)
    rw [classify_eq, toNat_and_fltMask]
    rfl

/-! ### CRW (R38, R88, R93, R122, R221, R381) -/

/-- CRW of a register of the process that no other row writes. -/
theorem exec_crw {x : Args} {s : State} {p : Proc} (h : Ready eCrw x s p) :
    exec (.crw x) s = .next (s.after eCrw x p fun q => q.crWrite (crNum x) (p.scalar x.a.toNat)) := by
  show perform eCrw x s _ = _
  rw [perform_ready h, settle_upd h.proc]
  rfl

/-- The fields of a process's control registers under their access codes. -/
theorem crWrite_of_ownWrite {q r : Proc} {v : Word} {n : Nat} (h : (n, r) ∈ Spec.ownWrite q v) : q.crWrite n v = r := by
  simp only [Spec.ownWrite, List.cons_append, List.nil_append, List.mem_cons, Prod.mk.injEq, List.mem_map, List.mem_range] at h
  rcases h with ⟨rfl, rfl⟩ | ⟨rfl, rfl⟩ | ⟨rfl, rfl⟩ | ⟨rfl, rfl⟩ | ⟨rfl, rfl⟩ | ⟨rfl, rfl⟩ | ⟨rfl, rfl⟩ | ⟨rfl, rfl⟩ | ⟨i, hi, rfl, rfl⟩
  case inr.inr.inr.inr.inr.inr.inr.inr => interval_cases i <;> rfl
  all_goals rfl

theorem sameMemory_of_eq {s t : State} (hm : t.mem = s.mem) (he : t.empty = s.empty) (hc : t.ecc = s.ecc) : SameMemory s t :=
  ⟨fun _ _ => by rw [State.read, hm, State.read], fun _ => by rw [State.wordFull, he, State.wordFull], fun _ => by rw [hc]⟩

/-- An instruction of the process leaves every other process. -/
theorem after_otherProcs (s : State) (e : Entry) (x : Args) (p : Proc) (f : Proc → Proc) :
    OtherProcs s (s.after e x p f) [s.cur] := fun n hn => by
  rw [State.after, withCur_proc, if_neg (by simpa using hn)]

/-- An effect on a core alone, beside the marks. -/
theorem settle_modCore {e : Entry} {x : Args} {s : State} {p : Proc} (h : s.proc s.cur = some p) (n : Nat) (f : Core → Core) :
    settle s s.cur p x (.next ((envOf e x s s.cur p).s.modCore n f)) = (s.after e x p fun q => q).modCore n f := by
  have := congrArg (fun t => State.modCore t n f) (settle_upd (x := x) (e := e) h fun q => q)
  rw [← this, envOf_s h]
  simp only [settle, upd_eq h]
  rfl

/-- An effect on a die alone, beside the marks. -/
theorem settle_modDie {e : Entry} {x : Args} {s : State} {p : Proc} (h : s.proc s.cur = some p) (n : Nat) (f : Die → Die) :
    settle s s.cur p x (.next ((envOf e x s s.cur p).s.modDie n f)) = (s.after e x p fun q => q).modDie n f := by
  have := congrArg (fun t => State.modDie t n f) (settle_upd (x := x) (e := e) h fun q => q)
  rw [← this, envOf_s h]
  simp only [settle, upd_eq h]
  rfl

@[simp] theorem core_modCore_self (s : State) (n : Nat) (f : Core → Core) : (s.modCore n f).core n = f (s.core n) :=
  tblGetD_set_self _ _ _ _

@[simp] theorem die_modDie_self (s : State) (n : Nat) (f : Die → Die) : (s.modDie n f).die n = f (s.die n) :=
  tblGetD_set_self _ _ _ _

/-- CRW of CR.FPC, with no TMMA outstanding (R302). -/
theorem exec_crFpcWrite {x : Args} {s : State} {p : Proc} (h : Ready eCrw x s p) (hb : s.tmmaBusy s.cur p.core = false) :
    exec (.crFpcWrite x) s = .next (s.after eCrw x p fun q => q.crWrite 6 (p.scalar x.a.toNat)) := by
  show perform eCrw x s _ = _
  rw [perform_ready h]
  simp only [envOf_s0, envOf_pid, envOf_p, hb, Bool.false_eq_true, if_false]
  rw [settle_upd h.proc]
  rfl

theorem exec_crQuantWrite {x : Args} {s : State} {p : Proc} (h : Ready eCrw x s p) :
    exec (.crQuantWrite x) s = .next ((s.after eCrw x p fun q => q).modCore p.core fun c =>
      { c with quant := quantWrite (p.scalar x.a.toNat) }) := by
  show perform eCrw x s _ = _
  rw [perform_ready h]
  exact congrArg _ (settle_modCore h.proc _ _)

theorem exec_crDecwinWrite {x : Args} {s : State} {p : Proc} (h : Ready eCrw x s p) :
    exec (.crDecwinWrite x) s = .next ((s.after eCrw x p fun q => q).modDie (coreDie p.core) fun d =>
      { d with ackw := decwinAckw (p.scalar x.a.toNat), win := decwinWin (p.scalar x.a.toNat) }) := by
  show perform eCrw x s _ = _
  rw [perform_ready h]
  exact congrArg _ (settle_modDie h.proc _ _)

/-- The marks leave the flags of CR.FPC. -/
theorem fpc_taken (e : Entry) (x : Args) (p : Proc) : (taken e x p).fpc = p.fpc := by rw [taken_shape]

/-- Settles O14: a process's own registers are written in the process, CR.QUANT in its core and CR.DECWIN in its die. -/
theorem controlRegisterWrites : Obligations.ControlRegisterWrites := by
  intro x s p h v
  refine ⟨fun n q hq hn => ?own, fun hn => ?mrev, fun hb hn => ?fpc, ⟨_, exec_crQuantWrite h, ?quant, ?memQ, ?procsQ⟩,
    ⟨_, exec_crDecwinWrite h, ?ackw, ?win, ?memD, ?procsD⟩⟩
  case own =>
    rw [exec_crw h, State.after, State.after, hn, crWrite_of_ownWrite hq]
  case mrev => rw [exec_crw h, hn]; rfl
  case fpc =>
    rw [exec_crFpcWrite h hb, State.after, State.after, ← fpc_taken eCrw x p]
    rfl
  case quant => rw [core_modCore_self]; simp [quantWrite, v]
  case ackw => rw [die_modDie_self]; simp [decwinAckw, v, Nat.shiftRight_eq_div_pow]
  case win => rw [die_modDie_self]; simp [decwinWin, v]
  case memQ | memD => exact sameMemory_of_eq rfl rfl rfl
  case procsQ | procsD => exact fun n hn => after_otherProcs s eCrw x p (fun q => q) n hn

end Sys2Proof.Proofs.Arithmetic
end

section
/-! The family of arithmetic, second part: rounding keeps what a format represents (O5). -/

namespace Sys2Proof.Proofs.Arithmetic

open Sys2Proof Sys2Proof.Machine

/-- What the formats of R30 have in common: a fraction bit, and a greatest exponent that is the all-ones exponent field, or
the one below it where that field stands for infinities. -/
structure Regular (f : Fmt) : Prop where
  fw : 1 ≤ f.fw
  ew : 2 ≤ f.ew
  emax : f.emax = 2 ^ f.ew - (if f.inf then 2 else 1) - f.bias

theorem fmtOf_regular : ∀ c ≤ 8, Regular (fmtOf c) := by
  intro c hc
  interval_cases c <;> exact ⟨by decide, by decide, by decide⟩

/-- A pattern is its sign bit, its exponent field and its fraction. -/
theorem bits_split (f : Fmt) {b : Nat} (hb : b < 2 ^ f.width) :
    b = f.signBit (b.testBit (f.ew + f.fw)) + b / 2 ^ f.fw % 2 ^ f.ew * 2 ^ f.fw + b % 2 ^ f.fw := by
  have hsign : f.signBit (b.testBit (f.ew + f.fw)) = b / 2 ^ (f.fw + f.ew) * 2 ^ (f.fw + f.ew) := by
    have hlt : b / 2 ^ (f.fw + f.ew) < 2 := by
      rw [Nat.div_lt_iff_lt_mul (by positivity), ← pow_succ']
      exact lt_of_lt_of_eq hb (by rw [Fmt.width]; congr 1; omega)
    rw [Nat.add_comm f.ew, Nat.testBit_eq_decide_div_mod_eq, Fmt.signBit, Nat.add_comm f.ew]
    interval_cases h : b / 2 ^ (f.fw + f.ew) <;> simp
  rw [hsign, pow_add, ← Nat.div_div_eq_div_mul]
  have h1 := Nat.div_add_mod b (2 ^ f.fw)
  have h2 := Nat.div_add_mod (b / 2 ^ f.fw) (2 ^ f.ew)
  have : b / 2 ^ f.fw / 2 ^ f.ew * (2 ^ f.fw * 2 ^ f.ew) + b / 2 ^ f.fw % 2 ^ f.ew * 2 ^ f.fw =
      2 ^ f.fw * (2 ^ f.ew * (b / 2 ^ f.fw / 2 ^ f.ew) + b / 2 ^ f.fw % 2 ^ f.ew) := by ring
  rw [this, h2]
  omega

/-- The finite values of a format: the fraction alone under the zero exponent field, else the fraction with its leading one. -/
inductive Finite (f : Fmt) (b : Nat) : Nat → Int → Prop where
  | subnormal (h : b / 2 ^ f.fw % 2 ^ f.ew = 0) : Finite f b (b % 2 ^ f.fw) (f.emin - f.fw)
  | normal (h0 : b / 2 ^ f.fw % 2 ^ f.ew ≠ 0) (hinf : f.inf = true → b / 2 ^ f.fw % 2 ^ f.ew ≠ 2 ^ f.ew - 1)
      (hnan : f.nan = true → f.inf = false → b / 2 ^ f.fw % 2 ^ f.ew = 2 ^ f.ew - 1 → b % 2 ^ f.fw ≠ 2 ^ f.fw - 1) :
      Finite f b (2 ^ f.fw + b % 2 ^ f.fw) ((b / 2 ^ f.fw % 2 ^ f.ew : Nat) - f.bias - f.fw)

theorem decode_fin {f : Fmt} {b m : Nat} {neg : Bool} {e : Int} (h : f.decode b = .fin neg m e) :
    neg = b.testBit (f.ew + f.fw) ∧ Finite f b m e := by
  unfold Fmt.decode at h
  simp only at h
  split at h
  · cases h
  · rename_i hnan
    split at h
    · split at h <;> cases h
    · rename_i hinf
      split at h <;> rename_i h0
      · cases h; exact ⟨rfl, .subnormal h0⟩
      · cases h
        exact ⟨rfl, .normal h0 (fun hi ho => hinf ⟨ho, hi⟩) fun hn hi ho hf => hnan ⟨ho, hn, by simp [hi], hf⟩⟩

/-- Nothing is lost where the value is a multiple of the spacing already. -/
theorem quantize_self (mode : Nat) (neg : Bool) (m : Nat) (q : Int) : quantize mode neg m q q false = (m, false) := by
  simp [quantize]

/-- Rounding of a significand at its own spacing, within the format's range, packs it and raises nothing. -/
theorem round_of_spacing {f : Fmt} {mode m : Nat} {neg : Bool} {e : Int} (hm : m ≠ 0)
    (hq : max ((Nat.log2 m : Int) + e - f.fw) (f.emin - f.fw) = e) (he : e ≤ f.emax - f.fw)
    (hmax : m ≤ f.maxSig * 2 ^ (f.emax - f.fw - e).toNat) :
    f.round mode neg m e = { bits := f.pack neg m e } := by
  simp only [Fmt.round, if_neg hm, hq, quantize_self, if_pos he, Bool.false_and]
  rw [if_neg (by simpa using hmax)]

theorem two_pow_le_maxSig {f : Fmt} (hf : 1 ≤ f.fw) : 2 ^ f.fw ≤ f.maxSig := by
  have : 2 ^ (f.fw + 1) = 2 * 2 ^ f.fw := pow_succ' _ _
  have : 2 ≤ 2 ^ f.fw := Nat.le_self_pow (by omega) 2
  unfold Fmt.maxSig; split <;> omega

/-- Every significand of the format's length is in range, but at the greatest exponent. -/
theorem le_maxSig_mul {f : Fmt} {m k : Nat} (hf : 1 ≤ f.fw) (hm : m < 2 ^ (f.fw + 1)) (hk : k = 0 → m ≤ f.maxSig) :
    m ≤ f.maxSig * 2 ^ k := by
  cases k with
  | zero => simpa using hk rfl
  | succ k =>
    calc m ≤ 2 ^ f.fw * 2 := by rw [pow_succ] at hm; omega
      _ ≤ f.maxSig * 2 ^ (k + 1) := Nat.mul_le_mul (two_pow_le_maxSig hf) (Nat.le_self_pow (by omega) 2)

theorem Regular.emin_le_emax {f : Fmt} (h : Regular f) : f.emin ≤ f.emax := by
  have : (4 : Int) ≤ 2 ^ f.ew := by exact_mod_cast Nat.pow_le_pow_right (n := 2) (by omega) h.ew
  rw [h.emax, Fmt.emin]; split <;> omega

theorem pack_subnormal {f : Fmt} {neg : Bool} {m : Nat} {q : Int} (hm : m < 2 ^ f.fw) : f.pack neg m q = f.signBit neg + m := by
  have : 2 ^ (f.fw + 1) = 2 * 2 ^ f.fw := pow_succ' _ _
  simp only [Fmt.pack, if_neg (show m ≠ 2 ^ (f.fw + 1) by omega), if_pos hm]

theorem pack_normal {f : Fmt} {neg : Bool} {frac ex : Nat} (hm : frac < 2 ^ f.fw) :
    f.pack neg (2 ^ f.fw + frac) ((ex : Int) - f.bias - f.fw) = f.signBit neg + ex * 2 ^ f.fw + frac := by
  have : 2 ^ (f.fw + 1) = 2 * 2 ^ f.fw := pow_succ' _ _
  have hex : ((ex : Int) - f.bias - f.fw + f.fw + f.bias).toNat = ex := by omega
  simp only [Fmt.pack, if_neg (show 2 ^ f.fw + frac ≠ 2 ^ (f.fw + 1) by omega), if_neg (show ¬ 2 ^ f.fw + frac < 2 ^ f.fw by omega),
    hex, Nat.add_sub_cancel_left]

/-- A subnormal's spacing is the least one. -/
theorem round_subnormal {f : Fmt} (hr : Regular f) {mode m : Nat} {neg : Bool} (hm : m < 2 ^ f.fw) :
    f.round mode neg m (f.emin - f.fw) = { bits := f.signBit neg + m } := by
  by_cases h0 : m = 0
  · simp [Fmt.round, h0]
  · have hlog : Nat.log2 m < f.fw := (Nat.log2_lt h0).2 hm
    have hle := hr.emin_le_emax
    have hpow : 2 ^ f.fw ≤ 2 ^ (f.fw + 1) := Nat.pow_le_pow_right (by omega) (by omega)
    rw [round_of_spacing h0 (by omega) (by omega)
      (le_maxSig_mul hr.fw (hm.trans_le hpow) fun _ => hm.le.trans (two_pow_le_maxSig hr.fw)), pack_subnormal hm]

/-- A normal's spacing is the one that its leading bit gives. -/
theorem round_normal {f : Fmt} (hr : Regular f) {mode frac ex : Nat} {neg : Bool} (hm : frac < 2 ^ f.fw) (h0 : ex ≠ 0)
    (hex : ex < 2 ^ f.ew) (hinf : f.inf = true → ex ≠ 2 ^ f.ew - 1)
    (hnan : f.nan = true → f.inf = false → ex = 2 ^ f.ew - 1 → frac ≠ 2 ^ f.fw - 1) :
    f.round mode neg (2 ^ f.fw + frac) ((ex : Int) - f.bias - f.fw) = { bits := f.signBit neg + ex * 2 ^ f.fw + frac } := by
  have hpow : 2 ^ (f.fw + 1) = 2 * 2 ^ f.fw := pow_succ' _ _
  have hlog : Nat.log2 (2 ^ f.fw + frac) = f.fw := (Nat.log2_eq_iff (by omega)).2 (by omega)
  have hemax := hr.emax
  have hcast : (2 : Int) ^ f.ew = ((2 ^ f.ew : Nat) : Int) := by push_cast; rfl
  have hrange : (ex : Int) - f.bias ≤ f.emax := by
    rw [hemax, hcast]; split <;> rename_i hi <;> [have := hinf hi; skip] <;> omega
  rw [round_of_spacing (by omega) (by rw [hlog, Fmt.emin]; omega) (by omega), pack_normal hm]
  refine le_maxSig_mul hr.fw (by omega) fun hk => ?_
  unfold Fmt.maxSig
  split <;> rename_i hi
  · simp only [Bool.and_eq_true, Bool.not_eq_true'] at hi
    have := hnan hi.1 hi.2 (by rw [hi.2, hcast] at hemax; simp only [Bool.false_eq_true, if_false] at hemax; omega)
    omega
  · omega

/-- Settles O5: the value's own spacing is the one that rounding takes. -/
theorem roundingKeepsRepresentable : Obligations.RoundingKeepsRepresentable := by
  intro c hc mode bits m neg e hbits hdec
  have hr := fmtOf_regular c hc
  have hsplit := bits_split (fmtOf c) hbits
  have hfrac : bits % 2 ^ (fmtOf c).fw < 2 ^ (fmtOf c).fw := Nat.mod_lt _ (by positivity)
  obtain ⟨rfl, hfin⟩ := decode_fin hdec
  cases hfin with
  | subnormal h =>
    rw [round_subnormal hr hfrac]
    rw [h, Nat.zero_mul, Nat.add_zero] at hsplit
    rw [← hsplit]
  | normal h0 hinf hnan => rw [round_normal hr hfrac h0 (Nat.mod_lt _ (by positivity)) hinf hnan, ← hsplit]

end Sys2Proof.Proofs.Arithmetic
end

section
/-! The family of arithmetic, third part: why the table of lane-wise vector instructions does not hold of every `Args` (O44). -/

namespace Sys2Proof.Proofs.Arithmetic

open Sys2Proof Sys2Proof.Machine

/-- VSEL.s64 v0, v0, 1, k1 with I = 1, which no encoding has: VSEL takes no immediate (R280). -/
def selImmediate : Args := { Spec.plain with len := .l96, i := true, im21 := 1, ext := 1 }

/-- A process of the vector class whose registers are all zero, so that k1 selects B in every lane. -/
def vectorProc : Proc := { ctx := 0, rank := 0, core := 0, vclass := true }

def vectorMachine : State := { State.reset with procs := [(0, vectorProc)] }

theorem vectorMachine_ready : Ready eVsel selImmediate vectorMachine vectorProc := by
  constructor <;> decide

/-- v0 of process 0 in the state that an instruction leaves. -/
def vecAfter : Host.Outcome State Fault Refusal → Option (BitVec 1024)
  | .next t => (t.proc 0).map fun p => p.vec 0
  | _ => none

/-- The row of VSEL in the table of R278 to R288. -/
def selRow : (Args → Instr) × Entry × (Nat → Bool) × Spec.LaneOp :=
  (.vsel, eVsel, fun _ => true, Spec.bitOp fun _ v j => if v.k.getLsbD j then v.a j else v.b j)

theorem selRow_mem : selRow ∈ Spec.vecRows := List.mem_of_getElem? (i := 18) rfl

/-- VSEL reads the vector register that field B names, whatever I says. -/
theorem vecAfter_selImmediate : vecAfter (exec (.vsel selImmediate) vectorMachine) = some 0 := by decide +kernel

theorem vecAfter_setVec (f : Proc → Proc) (v : BitVec 1024) (e : Entry) (x : Args) (p : Proc) :
    vecAfter (.next (vectorMachine.after e x p fun q => (f q).setVec 0 v)) = some v := by
  have hproc : (vectorMachine.after e x p fun q => (f q).setVec 0 v).proc 0 =
      some (((f (taken e x p)).setVec 0 v).retire (p.nextPc x)) := withCur_cur vectorMachine _
  simp only [vecAfter, hproc, Option.map_some, Option.some.injEq]
  exact tblGetD_set_self _ _ _ _

/-- Refutes O44, in its row for VSEL: the row takes lane `j` of B as `Spec.laneB`, the immediate where I = 1, and no
hypothesis excludes I = 1; the instruction takes no immediate and reads the register that field B names. -/
theorem not_vectorLanes : ¬ Obligations.VectorLanes := by
  intro h
  obtain ⟨v, hexec, hlanes⟩ := (h selRow selRow_mem selImmediate vectorMachine vectorProc vectorMachine_ready rfl).1 (.inl rfl)
  have hv : some v = some 0 := (vecAfter_setVec _ v _ _ _).symm.trans (hexec ▸ vecAfter_selImmediate)
  obtain rfl := Option.some.inj hv
  have hlane := hlanes 0 (by decide)
  revert hlane
  decide +kernel

end Sys2Proof.Proofs.Arithmetic
end

section
/-! The family of arithmetic, fourth part: lanes of a register, results under a mask, and the conditions of the active lanes. -/

namespace Sys2Proof.Proofs.Arithmetic

open Sys2Proof Sys2Proof.Machine

/-! ### Lanes of a number (R269) -/

theorem laneOf_lt (v w j : Nat) : laneOf v w j < 2 ^ w := Nat.mod_lt _ (by positivity)

/-- A lane of a register, as a number. -/
theorem toNat_extractLsb'_lane {n : Nat} (v : BitVec n) (w j : Nat) : (v.extractLsb' (w * j) w).toNat = laneOf v.toNat w j := by
  rw [BitVec.extractLsb'_toNat, Nat.shiftRight_eq_div_pow, laneOf]

/-- The lanes that were joined. -/
theorem laneOf_joinLanes (w : Nat) (l : List Nat) (j : Nat) : laneOf (joinLanes w l) w j = l.getD j 0 % 2 ^ w := by
  have hpos : 0 < 2 ^ w := by positivity
  induction l generalizing j with
  | nil => simp [joinLanes, laneOf]
  | cons x t ih =>
    cases j with
    | zero => simp [joinLanes, laneOf]
    | succ j =>
      rw [List.getD_cons_succ, ← ih, laneOf, laneOf, joinLanes, Nat.mul_succ, Nat.add_comm (w * j), pow_add,
        ← Nat.div_div_eq_div_mul, Nat.add_mul_div_left _ _ hpos, Nat.div_eq_of_lt (Nat.mod_lt _ hpos), Nat.zero_add]

/-- A lane below the cut of a number is a lane of what the cut leaves. -/
theorem laneOf_mod {n w j : Nat} (v : Nat) (h : w * j + w ≤ n) : laneOf (v % 2 ^ n) w j = laneOf v w j := by
  have := Nat.mod_mul_right_div_self v (2 ^ (w * j)) (2 ^ (n - w * j))
  rw [← pow_add, show w * j + (n - w * j) = n by omega] at this
  rw [laneOf, laneOf, this, Nat.mod_mod_of_dvd _ (Nat.pow_dvd_pow 2 (by omega))]

/-- Lane `j` of a register made of lanes. -/
theorem extractLsb'_joinLanes {n w j : Nat} (l : List Nat) (h : w * j + w ≤ n) :
    (BitVec.ofNat n (joinLanes w l)).extractLsb' (w * j) w = BitVec.ofNat w (l.getD j 0) := by
  apply BitVec.eq_of_toNat_eq
  rw [toNat_extractLsb'_lane, BitVec.toNat_ofNat, laneOf_mod _ h, laneOf_joinLanes, BitVec.toNat_ofNat]

theorem getD_map_range {α : Type} (f : Nat → α) (n j : Nat) (d : α) :
    ((List.range n).map f).getD j d = if j < n then f j else d := by
  by_cases h : j < n <;> simp [List.getD_eq_getElem?_getD, h]

theorem map_zipIdx_map_range {α β : Type} (f : Nat → α) (g : α × Nat → β) (n : Nat) :
    ((List.range n).map f).zipIdx.map g = (List.range n).map fun j => g (f j, j) := by
  apply List.ext_getElem <;> simp

/-- Lane `j` of a register under a mask (R270). -/
theorem extractLsb'_mergeLanes {w n j : Nat} (zm : Bool) (old : BitVec 1024) (f : Nat → Option Nat) (hj : j < n)
    (h : w * j + w ≤ 1024) : (mergeLanes w zm old ((List.range n).map f)).extractLsb' (w * j) w =
      match f j with
      | some b => BitVec.ofNat w b
      | none => if zm then 0 else old.extractLsb' (w * j) w := by
  rw [mergeLanes, map_zipIdx_map_range, extractLsb'_joinLanes _ h, getD_map_range, if_pos hj]
  cases f j with
  | some b => rfl
  | none =>
    cases zm with
    | true => rfl
    | false =>
      apply BitVec.eq_of_toNat_eq
      simp only [Option.getD_none, Bool.false_eq_true, if_false, BitVec.toNat_ofNat, toNat_extractLsb'_lane]
      exact Nat.mod_eq_of_lt (laneOf_lt _ _ _)

/-! ### Lanes of an instruction's type -/

theorem lanes_eq (x : Args) : lanesOf (tyN x) = Spec.lanes x := by
  show lanesOf (tyN x) = 1024 / tyWidth (tyN x)
  unfold lanesOf tyWidth; split <;> rfl

theorem width_mul_lanes (x : Args) : Spec.width x * Spec.lanes x = 1024 := by
  show tyWidth (tyN x) * (1024 / tyWidth (tyN x)) = 1024
  unfold tyWidth; split <;> rfl

theorem lanes_le (x : Args) : Spec.lanes x ≤ 128 := by
  show 1024 / tyWidth (tyN x) ≤ 128
  unfold tyWidth; split <;> decide

/-- A lane of the type lies within the register. -/
theorem lane_within {x : Args} {j : Nat} (h : j < Spec.lanes x) : Spec.width x * j + Spec.width x ≤ 1024 := by
  rw [← Nat.mul_succ]
  exact (Nat.mul_le_mul_left _ h).trans_eq (width_mul_lanes x)

/-- The mask bit of a lane that a register has (R270): k0 is all ones. -/
theorem active_eq (e : Entry) (x : Args) (s : State) (p : Proc) (m : Nat) {j : Nat} (h : j < 128) :
    (envOf e x s s.cur p).active m j = Spec.on p (m % 8) j := by
  show (p.mask (m % 8)).getLsbD j = _
  by_cases h0 : m % 8 = 0
  · rw [h0, Proc.mask, if_pos rfl, BitVec.getLsbD_allOnes]
    simp [Spec.on, h]
  · simp [Spec.on, h0]

theorem lane_eq (e : Entry) (x : Args) (s : State) (p : Proc) (f : BitVec 6) (j : Nat) :
    (envOf e x s s.cur p).lane f j = (Spec.lane x p f j).toNat := (toNat_extractLsb'_lane _ _ _).symm

/-- The active lanes by the model's mask and by the statement's. -/
theorem active_lanes (e : Entry) (x : Args) (s : State) (p : Proc) (m : Nat) :
    (List.range (Spec.lanes x)).filter ((envOf e x s s.cur p).active m) = Spec.activeOf x p m :=
  List.filter_congr fun _ hj => active_eq e x s p m ((List.mem_range.1 hj).trans_le (lanes_le x))

/-! ### The conditions of several results (R42) -/

theorem foldl_or {α : Type} (l : List α) (g : α → Cond) (a : Cond) :
    l.foldl (fun b r => b.or (g r)) a = a.or (Spec.orAll (l.map g)) := by
  induction l generalizing a with
  | nil => simp [Cond.or, Spec.orAll]
  | cons r l ih => rw [List.foldl_cons, ih]; simp [Cond.or, Spec.orAll, Bool.or_assoc]

@[simp] theorem none_or (a : Cond) : Cond.or {} a = a := by simp [Cond.or]

/-- The conditions of the lanes that are active. -/
theorem orAll_active (n : Nat) (act : Nat → Bool) (g : Nat → Cond) :
    Spec.orAll ((List.range n).map fun j => if act j then g j else {}) = Spec.orAll (((List.range n).filter act).map g) := by
  simp only [Spec.orAll, List.any_map, List.any_filter, Cond.mk.injEq]
  refine ⟨?_, ?_, ?_, ?_, ?_⟩ <;> (congr 1; funext j; by_cases h : act j <;> simp [h])

@[simp] theorem orAll_none {α : Type} (l : List α) : Spec.orAll (l.map fun _ => {}) = {} := by
  simp [Spec.orAll]

/-! ### Results by lane under a mask -/

theorem after_congr {s : State} {e : Entry} {x : Args} {p : Proc} {f g : Proc → Proc} (h : f (taken e x p) = g (taken e x p)) :
    s.after e x p f = s.after e x p g := by
  rw [State.after, State.after, h]

theorem vec_flagged_taken (e : Entry) (x : Args) (p : Proc) (c : Cond) (i : Nat) :
    (Spec.flagged (taken e x p) c).vec i = p.vec i := by rw [taken_shape]; rfl

theorem mask_flagged_taken (e : Entry) (x : Args) (p : Proc) (c : Cond) (i : Nat) :
    (Spec.flagged (taken e x p) c).mask i = p.mask i := by rw [taken_shape]; rfl

/-- The conditions that an instruction folds over its lanes are those of the active ones. -/
theorem foldl_lanes (e : Entry) (x : Args) (s : State) (p : Proc) (m : Nat) {α : Type} (f : Nat → α) (c : α → Cond) :
    ((List.range (envOf e x s s.cur p).lanes).map fun j => if (envOf e x s s.cur p).active m j then some (f j) else none).foldl
        (fun (a : Cond) r => a.or ((r.map c).getD {})) {} = Spec.orAll ((Spec.activeOf x p m).map fun j => c (f j)) := by
  rw [foldl_or, none_or, List.map_map, ← active_lanes e x s p m, ← orAll_active, show (envOf e x s s.cur p).lanes = Spec.lanes x from lanes_eq x]
  congr 2
  funext j
  by_cases h : (envOf e x s s.cur p).active m j <;> simp [h]

/-- Results by lane complete under R42 and R270. -/
theorem settle_retLanes {e : Entry} {x : Args} {s : State} {p : Proc} (h : s.proc s.cur = some p) (m : Nat) (f : Nat → FRes)
    (ht : Spec.NoTrap p (Spec.orAll ((Spec.activeOf x p m).map fun j => (f j).c))) :
    ∃ v, settle s s.cur p x ((envOf e x s s.cur p).retLanes m f) =
        s.after e x p (fun q => (Spec.flagged q (Spec.orAll ((Spec.activeOf x p m).map fun j => (f j).c))).setVec x.d.toNat v) ∧
      Spec.Merged x (Spec.on p (m % 8)) (m.testBit 3) (p.vec x.d.toNat) v fun j => (f j).bits := by
  unfold Env.retLanes
  simp only [foldl_lanes, settle_finishFp h ht]
  refine ⟨_, after_congr (by rw [vec_flagged_taken]; rfl), fun j hj => ?_⟩
  have hin := extractLsb'_mergeLanes (w := Spec.width x) (m.testBit 3) (p.vec x.d.toNat)
    (fun j => (if (envOf e x s s.cur p).active m j then some (f j) else none).map FRes.bits) hj (lane_within hj)
  rw [active_eq e x s p m (hj.trans_le (lanes_le x))] at hin
  simp only [List.map_map, Function.comp_def, show (envOf e x s s.cur p).lanes = Spec.lanes x from lanes_eq x]
  refine hin.trans ?_
  cases Spec.on p (m % 8) j <;> rfl

/-- The same for results that raise nothing. -/
theorem settle_retLanesN {e : Entry} {x : Args} {s : State} {p : Proc} (h : s.proc s.cur = some p) (f : Nat → Nat) :
    ∃ v, settle s s.cur p x ((envOf e x s s.cur p).retLanesN f) = s.after e x p (fun q => q.setVec x.d.toNat v) ∧
      Spec.Merged x (Spec.on p (mN x % 8)) ((mN x).testBit 3) (p.vec x.d.toNat) v f := by
  obtain ⟨v, hv, hm⟩ := settle_retLanes (e := e) (x := x) h (mN x) (fun j => { bits := f j }) (.inr (by rw [orAll_none, trapCause_none]))
  simp only [orAll_none, flagged_none] at hv
  exact ⟨v, hv, hm⟩

/-- A bit of a register made of bits. -/
theorem getLsbD_joinLanes {n j : Nat} (l : List Nat) (h : j < n) :
    (BitVec.ofNat n (joinLanes 1 l)).getLsbD j = decide (l.getD j 0 % 2 = 1) := by
  have := laneOf_joinLanes 1 l j
  rw [laneOf, Nat.one_mul, pow_one] at this
  simp only [BitVec.getLsbD_ofNat, h, decide_true, Bool.true_and, Nat.testBit_eq_decide_div_mod_eq, this]

/-- Results by mask bit complete under R42 and R280. -/
theorem settle_retMask {e : Entry} {x : Args} {s : State} {p : Proc} (h : s.proc s.cur = some p) (f : Nat → Bool × Cond)
    (ht : Spec.NoTrap p (Spec.orAll ((Spec.activeOf x p (mN x)).map fun j => (f j).2))) :
    ∃ v, settle s s.cur p x ((envOf e x s s.cur p).retMask f) =
        s.after e x p (fun q => (Spec.flagged q (Spec.orAll ((Spec.activeOf x p (mN x)).map fun j => (f j).2))).setMask x.d.toNat v) ∧
      Spec.MaskIs x (Spec.on p (mN x % 8)) ((mN x).testBit 3) (p.mask x.d.toNat) v fun j => (f j).1 := by
  unfold Env.retMask
  simp only [foldl_lanes]
  refine ⟨_, (settle_finishFp h ht _).trans (after_congr (by rw [mask_flagged_taken]; rfl)), fun j hj => ?_⟩
  rw [getLsbD_joinLanes _ hj, map_zipIdx_map_range, getD_map_range,
    show (envOf e x s s.cur p).lanes = Spec.lanes x from lanes_eq x, active_eq e x s p _ hj]
  by_cases hl : j < Spec.lanes x
  · cases hb : Spec.on p (mN x % 8) j
    · cases hz : (mN x).testBit 3 <;> cases ho : (p.mask x.d.toNat).getLsbD j <;> simp [hl, hb, hz, ho]
    · cases h1 : (f j).1 <;> simp [hl, hb, h1]
  · simp [hl]

/-! ### Instructions whose whole effect is on lanes or mask bits -/

theorem perform_retLanes {e : Entry} {x : Args} {s : State} {p : Proc} (h : Ready e x s p) {body : Env → Act} (f : Nat → FRes)
    (hb : body (envOf e x s s.cur p) = (envOf e x s s.cur p).retLanes (mN x) f)
    (ht : Spec.NoTrap p (Spec.orAll ((Spec.activeOf x p (mN x)).map fun j => (f j).c))) :
    ∃ v, perform e x s body = .next (s.after e x p fun q =>
        (Spec.flagged q (Spec.orAll ((Spec.activeOf x p (mN x)).map fun j => (f j).c))).setVec x.d.toNat v) ∧
      Spec.Merged x (Spec.on p (mN x % 8)) ((mN x).testBit 3) (p.vec x.d.toNat) v fun j => (f j).bits := by
  rw [perform_ready h, hb]
  obtain ⟨v, hv, hm⟩ := settle_retLanes h.proc (mN x) f ht
  exact ⟨v, congrArg _ hv, hm⟩

theorem perform_retLanesN {e : Entry} {x : Args} {s : State} {p : Proc} (h : Ready e x s p) {body : Env → Act} (f : Nat → Nat)
    (hb : body (envOf e x s s.cur p) = (envOf e x s s.cur p).retLanesN f) :
    ∃ v, perform e x s body = .next (s.after e x p fun q => q.setVec x.d.toNat v) ∧
      Spec.Merged x (Spec.on p (mN x % 8)) ((mN x).testBit 3) (p.vec x.d.toNat) v f := by
  rw [perform_ready h, hb]
  obtain ⟨v, hv, hm⟩ := settle_retLanesN h.proc f
  exact ⟨v, congrArg _ hv, hm⟩

theorem perform_retMask {e : Entry} {x : Args} {s : State} {p : Proc} (h : Ready e x s p) {body : Env → Act} (f : Nat → Bool × Cond)
    (hb : body (envOf e x s s.cur p) = (envOf e x s s.cur p).retMask f)
    (ht : Spec.NoTrap p (Spec.orAll ((Spec.activeOf x p (mN x)).map fun j => (f j).2))) :
    ∃ v, perform e x s body = .next (s.after e x p fun q =>
        (Spec.flagged q (Spec.orAll ((Spec.activeOf x p (mN x)).map fun j => (f j).2))).setMask x.d.toNat v) ∧
      Spec.MaskIs x (Spec.on p (mN x % 8)) ((mN x).testBit 3) (p.mask x.d.toNat) v fun j => (f j).1 := by
  rw [perform_ready h, hb]
  obtain ⟨v, hv, hm⟩ := settle_retMask h.proc f ht
  exact ⟨v, congrArg _ hv, hm⟩

/-- Mask bits that raise nothing. -/
theorem perform_retMaskN {e : Entry} {x : Args} {s : State} {p : Proc} (h : Ready e x s p) {body : Env → Act} (f : Nat → Bool)
    (hb : body (envOf e x s s.cur p) = (envOf e x s s.cur p).retMask fun j => (f j, {})) :
    ∃ v, perform e x s body = .next (s.after e x p fun q => q.setMask x.d.toNat v) ∧
      Spec.MaskIs x (Spec.on p (mN x % 8)) ((mN x).testBit 3) (p.mask x.d.toNat) v f := by
  obtain ⟨v, hv, hm⟩ := perform_retMask h _ hb (.inr (by rw [orAll_none, trapCause_none]))
  simp only [orAll_none, flagged_none] at hv
  exact ⟨v, hv, hm⟩

end Sys2Proof.Proofs.Arithmetic
end

section
/-! The family of arithmetic, fifth part: vector comparisons, broadcasts, reductions, lane moves, random numbers, scaling and
decoding (O45). -/

namespace Sys2Proof.Proofs.Arithmetic

open Sys2Proof Sys2Proof.Machine

/-! ### Operands as numbers -/

/-- The number that the low bits of a word are (R95). -/
theorem intVal_eq (x : Args) (v : Word) : intVal (tyN x) v = Spec.exact x (v.setWidth _) := by
  have hw : BitVec.ofNat (Spec.width x) v.toNat = v.setWidth _ := BitVec.ofNat_toNat _ _
  unfold intVal Spec.exact
  rw [extTy_eq, Spec.widen, hw]
  split
  · exact BitVec.toInt_signExtend_of_le (width_le x)
  · rw [BitVec.toNat_setWidth_of_le (width_le x)]

theorem exact_injective (x : Args) {a b : BitVec (Spec.width x)} (h : Spec.exact x a = Spec.exact x b) : a = b := by
  unfold Spec.exact at h
  split at h
  · exact BitVec.eq_of_toInt_eq h
  · exact BitVec.eq_of_toNat_eq (by exact_mod_cast h)

theorem setWidth_ofNat_toNat {w : Nat} (v : BitVec w) (h : w ≤ 64) : (BitVec.ofNat 64 v.toNat).setWidth w = v := by
  apply BitVec.eq_of_toNat_eq
  have := v.isLt
  have : 2 ^ w ≤ 2 ^ 64 := Nat.pow_le_pow_right (by omega) h
  rw [BitVec.toNat_setWidth, BitVec.toNat_ofNat, Nat.mod_eq_of_lt (by omega : v.toNat < 2 ^ 64), Nat.mod_eq_of_lt (by omega)]

/-- A lane of an operand as a number of an integer type. -/
theorem il_eq (e : Entry) (x : Args) (s : State) (p : Proc) (f : BitVec 6) (j : Nat) :
    (envOf e x s s.cur p).il f j = Spec.exact x (Spec.lane x p f j) := by
  rw [Env.il, envOf_x, intVal_eq, lane_eq, setWidth_ofNat_toNat _ (width_le x)]

theorem ilB_eq (e : Entry) (x : Args) (s : State) (p : Proc) (j : Nat) (ht : tyN x < 8) :
    (envOf e x s s.cur p).ilB j = Spec.exact x (Spec.laneB e x s p j) := by
  have hlane : (envOf e x s s.cur p).laneB j = (Spec.laneB e x s p j).toNat := by
    cases hi : x.i with
    | true =>
      simp only [Env.laneB, Spec.laneB, envOf_x, hi, ht, if_true]
      exact (BitVec.toNat_setWidth _ _).symm
    | false =>
      simp only [Env.laneB, Spec.laneB, envOf_x, hi, Bool.false_eq_true, if_false]
      exact lane_eq e x s p x.b j
  rw [Env.ilB, envOf_x, intVal_eq, hlane, setWidth_ofNat_toNat _ (width_le x)]

/-- A format reads only its own bits of a pattern. -/
theorem decode_mod (f : Fmt) {w : Nat} (b : Nat) (hw : f.width ≤ w) : f.decode (b % 2 ^ w) = f.decode b := by
  have hfrac : b % 2 ^ w % 2 ^ f.fw = b % 2 ^ f.fw := Nat.mod_mod_of_dvd _ (Nat.pow_dvd_pow 2 (by unfold Fmt.width at hw; omega))
  have hex : b % 2 ^ w / 2 ^ f.fw % 2 ^ f.ew = b / 2 ^ f.fw % 2 ^ f.ew := by
    have := Nat.mod_mul_right_div_self b (2 ^ f.fw) (2 ^ (w - f.fw))
    rw [← pow_add, show f.fw + (w - f.fw) = w by unfold Fmt.width at hw; omega] at this
    rw [this, Nat.mod_mod_of_dvd _ (Nat.pow_dvd_pow 2 (by unfold Fmt.width at hw; omega))]
  have hneg : (b % 2 ^ w).testBit (f.ew + f.fw) = b.testBit (f.ew + f.fw) := by
    rw [Nat.testBit_mod_two_pow]; simp [show f.ew + f.fw < w by unfold Fmt.width at hw; omega]
  simp only [Fmt.decode, hfrac, hex, hneg]

/-- The formats of R67 fill their lanes. -/
theorem fmtTy_width (x : Args) (h : 8 ≤ tyN x) : (fmtTy (tyN x)).width = Spec.width x := by
  show _ = tyWidth (tyN x)
  have : tyN x < 16 := x.ty.isLt
  generalize tyN x = t at *
  interval_cases t <;> rfl

theorem fl_eq (e : Entry) (x : Args) (s : State) (p : Proc) (f : BitVec 6) (j : Nat) :
    (envOf e x s s.cur p).fl f j = (fmtTy (tyN x)).decode (Spec.lane x p f j).toNat := by
  rw [Env.fl, lane_eq]; rfl

theorem flB_eq (e : Entry) (x : Args) (s : State) (p : Proc) (j : Nat) (ht : 8 ≤ tyN x) :
    (envOf e x s s.cur p).flB j = (fmtTy (tyN x)).decode (Spec.laneB e x s p j).toNat := by
  show (fmtTy (tyN x)).decode ((envOf e x s s.cur p).laneB j) = _
  cases hi : x.i with
  | true =>
    simp only [Env.laneB, Spec.laneB, envOf_x, hi, show ¬ tyN x < 8 by omega, if_true, if_false, BitVec.toNat_ofNat]
    exact (decode_mod _ _ (fmtTy_width x ht).le).symm
  | false =>
    simp only [Env.laneB, Spec.laneB, envOf_x, hi, Bool.false_eq_true, if_false]
    rw [lane_eq]

/-- Operand B of an instruction that takes no immediate here. -/
theorem envOf_b_reg {e : Entry} {x : Args} {s : State} {p : Proc} (hi : x.i = false) (hu : (e.uses x).b = .src) :
    (envOf e x s s.cur p).b = p.scalar x.b.toNat := by
  simp only [envOf, hi, hu, Bool.false_eq_true, if_false, Use.value]

/-! ### Comparisons and classes (R280, R289) -/

theorem intRel_iff (r : Nat) (a b : Int) : intRel r a b = true ↔ Spec.relation r a b := by
  unfold intRel Spec.relation
  split <;> simp

/-- VCMP on an integer type. -/
theorem exec_vcmp_int {x : Args} {s : State} {p : Proc} (h : Ready eVcmp x s p) (ht : tyN x < 8) :
    ∃ v, exec (.vcmp x) s = .next (s.after eVcmp x p fun q => q.setMask x.d.toNat v) ∧
      Spec.MaskIs x (Spec.on p (mN x % 8)) ((mN x).testBit 3) (p.mask x.d.toNat) v fun j =>
        intRel (mN x / 16 % 8) (Spec.exact x (Spec.lane x p x.a j)) (Spec.exact x (Spec.laneB eVcmp x s p j)) := by
  refine perform_retMaskN h _ ?_
  simp only [isIntTy, envOf_x, ht, decide_true, if_true, il_eq, ilB_eq eVcmp x s p _ ht]

/-- VCMP on a floating type. -/
theorem exec_vcmp_flt {x : Args} {s : State} {p : Proc} (h : Ready eVcmp x s p) (ht : 8 ≤ tyN x) {res : Nat → Bool × Cond}
    (hres : res = fun j => fltRel (mN x / 16 % 8) ((fmtTy (tyN x)).decode (Spec.lane x p x.a j).toNat)
      ((fmtTy (tyN x)).decode (Spec.laneB eVcmp x s p j).toNat))
    (hc : Spec.NoTrap p (Spec.orAll ((Spec.activeOf x p (mN x)).map fun j => (res j).2))) :
    ∃ v, exec (.vcmp x) s = .next (s.after eVcmp x p fun q =>
        (Spec.flagged q (Spec.orAll ((Spec.activeOf x p (mN x)).map fun j => (res j).2))).setMask x.d.toNat v) ∧
      Spec.MaskIs x (Spec.on p (mN x % 8)) ((mN x).testBit 3) (p.mask x.d.toNat) v fun j => (res j).1 := by
  refine perform_retMask h res ?_ hc
  simp only [isIntTy, envOf_x, show ¬ tyN x < 8 by omega, decide_false, Bool.false_eq_true, if_false, fl_eq, flB_eq eVcmp x s p _ ht, hres]

/-- VCLS. -/
theorem exec_vcls {x : Args} {s : State} {p : Proc} (h : Ready eVcls x s p) (hi : x.i = false) :
    ∃ v, exec (.vcls x) s = .next (s.after eVcls x p fun q => q.setMask x.d.toNat v) ∧
      Spec.MaskIs x (Spec.on p (mN x % 8)) ((mN x).testBit 3) (p.mask x.d.toNat) v fun j =>
        ((fmtTy (tyN x)).classify (Spec.lane x p x.a j).toNat &&& (p.scalar x.b.toNat).toNat) % 1024 != 0 := by
  refine perform_retMaskN h _ ?_
  simp only [lane_eq, envOf_x]
  rw [envOf_b_reg hi rfl]
  rfl

/-! ### Broadcasts and lane moves (R287) -/

theorem merged_congr {x : Args} {act : Nat → Bool} {zm : Bool} {old v : BitVec 1024} {res res' : Nat → Nat}
    (h : ∀ j, BitVec.ofNat (Spec.width x) (res j) = BitVec.ofNat _ (res' j)) (hm : Spec.Merged x act zm old v res) :
    Spec.Merged x act zm old v res' := fun j hj => by rw [hm j hj, h j]

theorem ofNat_mod_lane {w : Nat} (n : Nat) : BitVec.ofNat w (n % 2 ^ w) = BitVec.ofNat w n := by
  apply BitVec.eq_of_toNat_eq; simp

/-- VBC. -/
theorem exec_vbc {x : Args} {s : State} {p : Proc} (h : Ready eVbc x s p) :
    ∃ v, exec (.vbc x) s = .next (s.after eVbc x p fun q => q.setVec x.d.toNat v) ∧
      Spec.Merged x (Spec.on p (mN x % 8)) ((mN x).testBit 3) (p.vec x.d.toNat) v fun _ => (p.scalar x.a.toNat).toNat := by
  obtain ⟨v, hv, hm⟩ := perform_retLanesN h (body := fun e => e.retLanesN fun _ => e.a.toNat % 2 ^ e.w) _ rfl
  exact ⟨v, hv, merged_congr (fun _ => ofNat_mod_lane _) hm⟩

/-- The lane that B names exists (R287). -/
theorem laneCheck_ok {e : Entry} {x : Args} {s : State} {p : Proc} {b : Word} (hb : (envOf e x s s.cur p).b = b)
    (hl : b.toNat < Spec.lanes x) (go : Nat → Act) : (envOf e x s s.cur p).laneCheck go = go b.toNat := by
  rw [Env.laneCheck, hb, show (envOf e x s s.cur p).lanes = Spec.lanes x from lanes_eq x, if_neg (by omega)]

/-- It does not (R287). -/
theorem laneCheck_fault {e : Entry} {x : Args} {s : State} {p : Proc} {b : Word} (hb : (envOf e x s s.cur p).b = b)
    (hl : Spec.lanes x ≤ b.toNat) (go : Nat → Act) :
    (envOf e x s s.cur p).laneCheck go = (envOf e x s s.cur p).trap 14 0 b := by
  rw [Env.laneCheck, hb, show (envOf e x s s.cur p).lanes = Spec.lanes x from lanes_eq x, if_pos hl]

/-- VEXT. -/
theorem exec_vext {x : Args} {s : State} {p : Proc} (h : Ready eVext x s p) (hi : x.i = false)
    (hl : (p.scalar x.b.toNat).toNat < Spec.lanes x) :
    exec (.vext x) s = .next (s.after eVext x p fun q => q.wrOp x.d.toNat
      (Spec.widen x (Spec.lane x p x.a (p.scalar x.b.toNat).toNat))) := by
  refine settle_ret_ready h ?_
  rw [laneCheck_ok (envOf_b_reg hi rfl) hl, lane_eq]
  have hext := extTy_eq x (Spec.lane x p x.a (p.scalar x.b.toNat).toNat).toNat
  rw [BitVec.ofNat_toNat, BitVec.setWidth_eq] at hext
  refine congrArg (Env.ret _) ?_
  rw [← hext]
  simp only [extTy, tySigned, decide_eq_true_eq]
  rfl

theorem widen_eq (x : Args) (v : BitVec (Spec.width x)) :
    Spec.widen x v = if tyN x < 4 then v.signExtend 64 else v.setWidth 64 := by
  simp only [Spec.widen, tySigned, decide_eq_true_eq]

/-- VINS. -/
theorem exec_vins {x : Args} {s : State} {p : Proc} (h : Ready eVins x s p) (hi : x.i = false)
    (hl : (p.scalar x.b.toNat).toNat < Spec.lanes x) :
    ∃ v, exec (.vins x) s = .next (s.after eVins x p fun q => q.setVec x.d.toNat v) ∧
      Spec.Merged x (fun j => Spec.on p (mN x % 8) j && j == (p.scalar x.b.toNat).toNat) false (p.vec x.d.toNat) v
        fun _ => (p.scalar x.a.toNat).toNat := by
  generalize hb : (p.scalar x.b.toNat).toNat = b at hl
  show ∃ v, perform eVins x s _ = _ ∧ _
  rw [perform_ready h, laneCheck_ok (envOf_b_reg hi rfl) (by rw [hb]; exact hl), settle_upd h.proc, hb]
  refine ⟨_, congrArg _ (after_congr (by rw [taken_shape]; rfl)), fun j hj => ?_⟩
  have hin := extractLsb'_mergeLanes (w := Spec.width x) false (p.vec x.d.toNat)
    (fun j => if j = b && (envOf eVins x s s.cur p).active (mN x) j then some ((p.scalar x.a.toNat).toNat % 2 ^ Spec.width x) else none)
    hj (lane_within hj)
  rw [← lanes_eq x] at hin
  refine hin.trans ?_
  rw [active_eq eVins x s p (mN x) (hj.trans_le (lanes_le x))]
  by_cases hjb : j = b
  · subst hjb
    cases hon : Spec.on p (mN x % 8) j with
    | false => simp [hon]; rfl
    | true => simp [hon, -BitVec.ofNat_toNat, ofNat_mod_lane]
  · simp [hjb]; rfl

/-! ### Random numbers (R290) -/

/-- An active counter of VRNG passes 2^64 − 1. -/
theorem wraps_iff {x : Args} (e : Entry) (s : State) (p : Proc) (ht : tyN x = 5) (c : Nat) :
    (((List.range 32).filter ((envOf e x s s.cur p).active (mN x))).any fun j => 2 ^ 64 ≤ c + j) = true ↔
      ∃ j ∈ Spec.activeOf x p (mN x), 2 ^ 64 ≤ c + j := by
  rw [← active_lanes e x s p, show Spec.lanes x = 32 by rw [← lanes_eq, ht]; rfl]
  simp only [List.any_eq_true, decide_eq_true_eq]

/-- VRNG where no counter wraps, or a wrap does not trap. -/
theorem exec_vrng {x : Args} {s : State} {p : Proc} (h : Ready eVrng x s p) (hi : x.i = false) (ht : tyN x = 5)
    (hw : ¬ ((∃ j ∈ Spec.activeOf x p (mN x), 2 ^ 64 ≤ (p.scalar (cOf .modw x).toNat).toNat + j) ∧ p.rngctl.getLsbD 0 = true)) :
    ∃ v, exec (.vrng x) s = .next (s.after eVrng x p fun q => q.setVec x.d.toNat v) ∧
      Spec.Merged x (Spec.on p (mN x % 8)) ((mN x).testBit 3) (p.vec x.d.toNat) v fun j =>
        (kmx (p.scalar x.a.toNat) ((p.scalar x.b.toNat).setWidth 32) (p.scalar (cOf .modw x).toNat + BitVec.ofNat 64 j)).toNat := by
  rw [← wraps_iff eVrng s p ht, ← Bool.and_eq_true] at hw
  refine perform_retLanesN h _ ((if_neg hw).trans ?_)
  rw [envOf_b_reg hi rfl, ← BitVec.setWidth_eq_extractLsb' (by decide)]
  rfl

/-- VRNG where a wrap traps. -/
theorem exec_vrng_wrap {x : Args} {s : State} {p : Proc} (h : Ready eVrng x s p) (ht : tyN x = 5)
    (hw : (∃ j ∈ Spec.activeOf x p (mN x), 2 ^ 64 ≤ (p.scalar (cOf .modw x).toNat).toNat + j) ∧ p.rngctl.getLsbD 0 = true) :
    exec (.vrng x) s = .next (s.deliver s.cur { cause := 56 } p.pc) := by
  rw [← wraps_iff eVrng s p ht, ← Bool.and_eq_true] at hw
  show perform eVrng x s _ = _
  rw [perform_ready h]
  exact congrArg (fun a => Host.Outcome.next (settle s s.cur p x a)) (if_pos hw)

/-! ### Block scales and codebook decoding (R292, R293) -/

/-- A block of VSCL lies within the mask. -/
theorem block_within {k g i L : Nat} (hk : k < 4) (hg : 16 * g < L) (hL : L ≤ 128) (hi : i < 16 * 2 ^ k) :
    16 * g / (16 * 2 ^ k) * (16 * 2 ^ k) + i < 128 := by
  interval_cases k <;> omega

/-- The active lanes of a block by the model's mask and by the statement's. -/
theorem active_block (x : Args) (s : State) (p : Proc) {g : Nat} (hg : 16 * g < Spec.lanes x) :
    ((List.range (16 * 2 ^ (mN x / 256 % 4))).map (16 * g / (16 * 2 ^ (mN x / 256 % 4)) * (16 * 2 ^ (mN x / 256 % 4)) + ·)).filter
      ((envOf eVscl x s s.cur p).active (mN x)) = Spec.blockLanes x p g := by
  refine List.filter_congr fun j hj => ?_
  obtain ⟨i, hi, rfl⟩ := List.mem_map.1 hj
  exact active_eq eVscl x s p _ (block_within (Nat.mod_lt _ (by decide)) hg (lanes_le x) (List.mem_range.1 hi))

/-- The word of VSCL has the scale of the block of lanes 16g to 16g + 15 in byte g. -/
theorem exec_vscl {x : Args} {s : State} {p : Proc} (h : Ready eVscl x s p) :
    ∃ v : Word, exec (.vscl x) s = .next (s.after eVscl x p fun q => q.wrOp x.d.toNat v) ∧
      ∀ g < 8, v.extractLsb' (8 * g) 8 = if 16 * g < Spec.lanes x then BitVec.ofNat 8 (scaleField (fmtOf (mN x / 16 % 16))
        ((Spec.blockLanes x p g).map fun j => (fmtTy (tyN x)).decode (Spec.lane x p x.a j).toNat)) else 0 := by
  refine ⟨_, settle_ret_ready h rfl, fun g hg => ?_⟩
  rw [extractLsb'_joinLanes _ (by omega), getD_map_range, show (envOf eVscl x s s.cur p).lanes = Spec.lanes x from lanes_eq x]
  have h16 : Spec.lanes x % 16 = 0 := by
    rw [← lanes_eq]; unfold lanesOf; split <;> rfl
  by_cases hl : 16 * g < Spec.lanes x
  · rw [if_pos (by omega), if_pos hl, ← active_block x s p hl]
    rw [show (fun j => (fmtTy (tyN x)).decode (Spec.lane x p x.a j).toNat) = (envOf eVscl x s s.cur p).fl x.a from
      funext fun j => (fl_eq eVscl x s p x.a j).symm]
    rfl
  · rw [if_neg (by omega), if_neg hl]; rfl

/-- The codebook index of weight `i` (R293). -/
def vqIndex (x : Args) (p : Proc) (i : Nat) : Nat := ((p.vec x.a.toNat).extractLsb' (16 * (mN x / 16 % 64 + i / 8)) 16).toNat

/-- Weight `i` under its block's scale, in the format of TY. -/
def vqResult (x : Args) (s : State) (p : Proc) (i : Nat) : FRes :=
  (Elem.flt (fmtTy (tyN x))).encode false (modeOf (rndOf .modw x).toNat p.fpc) (fpcPayl p.fpc) false 0
    ((vqWeight (s.vqEntry p) (vqIndex x p i) (i % 8)).scaled ((p.scalar x.b.toNat).extractLsb' (8 * (i / 32)) 8).toNat)

/-- Byte `k` of a word. -/
theorem toNat_byte (v : Word) (k : Nat) : (v.extractLsb' (8 * k) 8).toNat = v.toNat / 256 ^ k % 256 := by
  rw [toNat_extractLsb'_lane, laneOf, pow_mul]; norm_num

/-- VQDC, with its table readable. -/
theorem exec_vqdc {x : Args} {s : State} {p : Proc} (h : Ready eVqdc x s p) (hi : x.i = false)
    (hf : s.vqFault p ((Spec.activeOf x p (mN x)).map fun i => vqIndex x p i / 256) = none)
    (hc : Spec.NoTrap p (Spec.orAll ((Spec.activeOf x p (mN x)).map fun j => (vqResult x s p j).c))) :
    ∃ v, exec (.vqdc x) s = .next (s.after eVqdc x p fun q =>
        (Spec.flagged q (Spec.orAll ((Spec.activeOf x p (mN x)).map fun j => (vqResult x s p j).c))).setVec x.d.toNat v) ∧
      Spec.Merged x (Spec.on p (mN x % 8)) ((mN x).testBit 3) (p.vec x.d.toNat) v fun j => (vqResult x s p j).bits := by
  refine perform_retLanes h _ ?_ hc
  have hres : vqResult x s p = fun i => (Elem.flt (fmtTy (tyN x))).encode false (envOf eVqdc x s s.cur p).mode
      (envOf eVqdc x s s.cur p).payl false 0 ((vqWeight (s.vqEntry p) (laneOf (p.vec x.a.toNat).toNat 16 (mN x / 16 % 64 + i / 8))
        (i % 8)).scaled ((p.scalar x.b.toNat).toNat / 256 ^ (i / 32) % 256)) := by
    funext i
    rw [vqResult, vqIndex, toNat_extractLsb'_lane, toNat_byte]
    rfl
  simp only [vqIndex, toNat_extractLsb'_lane, ← active_lanes eVqdc x s p] at hf
  simp only [envOf_s0, envOf_p, envOf_x, show (envOf eVqdc x s s.cur p).lanes = Spec.lanes x from lanes_eq x, hf, hres,
    envOf_b_reg hi (show (eVqdc.uses x).b = .src from rfl)]
  rfl

/-! ### Reduction (R49, R285) -/

section Tree

variable {g : Nat → Nat → Nat × Cond}

/-- A node of the tree merges its children. -/
theorem treeLevel_cons (a b : Option Nat) (t : List (Option Nat)) :
    (treeLevel g (a :: b :: t)).1 = Option.merge (fun x y => (g x y).1) a b :: (treeLevel g t).1 := by
  cases a <;> cases b <;> rfl

/-- One level of the tree halves the list. -/
theorem length_treeLevel : ∀ l : List (Option Nat), (treeLevel g l).1.length = (l.length + 1) / 2
  | [] => rfl
  | [_] => by simp [treeLevel]
  | a :: b :: t => by
    rw [treeLevel_cons, List.length_cons, length_treeLevel t]
    simp only [List.length_cons]
    omega

/-- One level of the tree keeps what an associative operation makes of the list. -/
theorem foldr_treeLevel [ha : Std.Associative fun x y => (g x y).1] : ∀ l : List (Option Nat),
    (treeLevel g l).1.foldr (Option.merge fun x y => (g x y).1) none = l.foldr (Option.merge fun x y => (g x y).1) none
  | [] => rfl
  | [_] => rfl
  | a :: b :: t => by
    rw [treeLevel_cons, List.foldr_cons, foldr_treeLevel t, List.foldr_cons, List.foldr_cons]
    exact Std.Associative.assoc _ _ _

/-- The tree of R49 with an associative operation gives the fold of its values. -/
theorem treeReduce_fst [ha : Std.Associative fun x y => (g x y).1] (n : Nat) (l : List (Option Nat)) (hl : l.length ≤ 2 ^ n) :
    (treeReduce g n l).1 = l.foldr (Option.merge fun x y => (g x y).1) none := by
  induction n generalizing l with
  | zero =>
    match l, hl with
    | [], _ => rfl
    | [a], _ => cases a <;> rfl
  | succ n ih =>
    match l, hl with
    | [], _ => rfl
    | [a], _ => cases a <;> rfl
    | a :: b :: t, hl =>
      rw [← foldr_treeLevel, ← ih _ (by rw [length_treeLevel]; rw [pow_succ] at hl; omega)]
      rfl

end Tree

/-- Addition, least and greatest of integer patterns are associative. -/
theorem assoc_combine_add {t : Nat} (ht : t < 8) (mode : Nat) (payl : Bool) :
    Std.Associative fun x y => (combine 0 t mode payl x y).1 :=
  ⟨fun a b c => by simp [combine, ht, Nat.add_assoc]⟩

/-- The number of a pattern, of which only the low bits count. -/
theorem intVal_mod (x : Args) (v : Nat) : intVal (tyN x) (BitVec.ofNat 64 (v % 2 ^ Spec.width x)) = intVal (tyN x) (BitVec.ofNat 64 v) := by
  rw [intVal_eq, intVal_eq, BitVec.setWidth_ofNat_of_le (width_le x), BitVec.setWidth_ofNat_of_le (width_le x), ofNat_mod_lane]

/-- The better of two patterns by an order of their numbers: what `combine` makes of them for .min and .max. -/
def better (x : Args) (le : Int → Int → Bool) (a b : Nat) : Nat :=
  if le (intVal (tyN x) (BitVec.ofNat 64 a)) (intVal (tyN x) (BitVec.ofNat 64 b)) then a % 2 ^ Spec.width x else b % 2 ^ Spec.width x

theorem combine_min {x : Args} (ht : tyN x < 8) (mode : Nat) (payl : Bool) :
    (fun a b => (combine 1 (tyN x) mode payl a b).1) = better x fun u v => decide (u ≤ v) := by
  funext a b; simp [combine, ht, better]

theorem combine_max {x : Args} (ht : tyN x < 8) (mode : Nat) (payl : Bool) :
    (fun a b => (combine 2 (tyN x) mode payl a b).1) = better x fun u v => decide (v ≤ u) := by
  funext a b; simp [combine, ht, better]

/-- A total and transitive test of numbers. -/
structure IsOrder (le : Int → Int → Bool) : Prop where
  total : ∀ u v, le u v = false → le v u = true
  trans : ∀ u v w, le u v = true → le v w = true → le u w = true

theorem isOrder_le : IsOrder fun u v => decide (u ≤ v) :=
  ⟨fun u v h => by simp at h ⊢; omega, fun u v w h1 h2 => by simp at h1 h2 ⊢; omega⟩

theorem isOrder_ge : IsOrder fun u v => decide (v ≤ u) :=
  ⟨fun u v h => by simp at h ⊢; omega, fun u v w h1 h2 => by simp at h1 h2 ⊢; omega⟩

theorem IsOrder.refl {le : Int → Int → Bool} (hle : IsOrder le) (u : Int) : le u u = true := by
  cases h : le u u with
  | true => rfl
  | false => exact h ▸ hle.total u u h

theorem assoc_better (x : Args) {le : Int → Int → Bool} (hle : IsOrder le) : Std.Associative (better x le) := by
  refine ⟨fun a b c => ?_⟩
  cases hab : le (intVal (tyN x) (BitVec.ofNat 64 a)) (intVal (tyN x) (BitVec.ofNat 64 b)) <;>
    cases hbc : le (intVal (tyN x) (BitVec.ofNat 64 b)) (intVal (tyN x) (BitVec.ofNat 64 c)) <;>
    simp only [better, hab, hbc, intVal_mod, Nat.mod_mod, Bool.false_eq_true, if_true, if_false]
  · have hac : ¬ le (intVal (tyN x) (BitVec.ofNat 64 a)) (intVal (tyN x) (BitVec.ofNat 64 c)) = true := fun hac => by
      rw [hle.trans _ _ _ hac (hle.total _ _ hbc)] at hab
      cases hab
    rw [if_neg hac]
  · rw [if_pos (hle.trans _ _ _ hab hbc)]

/-- What the tree makes of the active lanes is the fold of their values. -/
theorem foldr_active (op : Nat → Nat → Nat) (act : Nat → Bool) (f : Nat → Nat) (js : List Nat) :
    (js.map fun j => if act j then some (f j) else none).foldr (Option.merge op) none =
      ((js.filter act).map fun j => some (f j)).foldr (Option.merge op) none := by
  induction js with
  | nil => rfl
  | cons j js ih =>
    cases h : act j <;> simp [h, ih]

/-- The fold by addition is the sum of the lanes. -/
theorem foldr_add {x : Args} (ht : tyN x < 8) (mode : Nat) (payl : Bool) (A : Nat → BitVec (Spec.width x)) (js : List Nat) :
    BitVec.ofNat (Spec.width x) (((js.map fun j => some (A j).toNat).foldr
      (Option.merge fun a b => (combine 0 (tyN x) mode payl a b).1) none).getD 0) = (js.map A).sum := by
  induction js with
  | nil => rfl
  | cons j js ih =>
    simp only [List.map_cons, List.sum_cons, List.foldr_cons, ← ih]
    cases (js.map fun j => some (A j).toNat).foldr (Option.merge fun a b => (combine 0 (tyN x) mode payl a b).1) none with
    | none => simp
    | some r =>
      show BitVec.ofNat (Spec.width x) (combine 0 (tyN x) mode payl (A j).toNat r).1 = A j + BitVec.ofNat (Spec.width x) r
      rw [combine, if_pos ht]
      show BitVec.ofNat (Spec.width x) (((A j).toNat + r) % 2 ^ Spec.width x) = _
      rw [ofNat_mod_lane, BitVec.ofNat_add, BitVec.ofNat_toNat, BitVec.setWidth_eq]

/-- The better of two lanes is one of them. -/
theorem better_lanes (x : Args) (le : Int → Int → Bool) (a b : BitVec (Spec.width x)) :
    better x le a.toNat b.toNat = if le (Spec.exact x a) (Spec.exact x b) then a.toNat else b.toNat := by
  simp only [better, intVal_eq, setWidth_ofNat_toNat _ (width_le x), Nat.mod_eq_of_lt a.isLt, Nat.mod_eq_of_lt b.isLt]

/-- The fold by an order is the value of a lane that is best in it. -/
theorem foldr_better {x : Args} {le : Int → Int → Bool} (hle : IsOrder le) (A : Nat → BitVec (Spec.width x)) {js : List Nat}
    (hne : js ≠ []) : ∃ i ∈ js, (js.map fun j => some (A j).toNat).foldr (Option.merge (better x le)) none = some (A i).toNat ∧
      ∀ k ∈ js, le (Spec.exact x (A i)) (Spec.exact x (A k)) = true := by
  induction js with
  | nil => exact absurd rfl hne
  | cons j js ih =>
    rcases eq_or_ne js [] with rfl | hjs
    · exact ⟨j, by simp, rfl, by simp [hle.refl]⟩
    · obtain ⟨i, hi, hfold, hbest⟩ := ih hjs
      rw [List.map_cons, List.foldr_cons, hfold]
      show ∃ k ∈ j :: js, some (better x le (A j).toNat (A i).toNat) = _ ∧ _
      rw [better_lanes]
      cases hji : le (Spec.exact x (A j)) (Spec.exact x (A i)) with
      | true =>
        refine ⟨j, by simp, rfl, fun k hk => ?_⟩
        rcases List.mem_cons.1 hk with rfl | hk
        · exact hle.refl _
        · exact hle.trans _ _ _ hji (hbest k hk)
      | false =>
        refine ⟨i, by simp [hi], rfl, fun k hk => ?_⟩
        rcases List.mem_cons.1 hk with rfl | hk
        · exact hle.total _ _ hji
        · exact hbest k hk

/-- The lanes that VRED reduces, absent where they are inactive. -/
def redLanes (x : Args) (p : Proc) : List (Option Nat) :=
  (List.range (Spec.lanes x)).map fun j => if Spec.on p (mN x % 8) j then some (Spec.lane x p x.a j).toNat else none

theorem redLanes_eq (x : Args) (s : State) (p : Proc) :
    ((List.range (envOf eVred x s s.cur p).lanes).map fun j =>
      if (envOf eVred x s s.cur p).active (mN (envOf eVred x s s.cur p).x) j then
        some ((envOf eVred x s s.cur p).lane (envOf eVred x s s.cur p).x.a j) else none) = redLanes x p := by
  rw [show (envOf eVred x s s.cur p).lanes = Spec.lanes x from lanes_eq x]
  refine List.map_congr_left fun j hj => ?_
  rw [lane_eq, active_eq eVred x s p _ ((List.mem_range.1 hj).trans_le (lanes_le x))]
  rfl

/-- VRED of integers writes what the tree makes of the lanes, or what stands for none. -/
theorem exec_vred_int {x : Args} {s : State} {p : Proc} (h : Ready eVred x s p) (ht : tyN x < 8) {v : BitVec (Spec.width x)}
    (hv : ∀ d, (mN x / 16 % 4 = 0 → d = 0) → BitVec.ofNat _ ((treeReduce (combine (mN x / 16 % 4) (tyN x) (modeOf (rndOf .modw x).toNat p.fpc)
      (fpcPayl p.fpc)) 8 (redLanes x p)).1.getD d) = v) :
    exec (.vred x) s = .next (s.after eVred x p fun q => q.wrOp x.d.toNat (Spec.widen x v)) := by
  refine settle_ret_ready h ?_
  simp only [redLanes_eq x s p]
  simp only [envOf_x, isIntTy, ht, decide_true, if_true, extTy_eq]
  exact congrArg (Env.ret _) (congrArg (Spec.widen x) (hv _ fun hop => if_pos hop))

/-- VRED of floating values writes what the tree of R49 makes of them (R285). -/
theorem exec_vred_flt {x : Args} {s : State} {p : Proc} (h : Ready eVred x s p) (ht : 8 ≤ tyN x) {t : Option Nat × Cond}
    (htree : t = treeReduce (combine (mN x / 16 % 4) (tyN x) (modeOf (rndOf .modw x).toNat p.fpc) (fpcPayl p.fpc)) 8 (redLanes x p))
    (hc : Spec.NoTrap p t.2) :
    exec (.vred x) s = .next (s.after eVred x p fun q => (Spec.flagged q t.2).wrOp x.d.toNat
      (BitVec.ofNat 64 (t.1.getD (if mN x / 16 % 4 = 0 then 0 else (fmtTy (tyN x)).qnan)))) := by
  subst htree
  show perform eVred x s _ = _
  rw [perform_ready h]
  simp only [redLanes_eq x s p]
  simp only [envOf_x, isIntTy, show ¬ tyN x < 8 by omega, decide_false, Bool.false_eq_true, if_false]
  exact congrArg _ (settle_finishFp h.proc hc _)

theorem redLanes_length (x : Args) (p : Proc) : (redLanes x p).length ≤ 2 ^ 8 := by
  rw [redLanes, List.length_map, List.length_range]
  exact (lanes_le x).trans (by decide)

/-- VRED.add: the sum of the active lanes. -/
theorem exec_vred_add {x : Args} {s : State} {p : Proc} (h : Ready eVred x s p) (ht : tyN x < 8) (hop : mN x / 16 % 4 = 0) :
    exec (.vred x) s = .next (s.after eVred x p fun q => q.wrOp x.d.toNat
      (Spec.widen x ((Spec.activeOf x p (mN x)).foldl (fun t j => t + Spec.lane x p x.a j) 0))) := by
  refine exec_vred_int h ht fun d hd => ?_
  have := assoc_combine_add ht (modeOf (rndOf .modw x).toNat p.fpc) (fpcPayl p.fpc)
  rw [hd hop, hop, treeReduce_fst 8 _ (redLanes_length x p), redLanes, foldr_active, foldr_add ht, List.sum_eq_foldl, List.foldl_map]
  rfl

/-- VRED.min and .max: an active lane that is best in the order. -/
theorem exec_vred_best {x : Args} {s : State} {p : Proc} (h : Ready eVred x s p) (ht : tyN x < 8) {le : Int → Int → Bool}
    (hle : IsOrder le) (hanti : ∀ u v, le u v = true → le v u = true → u = v)
    (hfn : (fun a b => (combine (mN x / 16 % 4) (tyN x) (modeOf (rndOf .modw x).toNat p.fpc) (fpcPayl p.fpc) a b).1) = better x le)
    {j : Nat} (hj : j ∈ Spec.activeOf x p (mN x))
    (hbest : ∀ i ∈ Spec.activeOf x p (mN x), le (Spec.exact x (Spec.lane x p x.a j)) (Spec.exact x (Spec.lane x p x.a i)) = true) :
    exec (.vred x) s = .next (s.after eVred x p fun q => q.wrOp x.d.toNat (Spec.widen x (Spec.lane x p x.a j))) := by
  refine exec_vred_int h ht fun d _ => ?_
  have : Std.Associative fun a b => (combine (mN x / 16 % 4) (tyN x) (modeOf (rndOf .modw x).toNat p.fpc) (fpcPayl p.fpc) a b).1 :=
    hfn ▸ assoc_better x hle
  obtain ⟨i, hi, hfold, hall⟩ := foldr_better hle (Spec.lane x p x.a) (List.ne_nil_of_mem hj)
  rw [treeReduce_fst 8 _ (redLanes_length x p), hfn, redLanes, foldr_active]
  rw [show (List.range (Spec.lanes x)).filter (fun j => Spec.on p (mN x % 8) j) = Spec.activeOf x p (mN x) from rfl, hfold,
    Option.getD_some, BitVec.ofNat_toNat, BitVec.setWidth_eq]
  exact exact_injective x (hanti _ _ (hall j hj) (hbest i hi))

/-- VEXT or VINS of a lane that does not exist (R287). -/
theorem exec_lane_fault {x : Args} {s : State} {p : Proc} (hi : x.i = false) (hl : Spec.lanes x ≤ (p.scalar x.b.toNat).toNat) :
    ∀ r ∈ [(Instr.vext, eVext), (.vins, eVins)], Ready r.2 x s p →
      exec (r.1 x) s = .next (s.deliver s.cur { cause := 14, faddr := p.scalar x.b.toNat } p.pc) := by
  simp only [List.forall_mem_cons, List.not_mem_nil, false_imp_iff, implies_true, and_true]
  refine ⟨fun h => ?_, fun h => ?_⟩
  · show perform eVext x s _ = _
    rw [perform_ready h, laneCheck_fault (envOf_b_reg hi rfl) hl, settle_trap]
    rfl
  · show perform eVins x s _ = _
    rw [perform_ready h, laneCheck_fault (envOf_b_reg hi rfl) hl, settle_trap]
    rfl

/-- Settles O45: each instruction by the lemma on it. -/
theorem vectorOthers : Obligations.VectorOthers := by
  intro x s p act acts zm f mode b old A
  refine ⟨fun h ht => ?vcmpInt, fun h ht => ?vcmpFlt, fun h hi => exec_vcls h hi, fun h => exec_vbc h,
    fun h ht => ⟨fun hop => exec_vred_add h ht hop, fun j hj hop hbest => ?min, fun j hj hop hbest => ?max⟩,
    fun h ht => ?vredFlt, fun hi hl => ⟨fun h => ?vext, fun h => exec_vins h hi hl⟩,
    fun r hr h hi hl => exec_lane_fault hi hl r hr h,
    fun h hi ht => ⟨fun hw => exec_vrng h hi ht hw, fun hw => exec_vrng_wrap h ht hw⟩,
    fun h _ => exec_vscl h, fun h hi _ => ?vqdc⟩
  case vcmpInt =>
    obtain ⟨v, hv, hm⟩ := exec_vcmp_int h ht
    refine ⟨v, hv, fun rel hrel => ?_⟩
    rwa [funext fun j => Bool.eq_iff_iff.2 ((hrel j).trans (intRel_iff _ _ _).symm)]
  case vcmpFlt => exact fun hc => exec_vcmp_flt h ht rfl hc
  case min =>
    refine exec_vred_best h ht isOrder_le (by simp; omega) ?_ hj (by simpa using hbest)
    rw [hop]; exact combine_min ht _ _
  case max =>
    refine exec_vred_best h ht isOrder_ge (by simp; omega) ?_ hj (by simpa using hbest)
    rw [hop]; exact combine_max ht _ _
  case vredFlt => exact fun hc => exec_vred_flt h ht rfl hc
  case vext => rw [exec_vext h hi hl, widen_eq]
  case vqdc => exact fun hf hc => exec_vqdc h hi hf hc

end Sys2Proof.Proofs.Arithmetic
end

section
/-! The family of arithmetic, sixth part: tile and exact-accumulator instructions on registers (O47). -/

namespace Sys2Proof.Proofs.Arithmetic

open Sys2Proof Sys2Proof.Machine

/-! ### Forms of outcome -/

/-- An instruction whose whole effect is on its process. -/
theorem perform_upd {e : Entry} {x : Args} {s : State} {p : Proc} (h : Ready e x s p) {body : Env → Act} (f : Proc → Proc)
    (hb : body (envOf e x s s.cur p) = .next ((envOf e x s s.cur p).upd f)) :
    perform e x s body = .next (s.after e x p f) := by
  rw [perform_ready h, hb, settle_upd h.proc]

/-- An instruction that faults, of a cause whose EPC is its own address. -/
theorem perform_trap {e : Entry} {x : Args} {s : State} {p : Proc} (h : Ready e x s p) {body : Env → Act} {c : Nat} {fa : Word}
    (hc : c ≠ 6) (hb : body (envOf e x s s.cur p) = (envOf e x s s.cur p).trap c 0 fa) :
    perform e x s body = .next (s.deliver s.cur { cause := c, faddr := fa } p.pc) := by
  rw [perform_ready h, hb, settle_trap, if_neg hc]

/-- A floating instruction that nothing stops (R42). -/
theorem perform_finishFp {e : Entry} {x : Args} {s : State} {p : Proc} (h : Ready e x s p) {body : Env → Act} {c : Cond}
    {w : Proc → Proc} (ht : Spec.NoTrap p c) (hb : body (envOf e x s s.cur p) = (envOf e x s s.cur p).finishFp c w) :
    perform e x s body = .next (s.after e x p fun q => w (Spec.flagged q c)) := by
  rw [perform_ready h, hb, settle_finishFp h.proc ht]

/-! ### TCFG, TZR, TRD and TWR (R307 to R309) -/

theorem exec_tcfg {x : Args} {s : State} {p : Proc} (h : Ready eTcfg x s p) :
    exec (.tcfg x) s = .next (s.after eTcfg x p fun q => q.setY x.d.toNat
      { data := (q.ybuf x.d.toNat).data, fmt := tyN x, blk := if tyN x = 11 then 1 else mN x }) :=
  perform_upd h _ rfl

/-- What TZR clears by MOD. -/
def clearTile (x : Args) (m : Nat) (q : Proc) : Proc :=
  match m with
  | 0 => q.setZ x.d.toNat 0
  | 1 => { q with x := tblSet q.x x.d.toNat {} }
  | _ => q.setY x.d.toNat { q.ybuf x.d.toNat with data := 0 }

theorem exec_tzr {x : Args} {s : State} {p : Proc} (h : Ready eTzr x s p) (m : Nat) (hm : mN x = m) :
    exec (.tzr x) s = .next (s.after eTzr x p (clearTile x m)) := by
  subst hm
  exact perform_upd h _ rfl

/-- The slices of the operand that MOD[0] names. -/
def sliceCount (x : Args) : Nat := if (mN x).testBit 0 then 16 else 32

theorem slice_ok {e : Entry} {x : Args} {s : State} {p : Proc} {b : Word} (hb : (envOf e x s s.cur p).b = b)
    (hl : b.toNat < sliceCount x) (go : Nat → Act) : (envOf e x s s.cur p).slice go = go b.toNat := by
  rw [Env.slice, hb]; exact if_neg (not_le.2 hl)

theorem slice_fault {e : Entry} {x : Args} {s : State} {p : Proc} {b : Word} (hb : (envOf e x s s.cur p).b = b)
    (hl : sliceCount x ≤ b.toNat) (go : Nat → Act) : (envOf e x s s.cur p).slice go = (envOf e x s s.cur p).trap 14 0 b := by
  rw [Env.slice, hb]; exact if_pos hl

theorem exec_trd {x : Args} {s : State} {p : Proc} (h : Ready eTrd x s p) (hi : x.i = false)
    (hl : (p.scalar x.b.toNat).toNat < sliceCount x) :
    exec (.trd x) s = .next (s.after eTrd x p fun q => q.setVec x.d.toNat
      (if (mN x).testBit 0 then (p.ybuf x.a.toNat).data.extractLsb' (1024 * (p.scalar x.b.toNat).toNat) 1024
       else (p.zreg x.a.toNat).extractLsb' (1024 * (p.scalar x.b.toNat).toNat) 1024)) :=
  perform_upd h _ ((slice_ok (envOf_b_reg hi rfl) hl _).trans rfl)

/-- The slices of a number put together from what lies above slice `b`, the slice, and what lies below. -/
theorem laneOf_parts {w b above u below k : Nat} (hu : u < 2 ^ w) (hb : below < 2 ^ (w * b)) :
    laneOf (2 ^ (w * b) * (2 ^ w * above + u) + below) w k =
      if k = b then u else if k < b then laneOf below w k else laneOf above w (k - b - 1) := by
  have hdiv : (2 ^ (w * b) * (2 ^ w * above + u) + below) / 2 ^ (w * b) = 2 ^ w * above + u := by
    rw [Nat.mul_add_div (by positivity), Nat.div_eq_of_lt hb, Nat.add_zero]
  rcases lt_trichotomy k b with hk | rfl | hk
  · rw [if_neg (by omega), if_pos hk, ← laneOf_mod (n := w * b) _ (by rw [← Nat.mul_succ]; exact Nat.mul_le_mul_left _ hk),
      Nat.mul_add_mod, Nat.mod_eq_of_lt hb]
  · rw [if_pos rfl, laneOf, hdiv, Nat.mul_add_mod, Nat.mod_eq_of_lt hu]
  · obtain ⟨i, rfl⟩ : ∃ i, k = b + 1 + i := ⟨k - (b + 1), by omega⟩
    have hpow : 2 ^ (w * (b + 1 + i)) = 2 ^ (w * b) * 2 ^ w * 2 ^ (w * i) := by rw [← pow_add, ← pow_add]; congr 1; ring
    have hi : b + 1 + i - b - 1 = i := by omega
    rw [if_neg (by omega), if_neg (by omega), laneOf, hpow, ← Nat.div_div_eq_div_mul, ← Nat.div_div_eq_div_mul, hdiv,
      Nat.mul_add_div (by positivity), Nat.div_eq_of_lt hu, Nat.add_zero, hi, laneOf]

/-- A number with a slice replaced has the new slice there and its own elsewhere. -/
theorem laneOf_putSlice (old b v k : Nat) (hv : v < 2 ^ 1024) :
    laneOf (putSlice old b v) 1024 k = if k = b then v else laneOf old 1024 k := by
  have hlow : old % 2 ^ (1024 * b) < 2 ^ (1024 * b) := Nat.mod_lt _ (by positivity)
  have hslice := laneOf_lt old 1024 b
  have hold : 2 ^ (1024 * b) * (2 ^ 1024 * (old / 2 ^ (1024 * b) / 2 ^ 1024) + laneOf old 1024 b) + old % 2 ^ (1024 * b) = old := by
    rw [laneOf, Nat.div_add_mod, Nat.div_add_mod]
  have hnew : putSlice old b v = 2 ^ (1024 * b) * (2 ^ 1024 * (old / 2 ^ (1024 * b) / 2 ^ 1024) + v) + old % 2 ^ (1024 * b) := by
    rw [Nat.mul_add, Nat.mul_comm _ (laneOf old 1024 b)] at hold
    rw [putSlice, Nat.mul_add, Nat.mul_comm _ v]
    omega
  rw [hnew, laneOf_parts hv hlow, ← hold, laneOf_parts hslice hlow, hold]
  split <;> rfl

/-- The bound of a register's number, said of a width that is a variable: no power of 1,024 is evaluated. -/
theorem toNat_lt {n : Nat} (v : BitVec n) : v.toNat < 2 ^ n := v.isLt

/-- A lane of a register made from a number. -/
theorem laneOf_toNat_ofNat {n w j : Nat} (v : Nat) (h : w * j + w ≤ n) : laneOf (BitVec.ofNat n v).toNat w j = laneOf v w j := by
  rw [BitVec.toNat_ofNat, laneOf_mod _ h]

/-- The same of a register. -/
theorem extractLsb'_putSlice {n k : Nat} (old : BitVec n) (b : Nat) (v : BitVec 1024) (h : 1024 * k + 1024 ≤ n) :
    (BitVec.ofNat n (putSlice old.toNat b v.toNat)).extractLsb' (1024 * k) 1024 =
      if k = b then v else old.extractLsb' (1024 * k) 1024 := by
  apply BitVec.eq_of_toNat_eq
  rw [toNat_extractLsb'_lane, laneOf_toNat_ofNat _ h, laneOf_putSlice _ _ _ _ (toNat_lt v)]
  split
  · rfl
  · rw [toNat_extractLsb'_lane]

theorem exec_twr {x : Args} {s : State} {p : Proc} (h : Ready eTwr x s p) (hi : x.i = false)
    (hl : (p.scalar x.b.toNat).toNat < sliceCount x) :
    exec (.twr x) s = .next (s.after eTwr x p fun q =>
      if (mN x).testBit 0 then q.setY x.d.toNat { q.ybuf x.d.toNat with
        data := BitVec.ofNat 16384 (putSlice (p.ybuf x.d.toNat).data.toNat (p.scalar x.b.toNat).toNat (p.vec x.a.toNat).toNat) }
      else q.setZ x.d.toNat (BitVec.ofNat 32768 (putSlice (p.zreg x.d.toNat).toNat (p.scalar x.b.toNat).toNat (p.vec x.a.toNat).toNat))) := by
  refine (perform_upd h _ ((slice_ok (envOf_b_reg hi rfl) hl _).trans rfl)).trans (congrArg _ (after_congr ?_))
  rw [taken_shape]
  rfl

/-- TRD or TWR of 128 bytes that do not exist (R309). -/
theorem exec_slice_fault {x : Args} {s : State} {p : Proc} (hi : x.i = false) (hl : sliceCount x ≤ (p.scalar x.b.toNat).toNat) :
    ∀ r ∈ [(Instr.trd, eTrd), (.twr, eTwr)], Ready r.2 x s p →
      exec (r.1 x) s = .next (s.deliver s.cur { cause := 14, faddr := p.scalar x.b.toNat } p.pc) := by
  simp only [List.forall_mem_cons, List.not_mem_nil, false_imp_iff, implies_true, and_true]
  exact ⟨fun h => perform_trap h (by decide) (slice_fault (envOf_b_reg hi rfl) hl _),
    fun h => perform_trap h (by decide) (slice_fault (envOf_b_reg hi rfl) hl _)⟩

/-! ### Rows of raw elements (R296, R297) -/

/-- The elements of a row fill it, and the rows fill the buffer. -/
theorem row_bits {f : Nat} (hf : f ≤ 10) : fmtWidth f * tileCols f = 8 * rowBytes f ∧ 8 * rowBytes f * tileRows f = 16384 := by
  interval_cases f <;> decide

theorem raw_eq {f : Nat} (hf : f ≤ 10) (y : YBuf) {r c : Nat} (hc : c < tileCols f) :
    y.raw f r c = laneOf (laneOf y.data.toNat (8 * rowBytes f) r) (fmtWidth f) c := by
  have hrow : fmtWidth f * c + fmtWidth f ≤ 8 * rowBytes f := by
    rw [← Nat.mul_succ, ← (row_bits hf).1]; exact Nat.mul_le_mul_left _ hc
  rw [YBuf.raw, if_neg (by omega)]
  exact (laneOf_mod _ hrow).symm

theorem raw_lt {f : Nat} (hf : f ≤ 10) (y : YBuf) (r c : Nat) : y.raw f r c < 2 ^ fmtWidth f := by
  rw [YBuf.raw, if_neg (by omega)]; exact laneOf_lt _ _ _

/-- An element of a buffer made of rows. -/
theorem raw_yRows {f fmt blk : Nat} (hf : f ≤ 10) (g : Nat → Nat → Nat) {r c : Nat} (hr : r < tileRows f) (hc : c < tileCols f) :
    ({ data := yRows f ((List.range (tileRows f)).map fun r => (List.range (tileCols f)).map (g r)), fmt := fmt, blk := blk } : YBuf).raw f r c =
      g r c % 2 ^ fmtWidth f := by
  obtain ⟨hcols, hrows⟩ := row_bits hf
  have hrow : 8 * rowBytes f * r + 8 * rowBytes f ≤ 16384 := by
    rw [← Nat.mul_succ, ← hrows]; exact Nat.mul_le_mul_left _ hr
  have hcol : fmtWidth f * c + fmtWidth f ≤ 8 * rowBytes f := by
    rw [← Nat.mul_succ, ← hcols]; exact Nat.mul_le_mul_left _ hc
  rw [raw_eq hf _ hc, yRows, laneOf_toNat_ofNat _ hrow, laneOf_joinLanes, List.map_map, getD_map_range, if_pos hr,
    laneOf_mod _ hcol]
  simp only [Function.comp]
  rw [laneOf_joinLanes, getD_map_range, if_pos hc]

/-! ### TXP (R310) -/

/-- An element of the transposed tile. -/
def transposed (f : Nat) (y : YBuf) (i c : Nat) : Nat :=
  let src := y.raw f (c % tileRows f) (c / tileRows f * tileRows f + i)
  if f = 6 ∨ f = 7 then src % 64 else src

theorem transposed_lt {f : Nat} (hf : f ≤ 10) (y : YBuf) (i c : Nat) : transposed f y i c < 2 ^ fmtWidth f := by
  unfold transposed
  have := raw_lt hf y (c % tileRows f) (c / tileRows f * tileRows f + i)
  split
  · exact (Nat.mod_le _ _).trans_lt this
  · exact this

theorem exec_txp {x : Args} {s : State} {p : Proc} (h : Ready eTxp x s p) (hf : (p.ybuf x.a.toNat).fmt = tyN x) (h1 : tyN x ≠ 1)
    (h11 : tyN x < 11) :
    exec (.txp x) s = .next (s.after eTxp x p fun q => q.setY x.d.toNat { p.ybuf x.a.toNat with
      data := yRows (tyN x) ((List.range (tileRows (tyN x))).map fun i => (List.range (tileCols (tyN x))).map
        (transposed (tyN x) (p.ybuf x.a.toNat) i)) }) := by
  refine perform_upd h _ ?_
  simp only [envOf_p, envOf_x, hf, bne_self_eq_false, h1, show tyN x ≠ 11 by omega, decide_false, Bool.or_self, Bool.false_eq_true,
    if_false, Bool.or_eq_true, decide_eq_true_eq]
  rfl

theorem exec_txp_fault {x : Args} {s : State} {p : Proc} (h : Ready eTxp x s p)
    (hf : (p.ybuf x.a.toNat).fmt ≠ tyN x ∨ tyN x = 1 ∨ tyN x = 11) :
    exec (.txp x) s = .next (s.deliver s.cur { cause := 23 } p.pc) := by
  refine perform_trap h (by decide) (if_pos ?_)
  show ((p.ybuf x.a.toNat).fmt != tyN x || decide ((p.ybuf x.a.toNat).fmt = 1) || decide ((p.ybuf x.a.toNat).fmt = 11)) = true
  by_cases hfmt : (p.ybuf x.a.toNat).fmt = tyN x
  · rw [hfmt] at hf ⊢; simpa using hf
  · simp [hfmt]

/-! ### TCVT (R311) -/

/-- A lane of what lies above a place in a register. -/
theorem toNat_extractLsb'_above {n : Nat} (v : BitVec n) (a w j : Nat) :
    (v.extractLsb' (a + w * j) w).toNat = laneOf (v.toNat / 2 ^ a) w j := by
  rw [BitVec.extractLsb'_toNat, Nat.shiftRight_eq_div_pow, pow_add, ← Nat.div_div_eq_div_mul, laneOf]

/-- Conditions raised at the same places of two lists, and none elsewhere, are the same together. -/
theorem orAll_congr {l l' : List Cond} (h : ∀ q : Cond → Bool, q {} = false → l.any q = l'.any q) : Spec.orAll l = Spec.orAll l' := by
  simp only [Spec.orAll, Cond.mk.injEq]
  exact ⟨h _ rfl, h _ rfl, h _ rfl, h _ rfl, h _ rfl⟩

/-- The first column of the buffer that TCVT writes. -/
def tcvtBase (x : Args) : Nat := 32 * (mN x / 2 % 4)

/-- The scale string of TCVT, where the format takes one. -/
def tcvtScales (x : Args) (p : Proc) : List Byte :=
  if scaledFmt (tyN x) then p.scaleString (cOf .modw x).toNat (tileBlocks (tyN x) (mN x / 16 % 4)) else []

/-- Element (r, k) of the accumulator converted to column base + k of the buffer. -/
def tcvtElem (x : Args) (p : Proc) (r k : Nat) : FRes :=
  let v := (if (mN x).testBit 0 then Elem.int 32 true else Elem.flt (fmtOf 1)).value
    ((p.zreg x.a.toNat).extractLsb' (1024 * r + 32 * k) 32).toNat
  let field := ((tcvtScales x p).getD (blockOf (tyN x) (mN x / 16 % 4) r (tcvtBase x + k)) 127).toNat
  if scaledFmt (tyN x) = true ∧ field = 255 then { bits := 0 }
  else (elemFmt (tyN x)).encode ((mN x).testBit 0) (modeOf (rndOf .modw x).toNat p.fpc) (fpcPayl p.fpc)
    (scaledFmt (tyN x) || (mN x).testBit 3) 0 (if scaledFmt (tyN x) then v.scale (127 - (field : Int)) else v.plain)

/-- An element of the buffer after TCVT: converted in the columns that it writes, and the old one elsewhere. -/
def tcvtAt (x : Args) (p : Proc) (r k : Nat) : FRes :=
  if tcvtBase x ≤ k ∧ k < tcvtBase x + 32 then tcvtElem x p r (k - tcvtBase x) else { bits := (p.ybuf x.d.toNat).raw (tyN x) r k }

/-- The conditions of TCVT are those of the elements that it converts. -/
theorem orAll_tcvt (x : Args) (p : Proc) (hb : tcvtBase x + 32 ≤ tileCols (tyN x)) :
    Spec.orAll ((((List.range 32).map fun r => (List.range (tileCols (tyN x))).map (tcvtAt x p r)).flatten).map FRes.c) =
      Spec.orAll ((List.range 32).flatMap fun r => (List.range 32).map fun k => (tcvtElem x p r k).c) := by
  refine orAll_congr fun q hq => ?_
  rw [List.any_map, List.any_flatten, List.any_map, List.any_flatMap]
  congr 1
  funext r
  simp only [Function.comp, List.any_map]
  rw [Bool.eq_iff_iff, List.any_eq_true, List.any_eq_true]
  constructor
  · rintro ⟨k, -, hk⟩
    change q (tcvtAt x p r k).c = true at hk
    unfold tcvtAt at hk
    split at hk
    · exact ⟨k - tcvtBase x, List.mem_range.2 (by omega), hk⟩
    · rw [hq] at hk; cases hk
  · rintro ⟨k, hk, hqk⟩
    have hlt := List.mem_range.1 hk
    refine ⟨tcvtBase x + k, List.mem_range.2 (by omega), ?_⟩
    change q (tcvtAt x p r (tcvtBase x + k)).c = true
    unfold tcvtAt
    rw [if_pos (by omega), Nat.add_sub_cancel_left]
    exact hqk

/-- The conditions of all that TCVT converts. -/
def tcvtCond (x : Args) (p : Proc) : Cond :=
  Spec.orAll ((List.range 32).flatMap fun r => (List.range 32).map fun k => (tcvtElem x p r k).c)

/-- The buffer after TCVT. -/
def tcvtBuf (x : Args) (p : Proc) : YBuf :=
  { data := yRows (tyN x) ((List.range 32).map fun r => (List.range (tileCols (tyN x))).map fun k => (tcvtAt x p r k).bits),
    fmt := tyN x, blk := mN x / 16 % 4 }

/-- TCVT ends with the elements of the buffer, however they are formed. -/
theorem finishFp_tcvt {x : Args} {p : Proc} (e : Env) {elem : Nat → Nat → FRes} (he : ∀ r k, elem r k = tcvtAt x p r k)
    (hb : tcvtBase x + 32 ≤ tileCols (tyN x)) :
    let rows := (List.range 32).map fun r => (List.range (tileCols (tyN x))).map fun k => elem r k
    e.finishFp (rows.flatten.foldl (fun (a : Cond) q => a.or q.c) {}) (fun q =>
      q.setY x.d.toNat { data := yRows (tyN x) (rows.map fun r => r.map FRes.bits), fmt := tyN x, blk := mN x / 16 % 4 }) =
    e.finishFp (tcvtCond x p) fun q => q.setY x.d.toNat (tcvtBuf x p) := by
  obtain rfl : elem = tcvtAt x p := funext fun r => funext (he r)
  intro rows
  have hbits : (rows.map fun r => r.map FRes.bits) =
      (List.range 32).map fun r => (List.range (tileCols (tyN x))).map fun k => (tcvtAt x p r k).bits := by
    simp only [rows, List.map_map, Function.comp_def]
  rw [foldl_or, none_or, orAll_tcvt x p hb, hbits]
  rfl

/-- The elements that the model's TCVT forms. -/
theorem tcvtAt_eq (x : Args) (p : Proc) (r k : Nat) :
    (if (decide (tcvtBase x ≤ k) && decide (k < tcvtBase x + 32)) = true then
      let v := (if (mN x).testBit 0 then Elem.int 32 true else Elem.flt (fmtOf 1)).value
        (laneOf ((p.zreg x.a.toNat).toNat / 2 ^ (1024 * r)) 32 (k - tcvtBase x))
      let scale := ((tcvtScales x p).getD (blockOf (tyN x) (mN x / 16 % 4) r k) 127).toNat
      if scaledFmt (tyN x) then
        (elemFmt (tyN x)).encodeScaled ((mN x).testBit 0) (modeOf (rndOf .modw x).toNat p.fpc) (fpcPayl p.fpc) 0 scale v
      else (elemFmt (tyN x)).encode ((mN x).testBit 0) (modeOf (rndOf .modw x).toNat p.fpc) (fpcPayl p.fpc) ((mN x).testBit 3) 0
        v.plain
    else { bits := (p.ybuf x.d.toNat).raw (tyN x) r k }) = tcvtAt x p r k := by
  by_cases hk : tcvtBase x ≤ k ∧ k < tcvtBase x + 32
  · rw [if_pos (by simpa using hk), tcvtAt, if_pos hk, tcvtElem, toNat_extractLsb'_above, Nat.add_sub_cancel' hk.1]
    cases scaledFmt (tyN x) <;> simp [Elem.encodeScaled]
  · rw [if_neg (by simpa using hk), tcvtAt, if_neg hk]

theorem exec_tcvt {x : Args} {s : State} {p : Proc} (h : Ready eTcvt x s p)
    (hs : Spec.StringReady s p (tyN x) (cOf .modw x).toNat (tileBlocks (tyN x) (mN x / 16 % 4)))
    (hb : tcvtBase x + 32 ≤ tileCols (tyN x)) (hc : Spec.NoTrap p (tcvtCond x p)) :
    exec (.tcvt x) s = .next (s.after eTcvt x p fun q => (Spec.flagged q (tcvtCond x p)).setY x.d.toNat (tcvtBuf x p)) := by
  refine perform_finishFp (w := fun q => q.setY x.d.toNat (tcvtBuf x p)) h hc ?_
  exact (if_neg (Bool.eq_false_iff.1 hs.2)).trans (finishFp_tcvt _ (tcvtAt_eq x p) hb)

/-- The elements of the buffer after TCVT. -/
theorem raw_tcvtBuf {x : Args} {p : Proc} (h2 : 2 ≤ tyN x) (h10 : tyN x ≤ 10) {r k : Nat} (hr : r < 32) (hk : k < tileCols (tyN x)) :
    (tcvtBuf x p).raw (tyN x) r k = (tcvtAt x p r k).bits % 2 ^ fmtWidth (tyN x) := by
  have hrows : tileRows (tyN x) = 32 := by interval_cases tyN x <;> rfl
  have := raw_yRows (fmt := tyN x) (blk := mN x / 16 % 4) h10 (fun r k => (tcvtAt x p r k).bits) (hrows ▸ hr) hk
  rwa [hrows] at this

/-! ### TBS (R312, R50) -/

theorem exec_tbs_fault {x : Args} {s : State} {p : Proc} (h : Ready eTbs x s p)
    (hf : tbsExp (tyN x) = none ∨ (p.ybuf x.a.toNat).fmt ≠ tyN x) :
    exec (.tbs x) s = .next (s.deliver s.cur { cause := 23 } p.pc) := by
  refine perform_trap h (by decide) ?_
  simp only [envOf_p, envOf_x]
  cases he : tbsExp (tyN x) with
  | none => rfl
  | some em => exact if_pos (by simpa [he] using hf)

/-- The pair of the block `i` blocks after block `b` of a buffer; zeros where it does not exist. -/
def tbsPair (x : Args) (p : Proc) (em : Int) (b i : Nat) : Nat × Nat :=
  let y := p.ybuf x.a.toNat
  let f := tyN x
  let nb := tileBlocks f y.blk
  let bs := blockSize_ f y.blk
  let scales := if scaledFmt f then p.scaleString (cOf .modw x).toNat nb else []
  if b + i < nb then blockPair em (scaledFmt f) (scales.getD (b + i) 127).toNat ((List.range bs).map fun j =>
    let k := (b + i) * bs + j
    (elemFmt f).value (y.raw f (k / tileCols f) (k % tileCols f))) else (0, 0)

/-- The vector of eight pairs, word 0 of each below its word 1. -/
def pairVec (g : Nat → Nat × Nat) : BitVec 1024 :=
  BitVec.ofNat 1024 (joinLanes 64 ((List.range 8).flatMap fun i => [(g i).1, (g i).2]))

/-- The words of pair `i`. -/
theorem extractLsb'_pairVec (g : Nat → Nat × Nat) {i : Nat} (hi : i < 8) :
    (pairVec g).extractLsb' (128 * i) 64 = BitVec.ofNat 64 (g i).1 ∧ (pairVec g).extractLsb' (128 * i + 64) 64 = BitVec.ofNat 64 (g i).2 := by
  have h0 : 128 * i = 64 * (2 * i) := by omega
  have h1 : 128 * i + 64 = 64 * (2 * i + 1) := by omega
  constructor
  · rw [pairVec, h0, extractLsb'_joinLanes _ (by omega)]
    interval_cases i <;> rfl
  · rw [pairVec, h1, extractLsb'_joinLanes _ (by omega)]
    interval_cases i <;> rfl

/-- TBS ends with the eight pairs, however they are formed. -/
theorem upd_pairVec {d : Nat} (e : Env) {g g' : Nat → Nat × Nat} (hg : ∀ i, g' i = g i) :
    Act.next (e.upd fun q => q.setVec d (BitVec.ofNat 1024 (joinLanes 64 ((List.range 8).flatMap fun i => [(g' i).1, (g' i).2])))) =
      .next (e.upd fun q => q.setVec d (pairVec g)) := by
  obtain rfl : g' = g := funext hg
  rfl

theorem exec_tbs {x : Args} {s : State} {p : Proc} {em : Int} (h : Ready eTbs x s p) (hi : x.i = false) (he : tbsExp (tyN x) = some em)
    (hf : (p.ybuf x.a.toNat).fmt = tyN x)
    (hs : Spec.StringReady s p (tyN x) (cOf .modw x).toNat (tileBlocks (tyN x) (p.ybuf x.a.toNat).blk)) :
    exec (.tbs x) s = .next (s.after eTbs x p fun q =>
      q.setVec x.d.toNat (pairVec (tbsPair x p em (p.scalar x.b.toNat).toNat))) := by
  refine perform_upd h _ ?_
  obtain ⟨hregs, hclash⟩ := hs
  have hb : (envOf eTbs x s s.cur p).b = p.scalar x.b.toNat := envOf_b_reg hi rfl
  simp only [envOf_p, envOf_x, he, hb]
  refine (if_neg ?_).trans ((if_neg ?_).trans ((if_neg ?_).trans ?_))
  · simp [hf]
  · simp only [List.any_eq_true, decide_eq_true_eq, not_exists, not_and, not_lt]; exact hregs
  · exact Bool.eq_false_iff.1 hclash
  · exact upd_pairVec _ fun i => (ite_not _ _ _).symm.trans (if_congr not_le rfl rfl)

/-! ### XACC and XRD (R313, R314, R51, R52) -/

theorem exec_xaccW {x : Args} {s : State} {p : Proc} (h : Ready eXacc x s p) (hm : (mN x).testBit 3 = true) (hi : x.i = false) :
    exec (.xaccW x) s = .next (s.after eXacc x p fun q =>
      { q with x := tblSet q.x x.d.toNat ((p.xacc x.d.toNat).addPair (p.scalar x.a.toNat) (p.scalar x.b.toNat)) }) := by
  have ha : (envOf eXacc x s s.cur p).a = p.scalar x.a.toNat := by simp only [envOf, eXacc, hm, if_true, Use.value]
  have hb : (envOf eXacc x s s.cur p).b = p.scalar x.b.toNat := envOf_b_reg hi (by simp only [eXacc, hm, if_true])
  refine (perform_upd h _ rfl).trans (congrArg _ (after_congr ?_))
  rw [taken_shape]
  simp only [ha, hb]
  rfl

/-- The pair of a vector register at `i`. -/
theorem addPair_lanes (v : BitVec 1024) (a : XAcc) (i : Nat) :
    a.addPair (BitVec.ofNat 64 (laneOf v.toNat 64 (2 * i))) (BitVec.ofNat 64 (laneOf v.toNat 64 (2 * i + 1))) =
      a.addPair (v.extractLsb' (128 * i) 64) (v.extractLsb' (128 * i + 64) 64) := by
  rw [← toNat_extractLsb'_lane, ← toNat_extractLsb'_lane, BitVec.ofNat_toNat, BitVec.ofNat_toNat, BitVec.setWidth_eq, BitVec.setWidth_eq,
    show 64 * (2 * i) = 128 * i by omega, show 64 * (2 * i + 1) = 128 * i + 64 by omega]

theorem exec_xaccV {x : Args} {s : State} {p : Proc} (h : Ready eXacc x s p) :
    exec (.xaccV x) s = .next (s.after eXacc x p fun q =>
      { q with x := tblSet q.x x.d.toNat (((List.range 8).filter (Spec.on p (mN x % 8))).foldl (fun a i =>
        a.addPair ((p.vec x.a.toNat).extractLsb' (128 * i) 64) ((p.vec x.a.toNat).extractLsb' (128 * i + 64) 64)) (p.xacc x.d.toNat)) }) := by
  have hact : ((List.range 8).filter fun i => (envOf eXacc x s s.cur p).active (mN x) i) = (List.range 8).filter (Spec.on p (mN x % 8)) :=
    List.filter_congr fun i hi => active_eq eXacc x s p (mN x) ((List.mem_range.1 hi).trans (by decide))
  refine (perform_upd h _ rfl).trans (congrArg _ (after_congr ?_))
  rw [taken_shape]
  simp only [envOf_x, envOf_p, hact, addPair_lanes]
  rfl

/-- Adding a pair whose exponent reaches the lowest bit of the accumulator loses nothing (R51). -/
theorem addPair_exact (a : XAcc) {w0 w1 : Word} (hsh : 0 ≤ (w1.extractLsb' 0 16).toInt + 192) :
    (a.addPair w0 w1).v = a.v + BitVec.ofInt 384 (w0.toInt * 2 ^ ((w1.extractLsb' 0 16).toInt + 192).toNat) ∧
      (a.addPair w0 w1).loss = a.loss := by
  refine ⟨?_, ?_⟩
  · simp only [XAcc.addPair, hsh, if_true]
    rw [BitVec.ofInt_add, BitVec.ofInt_toInt]
    congr 2
    simp only [Nat.cast_mul, Nat.cast_pow, Nat.cast_ofNat]
    split
    · rw [← neg_mul]; congr 1; omega
    · congr 1; omega
  · change (a.loss || (decide ((w1.extractLsb' 0 16).toInt + 192 < 0) && _)) = a.loss
    rw [decide_eq_false (not_lt.2 hsh), Bool.false_and, Bool.or_false]

/-- What XRD reads of an exact accumulator (R52). -/
def xrdResult (x : Args) (p : Proc) : FRes :=
  let a := p.xacc x.a.toNat
  let g := fmtOf (tyN x)
  if a.nan ∨ a.pinf ∧ a.ninf then g.invalid else if a.pinf ∨ a.ninf then { bits := g.infBits a.ninf }
  else if a.ovf then g.invalid
  else g.round (modeOf (rndOf .modw x).toNat p.fpc) (decide (a.v.toInt < 0)) a.v.toInt.natAbs (-192)

/-- The model's XRD forms the same. -/
theorem xrdResult_eq (x : Args) (p : Proc) :
    (let a := p.xacc x.a.toNat
     let f := fmtOf (tyN x)
     if a.nan || (a.pinf && a.ninf) then f.invalid
     else if a.pinf || a.ninf then { bits := f.infBits a.ninf }
     else if a.ovf then f.invalid
     else f.round (modeOf (rndOf .modw x).toNat p.fpc) (a.v.toInt < 0) a.v.toInt.natAbs (-192)) = xrdResult x p := by
  simp only [xrdResult, Bool.or_eq_true, Bool.and_eq_true]

theorem exec_xrd {x : Args} {s : State} {p : Proc} (h : Ready eXrd x s p) (hc : Spec.NoTrap p (xrdResult x p).c) :
    exec (.xrd x) s = .next (s.after eXrd x p fun q =>
      (Spec.flagged q (xrdResult x p).c).wrOp x.d.toNat (BitVec.ofNat 64 (xrdResult x p).bits)) := by
  refine perform_finishFp (w := fun q => q.wrOp x.d.toNat (BitVec.ofNat 64 (xrdResult x p).bits)) h hc ?_
  exact congrArg (Env.retF _) (xrdResult_eq x p)

/-- The state of an exact accumulator as a number. -/
theorem xrdSt_bits (nan ninf pinf loss ovf : Bool) :
    BitVec.ofNat 64 ((if nan then 2 ^ 4 else 0) + (if ninf then 2 ^ 3 else 0) + (if pinf then 2 ^ 2 else 0) + (if loss then 2 ^ 1 else 0) +
      (if ovf then 2 ^ 0 else 0)) =
    (BitVec.ofBool nan ++ BitVec.ofBool ninf ++ BitVec.ofBool pinf ++ BitVec.ofBool loss ++ BitVec.ofBool ovf).setWidth 64 := by
  revert nan ninf pinf loss ovf
  decide

theorem exec_xrdSt {x : Args} {s : State} {p : Proc} (h : Ready eXrd x s p) :
    let a := p.xacc x.a.toNat
    exec (.xrdSt x) s = .next (s.after eXrd x p fun q => q.wrOp x.d.toNat
      ((BitVec.ofBool a.nan ++ BitVec.ofBool a.ninf ++ BitVec.ofBool a.pinf ++ BitVec.ofBool a.loss ++ BitVec.ofBool a.ovf).setWidth 64)) :=
  settle_ret_ready h (congrArg (envOf eXrd x s s.cur p).ret (xrdSt_bits _ _ _ _ _))

theorem exec_xrdWd {x : Args} {s : State} {p : Proc} (h : Ready eXrd x s p) :
    exec (.xrdWd x) s = .next (s.after eXrd x p fun q =>
      q.wrOp x.d.toNat ((p.xacc x.a.toNat).v.extractLsb' (64 * (mN x / 4 % 8)) 64)) :=
  settle_ret_ready h rfl

/-! ### O47 -/

/-- Settles O47: each instruction by the lemma that says once what it does. -/
theorem tileRegisters : Obligations.TileRegisters := by
  intro x s p d y f b c mode
  refine ⟨exec_tcfg, fun h => ⟨exec_tzr h 0, exec_tzr h 1, exec_tzr h 2⟩,
    fun hi => ⟨fun h hl => exec_trd h hi hl, ?_, fun r hr h hl => exec_slice_fault hi hl r hr h⟩,
    fun h => ⟨exec_txp_fault h, ?_⟩, ?_, exec_tbs_fault, ?_, exec_xaccW, fun h _ => exec_xaccV h, fun a w0 w1 => addPair_exact a,
    fun h => ⟨exec_xrd h, exec_xrdSt h, exec_xrdWd h⟩⟩
  · intro h hl
    exact ⟨_, _, exec_twr h hi hl, fun k hk => extractLsb'_putSlice _ _ _ (by omega), fun k hk => extractLsb'_putSlice _ _ _ (by omega)⟩
  · intro hf h1 h11
    have h10 : f ≤ 10 := by omega
    refine ⟨_, exec_txp h hf h1 h11, hf, rfl, fun i hi j hj => ?_⟩
    exact (raw_yRows h10 _ hi hj).trans (Nat.mod_eq_of_lt (transposed_lt h10 _ _ _))
  · intro h h2 h10 hs blk base int scales src conv cond hb hc
    exact ⟨tcvtBuf x p, exec_tcvt h hs hb hc, rfl, rfl, fun r hr k hk =>
      (raw_tcvtBuf h2 h10 hr hk).trans (by rw [tcvtAt, apply_ite FRes.bits]; rfl)⟩
  · intro em h hi he hf hs nb bs scales
    exact ⟨_, exec_tbs h hi he hf hs, fun i => extractLsb'_pairVec _⟩

end Sys2Proof.Proofs.Arithmetic
end

section
/-! The family of arithmetic, seventh part: the events of groups and of hardware barriers (O41). -/

namespace Sys2Proof.Proofs.Arithmetic

open Sys2Proof Sys2Proof.Machine

/-! ### Messages: only the dies and the numbering change -/

/-- `t` is `s` but for its dies and the next sequence number: messages have left. -/
def SentOut (s t : State) : Prop := ∃ dies seq, t = { s with dies := dies, seq := seq }

theorem SentOut.refl (s : State) : SentOut s s := ⟨s.dies, s.seq, rfl⟩

theorem SentOut.trans {s t u : State} (h : SentOut s t) (h' : SentOut t u) : SentOut s u := by
  obtain ⟨d, q, rfl⟩ := h
  obtain ⟨d', q', rfl⟩ := h'
  exact ⟨d', q', rfl⟩

theorem sentOut_modDie (s : State) (n : Nat) (f : Die → Die) : SentOut s (s.modDie n f) := ⟨_, s.seq, rfl⟩

theorem sentOut_foldl {α : Type} (f : State → α → State) (hf : ∀ s a, SentOut s (f s a)) (l : List α) (s : State) :
    SentOut s (l.foldl f s) := by
  induction l generalizing s with
  | nil => exact .refl s
  | cons a l ih => exact (hf s a).trans (ih _)

theorem sentOut_outbound (s : State) (die : Nat) (m : OutMsg) : SentOut s (s.outbound die m).2 := ⟨_, s.seq, rfl⟩

theorem sentOut_sendToken (s : State) (ctx dev : Nat) (r : List Nat) : SentOut s (s.sendToken ctx dev r) := sentOut_outbound _ _ _

theorem sentOut_sendCopy (s : State) (k : GPacket) (bs : List Byte) (dev ddie : Nat) : SentOut s (s.sendCopy k bs dev ddie) :=
  SentOut.trans ⟨s.dies, _, rfl⟩ (sentOut_foldl _ (fun t _ => sentOut_outbound t _ _) _ _)

theorem sentOut_copies (s : State) (k : GPacket) (bs : List Byte) (l : List (Nat × Nat)) :
    SentOut s (l.foldl (fun s d => s.sendCopy k bs d.1 d.2) s) := sentOut_foldl _ (fun t _ => sentOut_sendCopy t _ _ _ _) _ _

theorem sentOut_countLeft (s : State) (ctx n : Nat) (dies : List Nat) : SentOut s (s.countLeft ctx n dies) :=
  sentOut_foldl _ (fun t _ => sentOut_modDie t _ _) _ _

theorem SentOut.gpackets {s t : State} (h : SentOut s t) : t.gpackets = s.gpackets := by
  obtain ⟨d, q, rfl⟩ := h; rfl

theorem SentOut.sameMemory {s t u : State} (h : SentOut t u) (hs : SameMemory s t) : SameMemory s u := by
  obtain ⟨d, q, rfl⟩ := h; exact hs

/-! ### A context or a barrier changed, and read -/

theorem ctx_modCtx (s : State) (n m : Nat) (f : Ctx → Ctx) : (s.modCtx n f).ctx m = if m = n then f (s.ctx n) else s.ctx m :=
  tblGetD_set _ _ _ _ _

@[simp] theorem ctx_modCtx_self (s : State) (n : Nat) (f : Ctx → Ctx) : (s.modCtx n f).ctx n = f (s.ctx n) := by
  rw [ctx_modCtx, if_pos rfl]

@[simp] theorem group_modGroup_self (s : State) (n e : Nat) (f : Group → Group) : (s.modGroup n e f).group n e = f (s.group n e) := by
  rw [State.group, State.modGroup, ctx_modCtx_self]
  exact tblGetD_set_self _ _ _ _

@[simp] theorem bar_modBar_self (s : State) (c b : Nat) (f : Barrier → Barrier) : (s.modBar c b f).bar c b = f (s.bar c b) := by
  rw [State.bar, State.modBar, core_modCore_self]
  exact tblGetD_set_self _ _ _ _

theorem core_modCore (s : State) (n m : Nat) (f : Core → Core) : (s.modCore n f).core m = if m = n then f (s.core n) else s.core m := by
  unfold State.core State.modCore
  rw [tblGetD_set]
  rfl

/-! ### Processes that wake -/

/-- A process but for what its scheduling changes. -/
def unscheduled (p : Proc) : Proc := { p with st := .ready, stateSeq := 0, quantum := 0 }

theorem reg_unscheduled (p : Proc) (r : RName) : (unscheduled p).reg r = p.reg r := by cases r <;> rfl

/-- `t` is reached from `s` by processes waking: their scheduling changes, the queues of the cores, and the dirty dies of
contexts. -/
structure Woken (s t : State) : Prop where
  mem : t.mem = s.mem
  empty : t.empty = s.empty
  ecc : t.ecc = s.ecc
  gpackets : t.gpackets = s.gpackets
  gDone : t.gDone = s.gDone
  gContrib : t.gContrib = s.gContrib
  bars : ∀ c, (t.core c).bars = (s.core c).bars
  ctx : ∀ n, ∃ d, t.ctx n = { s.ctx n with dirty := d }
  proc : ∀ n, (t.proc n).map unscheduled = (s.proc n).map unscheduled

namespace Woken

theorem refl (s : State) : Woken s s := ⟨rfl, rfl, rfl, rfl, rfl, rfl, fun _ => rfl, fun _ => ⟨_, rfl⟩, fun _ => rfl⟩

theorem trans {s t u : State} (h : Woken s t) (h' : Woken t u) : Woken s u where
  mem := h'.mem.trans h.mem
  empty := h'.empty.trans h.empty
  ecc := h'.ecc.trans h.ecc
  gpackets := h'.gpackets.trans h.gpackets
  gDone := h'.gDone.trans h.gDone
  gContrib := h'.gContrib.trans h.gContrib
  bars := fun c => (h'.bars c).trans (h.bars c)
  ctx := fun n => by
    obtain ⟨d, hd⟩ := h.ctx n
    obtain ⟨d', hd'⟩ := h'.ctx n
    exact ⟨d', by rw [hd', hd]⟩
  proc := fun n => (h'.proc n).trans (h.proc n)

theorem sameMemory {s t : State} (h : Woken s t) : SameMemory s t := sameMemory_of_eq h.mem h.empty h.ecc

theorem bar {s t : State} (h : Woken s t) (c b : Nat) : t.bar c b = s.bar c b := by rw [State.bar, h.bars, State.bar]

theorem group {s t : State} (h : Woken s t) (n e : Nat) : t.group n e = s.group n e := by
  obtain ⟨d, hd⟩ := h.ctx n
  rw [State.group, hd, State.group]

theorem colls {s t : State} (h : Woken s t) (n : Nat) : (t.ctx n).colls = (s.ctx n).colls := by
  obtain ⟨d, hd⟩ := h.ctx n
  rw [hd]

theorem heldBack {s t : State} (h : Woken s t) (p : Proc) : t.heldBack p = s.heldBack p := by
  obtain ⟨d, hd⟩ := h.ctx p.ctx
  rw [State.heldBack, hd, State.heldBack]

/-- A process is there still, and differs in its scheduling only. -/
theorem some {s t : State} (h : Woken s t) {n : Nat} {p : Proc} (hp : s.proc n = some p) :
    ∃ q, t.proc n = some q ∧ unscheduled q = unscheduled p := by
  have := h.proc n
  rw [hp, Option.map_some, Option.map_eq_some_iff] at this
  exact this

end Woken

theorem proc_modProc (s : State) (n m : Nat) (f : Proc → Proc) :
    (s.modProc n f).proc m = if m = n then (s.proc n).map f else s.proc m := tblGet_mod _ _ _ _

theorem proc_modProc_self {s : State} {n : Nat} {p : Proc} (h : s.proc n = some p) (f : Proc → Proc) :
    (s.modProc n f).proc n = some (f p) := by rw [proc_modProc, if_pos rfl, h, Option.map_some]

theorem woken_modProc (s : State) (n : Nat) {f : Proc → Proc} (hf : ∀ p, unscheduled (f p) = unscheduled p) : Woken s (s.modProc n f) :=
  ⟨rfl, rfl, rfl, rfl, rfl, rfl, fun _ => rfl, fun _ => ⟨_, rfl⟩, fun m => by
    rw [proc_modProc]
    split
    · subst m
      rw [Option.map_map, show unscheduled ∘ f = unscheduled from funext hf]
    · rfl⟩

theorem woken_numbered (s : State) (n : Nat) : Woken s { s with seq := n } :=
  ⟨rfl, rfl, rfl, rfl, rfl, rfl, fun _ => rfl, fun _ => ⟨_, rfl⟩, fun _ => rfl⟩

theorem woken_enter (s : State) (pid : Nat) (st : PState) : Woken s (s.enter pid st) := by
  refine (woken_numbered s (s.seq + 1)).trans (woken_modProc _ pid fun _ => ?_)
  rfl

theorem woken_enqueue (s : State) (pid : Nat) (p : Proc) (atHead : Bool) : Woken s (s.enqueue pid p atHead) :=
  ⟨rfl, rfl, rfl, rfl, rfl, rfl, fun c => by rw [State.enqueue, core_modCore]; split <;> simp_all, fun _ => ⟨_, rfl⟩, fun _ => rfl⟩

theorem woken_dirty (s : State) (n : Nat) (f : Ctx → NSet) : Woken s (s.modCtx n fun c => { c with dirty := f c }) :=
  ⟨rfl, rfl, rfl, rfl, rfl, rfl, fun _ => rfl, fun m => by
    rw [ctx_modCtx]
    split
    · subst m; exact ⟨_, rfl⟩
    · exact ⟨_, rfl⟩, fun _ => rfl⟩

theorem woken_makeReady (s : State) (pid : Nat) : Woken s (s.makeReady pid) := by
  unfold State.makeReady
  split
  · exact .refl s
  · split
    · split
      · exact .refl s
      · exact woken_enter _ _ _
    · have restarted := (woken_enter s pid .ready).trans (woken_modProc _ pid (f := fun q => { q with quantum := 0 }) fun _ => rfl)
      exact (restarted.trans (woken_enqueue _ pid _ false)).trans (woken_dirty _ _ _)

theorem woken_wake (s : State) (pid : Nat) : Woken s (s.wake pid) := by
  unfold State.wake
  split
  · split
    · exact woken_makeReady s pid
    · exact .refl s
  · exact .refl s

theorem woken_recheck (s : State) (pid : Nat) : Woken s (s.recheck pid) := by
  unfold State.recheck
  split
  · split
    · split
      · exact woken_wake s pid
      · exact .refl s
    · exact .refl s
  · exact .refl s

theorem woken_recheckAll (s : State) : Woken s s.recheckAll := by
  have key : ∀ (l : List Nat) (t : State), Woken t (l.foldl State.recheck t) := by
    intro l
    induction l with
    | nil => exact fun t => .refl t
    | cons n l ih => exact fun t => (woken_recheck t n).trans (ih _)
  exact key _ s

/-- Waking leaves every other process alone. -/
theorem proc_wake_ne (s : State) {pid n : Nat} (h : n ≠ pid) : (s.wake pid).proc n = s.proc n := by
  have enter (t : State) (st : PState) : (t.enter pid st).proc n = t.proc n := by
    rw [State.enter, proc_modProc, if_neg h]; rfl
  unfold State.wake
  split
  · split
    · unfold State.makeReady
      split
      · rfl
      · split
        · split
          · rfl
          · exact enter _ _
        · exact ((proc_modProc _ pid n _).trans (if_neg h)).trans (enter _ _)
    · rfl
  · rfl

/-- A parked process that wakes is READY, or SUSPENDED where a hold remains (R218). -/
theorem proc_wake_parked {s : State} {pid : Nat} {p : Proc} (hp : s.proc pid = some p) (hst : p.st.isParked = true) :
    ∃ q, (s.wake pid).proc pid = some q ∧ unscheduled q = unscheduled p ∧ q.st = if s.heldBack p then .suspended else .ready := by
  have hne : (p.st == .suspended) = false := by cases hp : p.st <;> simp_all [PState.isParked]
  have enter (st : PState) : (s.enter pid st).proc pid = some { p with st := st, stateSeq := s.seq } :=
    proc_modProc_self (s := { s with seq := s.seq + 1 }) hp _
  simp only [State.wake, hp, hst, if_true, State.makeReady]
  by_cases hh : s.heldBack p
  · simp only [hh, hne, if_true, Bool.false_eq_true, if_false]
    exact ⟨_, enter _, rfl, rfl⟩
  · simp only [hh, Bool.false_eq_true, if_false]
    exact ⟨_, proc_modProc_self (enter _) _, rfl, rfl⟩

end Sys2Proof.Proofs.Arithmetic
end

section
/-! The family of arithmetic, eighth part: the events of the Diffuser and of hardware barriers (O41). -/

namespace Sys2Proof.Proofs.Arithmetic

open Sys2Proof Sys2Proof.Machine

/-! ### The end of an engine operation (R147) -/

theorem modProc_modProc (s : State) (n : Nat) (f g : Proc → Proc) : (s.modProc n f).modProc n g = s.modProc n fun p => g (f p) := by
  simp only [State.modProc]
  congr 1
  cases h : tblGet s.procs n with
  | none => rw [tblMod_none f h, tblMod_none g h, tblMod_none _ h]
  | some p => rw [tblMod_some f h, tblMod_some _ (tblGet_set_self _ _ _), tblMod_some _ h, tblSet_set]

/-- A process whose engine operation has ended: the copy counter falls, and the status register takes the word. -/
def copyEndedOf (dest : Option RName) (v : Word) (p : Proc) : Proc :=
  match dest with
  | none => { p with cCopy := p.cCopy - 1 }
  | some r => Proc.land { p with cCopy := p.cCopy - 1 } r v

theorem woken_endCopy (s : State) (pid : Nat) (dest : Option RName) (cause bytes : Nat) :
    Woken (s.modProc pid (copyEndedOf dest (statusWord cause bytes))) (s.endCopy pid dest cause bytes) := by
  cases dest with
  | none => exact woken_recheck _ pid
  | some r =>
    refine Woken.trans ?_ (woken_recheck _ pid)
    rw [State.landReg, modProc_modProc]
    exact woken_recheck _ pid

theorem copyEndedOf_cCopy (dest : Option RName) (v : Word) (p : Proc) : (copyEndedOf dest v p).cCopy = p.cCopy - 1 := by
  cases dest with
  | none => rfl
  | some r => simp only [copyEndedOf, Proc.land]; rw [Proc.wr_shape]

theorem landed_copyEndedOf (dest : Option RName) (v : Word) (p : Proc) : Spec.Landed (copyEndedOf dest v p) dest v := by
  rintro r rfl hr
  refine ⟨?_, ?_, ?_⟩
  · have : (copyEndedOf (some r) v p).reg r = (Proc.wr { p with cCopy := p.cCopy - 1 } r v).reg r := by cases r <;> rfl
    rw [this, Proc.reg_wr _ _ _ _ hr, if_pos rfl]
  · have : (copyEndedOf (some r) v p).full r = (Proc.wr { p with cCopy := p.cCopy - 1 } r v).full r := rfl
    rw [this, Proc.full_wr]; simp
  · simp [copyEndedOf, Proc.land]

/-- What has landed has landed however the process is scheduled. -/
theorem landed_unscheduled {p q : Proc} (h : unscheduled q = unscheduled p) {dest : Option RName} {v : Word} (hl : Spec.Landed p dest v) :
    Spec.Landed q dest v := fun r hr hp => by
  obtain ⟨hreg, hfull, hpend⟩ := hl r hr hp
  refine ⟨?_, ?_, ?_⟩
  · rw [← reg_unscheduled q, h, reg_unscheduled, hreg]
  · have : (unscheduled q).full r = (unscheduled p).full r := by rw [h]
    exact this.trans hfull
  · have : (unscheduled q).pending = (unscheduled p).pending := by rw [h]
    exact (congrArg (fun l : List RName => l.contains r) this).trans hpend

/-! ### A copy lands (R320) -/

/-- A store above HBM changes the bytes and the marks of memory only. -/
theorem write_above {s : State} {a : Nat} (h : 2 ^ 40 ≤ a) (bs : List Byte) :
    ∃ ecc, s.write a bs = { s with mem := memWrite s.mem a bs, ecc := ecc } := by
  rw [State.write, if_neg (not_lt.2 h)]
  exact ⟨_, rfl⟩

/-- A packet of which nothing is left to land. -/
def landedAll (k : GPacket) (bs : List Byte) : GPacket :=
  { k with bytes := some bs, targets := [], dies := [], fails := [], far := 0, home := none }

/-- The last copy of a packet lands. -/
theorem exec_lastCopy {s w : State} {k : GPacket} {rest : List GPacket} {bs : List Byte} {core : Nat} (hg : s.gpackets = k :: rest)
    (hb : k.bytes = some bs) (ht : k.targets = [core]) (hd : k.dies = []) (hf : k.far = 0) (hh : k.home = none) (hdsp : k.dsp = false)
    (hbar : k.bar = none) (hfail : k.fails = []) (hlen : k.off + k.count ≤ (s.ctx k.ctx).tlen)
    (hw : s.write (Spec.windowAt s core k.ctx 0 k.off) bs = w) :
    exec (.gsendCopyLand 0) s = .next ((({ w with gpackets := listSet w.gpackets 0 (landedAll k bs) } : State).drained1 k.ctx k.entry).endPacket
      (landedAll k bs) 0 k.count).recheckAll := by
  show execGsendCopyLand 0 s = _
  have hland : s.landCopy k bs core = (w, none) := by
    simp [State.landCopy, hdsp, hbar, not_lt.2 hlen, State.windowPA, spLocal, ← hw, Spec.windowAt, State.localPA, coreCluster]
  simp [execGsendCopyLand, hg, hb, ht, hland, hfail, State.packetDone, hd, hf, hh]
  rfl

/-- The process and the packets when a packet has left with cause 0, before any process is checked again. -/
theorem woken_endPacket (s : State) (k : GPacket) {p : Proc} {o : Op} (hp : s.proc k.pid = some p) (ho : tblGet p.ops k.tok = some o)
    (cause bytes : Nat) :
    Woken (({ s with gpackets := s.gpackets.filter fun x => x.tok != k.tok } : State).modProc k.pid fun q =>
      copyEndedOf o.dest (statusWord cause bytes) { q with ops := tblErase q.ops k.tok }) (s.endPacket k cause bytes) := by
  have := woken_endCopy (({ s with gpackets := s.gpackets.filter fun x => x.tok != k.tok } : State).modProc k.pid fun q =>
    { q with ops := tblErase q.ops k.tok }) k.pid o.dest cause bytes
  rw [modProc_modProc] at this
  rw [State.endPacket, hp]
  simpa [ho] using this

theorem packet_leaves {s : State} {k : GPacket} {rest : List GPacket} {bs : List Byte} {core : Nat} {p : Proc} {o : Op}
    (hg : s.gpackets = k :: rest) (hrest : ∀ q ∈ rest, q.tok ≠ k.tok) (hb : k.bytes = some bs) (ht : k.targets = [core]) (hd : k.dies = [])
    (hf : k.far = 0) (hh : k.home = none) (hdsp : k.dsp = false) (hbar : k.bar = none) (hn : bs.length = k.count) (hfail : k.fails = [])
    (hlen : k.off + k.count ≤ (s.ctx k.ctx).tlen) (hwf : s.wf = true) (hp : s.proc k.pid = some p) (ho : tblGet p.ops k.tok = some o) :
    let dst := Spec.windowAt s core k.ctx 0 k.off
    ∃ t q, exec (.gsendCopyLand 0) s = .next t ∧ t.read dst k.count = bs ∧ OnlyBytes s t dst k.count ∧ t.gpackets = rest ∧
      t.proc k.pid = some q ∧ q.cCopy = p.cCopy - 1 ∧ Spec.Landed q o.dest (BitVec.ofNat 64 (k.count % 2 ^ 40)) := by
  intro dst
  have hdst : 2 ^ 40 ≤ dst := by
    show 2 ^ 40 ≤ tcmPA _ _ _
    unfold tcmPA; omega
  obtain ⟨ecc, hw⟩ := write_above (s := s) hdst bs
  let w : State := { s with mem := memWrite s.mem dst bs, ecc := ecc }
  let landed := ({ w with gpackets := listSet s.gpackets 0 (landedAll k bs) } : State).drained1 k.ctx k.entry
  have hproc : landed.proc (landedAll k bs).pid = some p := hp
  have woken := (woken_endPacket landed (landedAll k bs) hproc ho 0 k.count).trans (woken_recheckAll _)
  have hex : exec (.gsendCopyLand 0) s = .next (landed.endPacket (landedAll k bs) 0 k.count).recheckAll :=
    exec_lastCopy hg hb ht hd hf hh hdsp hbar hfail hlen hw
  generalize (landed.endPacket (landedAll k bs) 0 k.count).recheckAll = t at hex woken
  have hmem : t.mem = memWrite s.mem dst bs := woken.mem
  have hread : memRead (memWrite s.mem dst bs) dst k.count = bs := hn ▸ memRead_write_self dst bs hwf
  obtain ⟨q, hq, hsame⟩ := woken.some (proc_modProc_self hproc _)
  refine ⟨t, q, hex, ?_, fun c hc => ?_, ?_, hq, ?_, ?_⟩
  · rw [State.read, hmem, hread]
  · rw [hmem, memByte_write dst c bs hwf, if_neg (by omega)]
  · refine woken.gpackets.trans ?_
    show (listSet s.gpackets 0 (landedAll k bs)).filter (fun x => x.tok != k.tok) = rest
    rw [hg, listSet, List.filter_cons_of_neg (by simp [landedAll]), List.filter_eq_self]
    exact fun x hx => by simpa using hrest x hx
  · exact (congrArg Proc.cCopy hsame).trans (copyEndedOf_cCopy _ _ _)
  · have hword : statusWord 0 k.count = BitVec.ofNat 64 (k.count % 2 ^ 40) := by simp [statusWord]
    exact landed_unscheduled hsame (hword ▸ landed_copyEndedOf _ _ _)

/-! ### A packet is accepted (R320) -/

/-- The source is read once and the members are those of the group now; the copies that leave change nothing of it. -/
theorem packet_accepted {s : State} {k : GPacket} {rest : List GPacket} {p : Proc} (hg : s.gpackets = k :: rest) (hb : k.bytes = none)
    (hp : s.proc k.pid = some p) (hst : Spec.ctxSt s k.ctx ≠ .draining) (hsb : (s.core p.core).sb = []) (hops : p.ops = [])
    (htile : s.tileStoresBefore k.pid p.core k.tok = false)
    (hlink : (s.ctx k.ctx).lkHard = true ∨ ∀ d, s.lkOut d k.ctx = false)
    (hword : s.badWord (Spec.windowAt s p.core k.ctx k.space k.src) k.count = none) :
    ∃ t q, exec (.diffuserPacketAccept 0) s = .next t ∧ t.gpackets = q :: rest ∧
      q.bytes = some (s.read (Spec.windowAt s p.core k.ctx k.space k.src) k.count) ∧ q.tok = k.tok ∧
      q.first = (s.group k.ctx k.entry).first ∧ q.stride = (s.group k.ctx k.entry).stride ∧
      q.members = (s.group k.ctx k.entry).count ∧ SameMemory s t := by
  have hpa : s.windowPA p.core k.ctx k.space k.src = Spec.windowAt s p.core k.ctx k.space k.src := rfl
  have hsbd : s.sbDone p.core k.sb = true := by simp [State.sbDone, hsb]
  have hopd : p.opsDone k.toks = true := by simp [Proc.opsDone, hops, tblGet]
  have hlk : (!(s.ctx k.ctx).lkHard && (s.diesToIo k.die (ioOf (s.die k.die).phys)).any fun d => s.lkOut d k.ctx) = false := by
    rcases hlink with h | h <;> simp [h]
  have hex : exec (.diffuserPacketAccept 0) s = execDiffuserPacketAccept 0 s := rfl
  simp only [execDiffuserPacketAccept, hg, List.getElem?_cons_zero, hp, hb, Option.isSome_none, List.take_zero, List.any_nil, Bool.or_self,
    Bool.false_eq_true, if_false, beq_eq_false_iff_ne.2 hst, hsbd, hopd, htile, Bool.not_true, hlk, hpa, hword] at hex
  have left := sentOut_countLeft (s.modGroup k.ctx k.entry fun g => { g with draining := g.draining + 1 }) k.ctx (s.packetBytes k.die k.count)
    (s.diesToIo k.die (ioOf (s.die k.die).phys))
  exact ⟨_, _, hex, (sentOut_copies _ _ _ _).gpackets.trans (congrArg (listSet · 0 _) (left.gpackets.trans hg)), rfl, rfl, rfl, rfl, rfl,
    (sentOut_copies _ _ _ _).sameMemory (left.sameMemory (sameMemory_of_eq rfl rfl rfl))⟩

/-! ### Groups and barriers (R318, R329, R332) -/

theorem gsw_drained {s : State} {ctx entry : Nat} (h3 : (s.group ctx entry).state = 3) (hc : (s.ctx ctx).colls = []) (hg : s.gpackets = []) :
    ∃ t, exec (.gswDrainComplete ctx entry) s = .next t ∧ (t.group ctx entry).state = 2 ∧ SameMemory s t := by
  have woken := woken_recheckAll (s.modGroup ctx entry fun g => { g with state := 2 })
  refine ⟨_, ?_, ?_, woken.sameMemory⟩
  · exact if_pos (by simp [h3, hc, hg])
  · rw [woken.group, group_modGroup_self]

theorem lastArrival {s : State} {i ctx entry b core : Nat} {cores got : List Nat} (hi : s.gArrive[i]? = some (ctx, entry, b, core))
    (hh : s.combinesHere ctx = true) (hw : tblGet (s.ctx ctx).gbars (256 * b + entry) = some (cores, got))
    (hall : ∀ c ∈ cores, c = core ∨ c ∈ got) :
    ∃ t, exec (.groupBarrierArrival i) s = .next t ∧ t.gDone = s.gDone ++ cores.map (fun c => (ctx, entry, b, c)) ∧
      t.gArrive = s.gArrive.eraseIdx i ∧ SameMemory s t := by
  have hex : exec (.groupBarrierArrival i) s = execGroupBarrierArrival i s := rfl
  simp only [execGroupBarrierArrival, hi] at hex
  have hw' : ∀ d, (tblGet (s.ctx ctx).gbars (256 * b + entry)).getD d = (cores, got) := fun d => by rw [hw]; rfl
  have hhere : ¬(!s.combinesHere ctx) = true := by simp [hh]
  have hlast : ∀ w, w = (cores, got) → (w.1.all (core :: w.2).contains) = true := by rintro _ rfl; simpa using hall
  exact ⟨_, hex.trans ((if_neg hhere).trans (if_pos (hlast _ (hw' _)))),
    congrArg (fun w => s.gDone ++ List.map (fun c => (ctx, entry, b, c)) w.1) (hw' _), rfl,
    sameMemory_of_eq rfl rfl rfl⟩

theorem completion_arrives {s : State} {i ctx entry b core : Nat} (hi : s.gDone[i]? = some (ctx, entry, b, core)) (hc : core < 2048)
    (hb : (s.bar core b).state = 2) :
    ∃ t, exec (.groupBarrierCompletion i) s = .next t ∧ t.gDone = s.gDone.eraseIdx i ∧ t.bar core b = Spec.nextGen (s.bar core b) ∧
      SameMemory s t := by
  have woken := woken_recheckAll (({ s with gDone := s.gDone.eraseIdx i } : State).modBar core b fun x =>
    { x with gen := (x.gen + 1) % 2 ^ 16, count := 0, state := if x.auto then 1 else 3, ovr := x.ovr || false })
  refine ⟨_, ?_, woken.gDone, ?_, woken.sameMemory⟩
  · show execGroupBarrierCompletion i s = _
    simp only [execGroupBarrierCompletion, hi]
    exact (if_neg (not_le.2 hc)).trans (if_pos hb)
  · rw [woken.bar, bar_modBar_self, Bool.or_false]
    rfl

end Sys2Proof.Proofs.Arithmetic
end

section
/-! The family of arithmetic, ninth part: collective reduction (O41). -/

namespace Sys2Proof.Proofs.Arithmetic

open Sys2Proof Sys2Proof.Machine

/-! ### A member receives its result (R324) -/

/-- Memory, the contributions on their way, and every context but for its dirty dies are in `t` as in `s`. -/
structure Kept (s t : State) : Prop where
  mem : t.mem = s.mem
  empty : t.empty = s.empty
  ecc : t.ecc = s.ecc
  gContrib : t.gContrib = s.gContrib
  ctx : ∀ n, ∃ d, t.ctx n = { s.ctx n with dirty := d }

namespace Kept

theorem refl (s : State) : Kept s s := ⟨rfl, rfl, rfl, rfl, fun _ => ⟨_, rfl⟩⟩

theorem trans {s t u : State} (h : Kept s t) (h' : Kept t u) : Kept s u where
  mem := h'.mem.trans h.mem
  empty := h'.empty.trans h.empty
  ecc := h'.ecc.trans h.ecc
  gContrib := h'.gContrib.trans h.gContrib
  ctx := fun n => by
    obtain ⟨d, hd⟩ := h.ctx n
    obtain ⟨d', hd'⟩ := h'.ctx n
    exact ⟨d', by rw [hd', hd]⟩

theorem colls {s t : State} (h : Kept s t) (n : Nat) : (t.ctx n).colls = (s.ctx n).colls := by
  obtain ⟨d, hd⟩ := h.ctx n
  rw [hd]

theorem heldBack {s t : State} (h : Kept s t) (p : Proc) : t.heldBack p = s.heldBack p := by
  obtain ⟨d, hd⟩ := h.ctx p.ctx
  rw [State.heldBack, hd, State.heldBack]

end Kept

theorem kept_modProc (s : State) (n : Nat) (f : Proc → Proc) : Kept s (s.modProc n f) := ⟨rfl, rfl, rfl, rfl, fun _ => ⟨_, rfl⟩⟩

theorem kept_wake (s : State) (pid : Nat) : Kept s (s.wake pid) :=
  have h := woken_wake s pid
  ⟨h.mem, h.empty, h.ecc, h.gContrib, h.ctx⟩

/-- The value that a collective gives (R324). -/
def resultWord (c : Collective) : Word := if c.key.ty < 8 then extTy c.key.ty c.result.1 else BitVec.ofNat 64 c.result.1

/-- A member that has received its result, or its fault. -/
def given (c : Collective) (p : Proc) : Proc :=
  if c.mismatch then { p with wakeFault := some { cause := 40 } }
  else match trapCause p.fpc c.result.2 with
    | some k => { p.raiseFlags c.result.2 with wakeFault := some { cause := k } }
    | none => { p.raiseFlags c.result.2 with wakeVal := some (resultWord c) }

theorem given_mismatch {c : Collective} (h : c.mismatch = true) (p : Proc) :
    given c p = { p with wakeFault := some { cause := 40 } } := if_pos h

theorem given_trap {c : Collective} (h : c.mismatch = false) {p : Proc} {k : Nat} (ht : trapCause p.fpc c.result.2 = some k) :
    given c p = { p.raiseFlags c.result.2 with wakeFault := some { cause := k } } := by
  rw [given, if_neg (by simp [h]), ht]

theorem given_value {c : Collective} (h : c.mismatch = false) {p : Proc} (ht : trapCause p.fpc c.result.2 = none) :
    given c p = { p.raiseFlags c.result.2 with wakeVal := some (resultWord c) } := by
  rw [given, if_neg (by simp [h]), ht]

theorem given_fpc {c : Collective} (h : c.mismatch = false) (p : Proc) : (given c p).fpc = (p.raiseFlags c.result.2).fpc := by
  cases ht : trapCause p.fpc c.result.2 with
  | some k => rw [given_trap h ht]
  | none => rw [given_value h ht]

/-- What a result leaves: the hold of the process and its state. -/
theorem given_frame (c : Collective) (p : Proc) : (given c p).ctx = p.ctx ∧ (given c p).halt = p.halt ∧ (given c p).st = p.st := by
  unfold given
  split
  · exact ⟨rfl, rfl, rfl⟩
  · split <;> exact ⟨rfl, rfl, rfl⟩

theorem heldBack_given (s : State) (c : Collective) (p : Proc) : s.heldBack (given c p) = s.heldBack p := by
  obtain ⟨hctx, hhalt, -⟩ := given_frame c p
  rw [State.heldBack, hctx, hhalt, State.heldBack]

theorem modProc_const {s : State} {n : Nat} {p : Proc} (hp : s.proc n = some p) (f : Proc → Proc) :
    s.modProc n f = s.modProc n fun _ => f p := by
  simp only [State.modProc, tblMod_some _ hp]

/-- A member that waits for its result receives it and wakes. -/
theorem giveResult_waiting {s : State} {c : Collective} {m : Contrib} {p : Proc} {r : Reason} {since : Nat} (hp : s.proc m.pid = some p)
    (hst : p.st = .parked r (.collective c.entry c.index) since) :
    s.giveResult c m = (s.modProc m.pid fun _ => given c p).wake m.pid := by
  cases hm : c.mismatch with
  | true =>
    rw [given_mismatch hm, ← modProc_const hp fun q => { q with wakeFault := some { cause := 40 } }]
    simp [State.giveResult, hp, hst, hm, State.wakeWith]
  | false =>
    cases ht : trapCause p.fpc c.result.2 with
    | some k =>
      rw [given_trap hm ht, ← modProc_const hp fun q => { q.raiseFlags c.result.2 with wakeFault := some { cause := k } }]
      simp [State.giveResult, hp, hst, hm, ht, State.wakeWith, modProc_modProc]
    | none =>
      rw [given_value hm ht, ← modProc_const hp fun q => { q.raiseFlags c.result.2 with wakeVal := some (resultWord c) }]
      simp [State.giveResult, hp, hst, hm, ht, modProc_modProc, resultWord]

theorem kept_giveResult (s : State) (c : Collective) (m : Contrib) : Kept s (s.giveResult c m) := by
  unfold State.giveResult
  split
  · exact .refl s
  · split
    · split
      · exact .refl s
      · split
        · exact (kept_modProc _ _ _).trans (kept_wake _ _)
        · dsimp only
          split <;> exact ((kept_modProc _ _ _).trans (kept_modProc _ _ _)).trans (kept_wake _ _)
    · exact .refl s

theorem proc_modProc_ne (s : State) {n m : Nat} (f : Proc → Proc) (h : m ≠ n) : (s.modProc n f).proc m = s.proc m := by
  rw [proc_modProc, if_neg h]

theorem proc_giveResult_ne (s : State) (c : Collective) {m : Contrib} {n : Nat} (h : n ≠ m.pid) : (s.giveResult c m).proc n = s.proc n := by
  unfold State.giveResult
  split
  · rfl
  · split
    · split
      · rfl
      · split
        · exact (proc_wake_ne _ h).trans (proc_modProc_ne _ _ h)
        · dsimp only
          split <;> exact ((proc_wake_ne _ h).trans (proc_modProc_ne _ _ h)).trans (proc_modProc_ne _ _ h)
    · rfl

/-- `t` is `s` after the process `p` of member `m` has received its result. -/
def Received (s t : State) (c : Collective) (m : Contrib) (p : Proc) : Prop :=
  ∃ q, t.proc m.pid = some q ∧ unscheduled q = unscheduled (given c p) ∧ q.st = if s.heldBack p then .suspended else .ready

theorem received_giveResult {s : State} {c : Collective} {m : Contrib} {p : Proc} {r : Reason} {since : Nat} (hp : s.proc m.pid = some p)
    (hst : p.st = .parked r (.collective c.entry c.index) since) : Received s (s.giveResult c m) c m p := by
  have hpark : (given c p).st.isParked = true := by
    obtain ⟨-, -, hkeep⟩ := given_frame c p
    rw [hkeep, hst]; rfl
  obtain ⟨q, hq, hsame, hqst⟩ := proc_wake_parked (proc_modProc_self hp fun _ => given c p) hpark
  rw [(kept_modProc _ _ _).heldBack, heldBack_given] at hqst
  exact ⟨q, by rw [giveResult_waiting hp hst]; exact hq, hsame, hqst⟩

/-- Every member that waits receives its result, whatever the others do. -/
theorem foldl_giveResult (c : Collective) (l : List Contrib) (hl : (l.map (·.pid)).Nodup) (s : State) :
    let t := l.foldl (fun s m => s.giveResult c m) s
    Kept s t ∧ (∀ n, n ∉ l.map (·.pid) → t.proc n = s.proc n) ∧
      ∀ m ∈ l, ∀ p r since, s.proc m.pid = some p → p.st = .parked r (.collective c.entry c.index) since → Received s t c m p := by
  induction l generalizing s with
  | nil => exact ⟨.refl s, fun _ _ => rfl, by simp⟩
  | cons a l ih =>
    rw [List.map_cons, List.nodup_cons] at hl
    obtain ⟨hkept, hother, hrec⟩ := ih hl.2 (s.giveResult c a)
    have hfirst := kept_giveResult s c a
    refine ⟨hfirst.trans hkept, fun n hn => ?_, fun m hm p r since hp hst => ?_⟩
    · rw [List.map_cons, List.mem_cons, not_or] at hn
      exact (hother n hn.2).trans (proc_giveResult_ne s c hn.1)
    · rcases List.mem_cons.1 hm with rfl | hm
      · obtain ⟨q, hq, hq'⟩ := received_giveResult hp hst
        exact ⟨q, (hother _ hl.1).trans hq, hq'⟩
      · have hne : m.pid ≠ a.pid := fun h => hl.1 (h ▸ List.mem_map_of_mem hm)
        obtain ⟨q, hq, hsame, hqst⟩ := hrec m hm p r since ((proc_giveResult_ne s c hne).trans hp) hst
        exact ⟨q, hq, hsame, by rw [hqst, hfirst.heldBack]⟩

/-! ### A contribution joins its instance (R324) -/

/-- A collective after a contribution with a key has joined it. -/
def withPart (c : Collective) (key : RedKey) (m : Contrib) : Collective :=
  { c with parts := c.parts ++ [m], mismatch := c.mismatch || c.key != key }

/-- Every member of the collective has contributed. -/
def complete (c : Collective) : Bool := (memberRanks c.first c.stride c.count).all fun r => c.parts.any fun m => m.rank == r

theorem complete_iff (c : Collective) : complete c = true ↔ ∀ r ∈ memberRanks c.first c.stride c.count, ∃ m ∈ c.parts, m.rank = r := by
  simp [complete]

/-- A collective that has joined: it waits among `rest`, or gives every member its result. -/
def settleColl (s : State) (ctx entry : Nat) (rest : List Collective) (c : Collective) : State :=
  if complete c then c.parts.foldl (fun s m => s.giveResult c m) ((s.modCtx ctx fun x => { x with colls := rest }).drained1 ctx entry)
  else s.modCtx ctx fun x => { x with colls := rest ++ [c] }

/-- The first contribution to an instance opens it with the members that the group has. -/
def openColl (g : Group) (entry n : Nat) (key : RedKey) : Collective :=
  { entry := entry, index := n, first := g.first, stride := g.stride, count := g.count, gen := g.gen, key := key }

theorem exec_contribution {s : State} {i ctx entry n : Nat} {key : RedKey} {m : Contrib} (hi : s.gContrib[i]? = some (ctx, entry, n, key, m))
    (hst : Spec.ctxSt s ctx ≠ .draining) :
    ∃ w, SentOut { s with gContrib := s.gContrib.eraseIdx i } w ∧
      ((s.ctx ctx).colls = [] → exec (.gredContributionArrival i) s =
        .next (settleColl (w.modGroup ctx entry fun g => { g with draining := g.draining + 1 }) ctx entry []
          (withPart (openColl (s.group ctx entry) entry n key) key m))) ∧
      ∀ c, (s.ctx ctx).colls = [c] → c.entry = entry → c.index = n → exec (.gredContributionArrival i) s =
        .next (settleColl w ctx entry [] (withPart c key m)) := by
  have hex : exec (.gredContributionArrival i) s = execGredContributionArrival i s := rfl
  have hdrain : ¬((s.ctx ctx).st == .draining) = true := by simpa using hst
  simp only [execGredContributionArrival, hi] at hex
  replace hex := hex.trans (if_neg hdrain)
  set w : State := if m.pid = 0 then { s with gContrib := s.gContrib.eraseIdx i } else _ with hw
  have hout : SentOut { s with gContrib := s.gContrib.eraseIdx i } w := by
    rw [hw]
    split
    · exact .refl _
    · exact sentOut_foldl _ (fun t d => sentOut_sendToken t _ _ _) _ _
  clear_value w
  clear hw
  have hcolls : (w.ctx ctx).colls = (s.ctx ctx).colls := by obtain ⟨dies, seq, rfl⟩ := hout; rfl
  have hgroup : w.group ctx entry = s.group ctx entry := by obtain ⟨dies, seq, rfl⟩ := hout; rfl
  refine ⟨w, hout, fun hc => ?_, fun c hc he hn => ?_⟩
  · simp only [hcolls, hc, hgroup, List.find?_nil, Option.getD_none, Option.isSome_none, Bool.false_eq_true, if_false, List.filter_nil] at hex
    rw [hex, settleColl, apply_ite Host.Outcome.next]
    rfl
  · have hfind : [c].find? (fun c => c.entry == entry && c.index == n) = some c := by simp [he, hn]
    have hrest : [c].filter (fun c => !(c.entry == entry && c.index == n)) = [] := by simp [he, hn]
    simp only [hcolls, hc, hfind, hrest, Option.getD_some, Option.isSome_some, if_true] at hex
    rw [hex, settleColl, apply_ite Host.Outcome.next]
    rfl

theorem heldBack_modCtx (s : State) (n : Nat) {f : Ctx → Ctx} (hf : ∀ c, (f c).st = c.st) (p : Proc) :
    (s.modCtx n f).heldBack p = s.heldBack p := by
  rw [State.heldBack, ctx_modCtx, State.heldBack]
  split
  · rw [hf, ‹p.ctx = n›]
  · rfl

theorem heldBack_modGroup (s : State) (n e : Nat) (f : Group → Group) (p : Proc) : (s.modGroup n e f).heldBack p = s.heldBack p := by
  refine heldBack_modCtx s n ?_ p
  exact fun _ => rfl

/-- The context without its collectives, and one fewer to drain. -/
def withoutColls (w : State) (ctx entry : Nat) : State := (w.modCtx ctx fun x => { x with colls := [] }).drained1 ctx entry

theorem heldBack_withoutColls (w : State) (ctx entry : Nat) (p : Proc) : (withoutColls w ctx entry).heldBack p = w.heldBack p := by
  refine (heldBack_modGroup _ _ _ _ p).trans (heldBack_modCtx w ctx ?_ p)
  exact fun _ => rfl

theorem colls_withoutColls (w : State) (ctx entry : Nat) : ((withoutColls w ctx entry).ctx ctx).colls = [] := by
  simp only [withoutColls, State.drained1, State.modGroup, ctx_modCtx_self]

/-- The collective leaves its context, and every member that waits receives its result. -/
theorem settleColl_complete {w : State} {ctx entry : Nat} {c : Collective} (hc : complete c = true) (hnd : (c.parts.map (·.pid)).Nodup) :
    let t := settleColl w ctx entry [] c
    (t.ctx ctx).colls = [] ∧ t.gContrib = w.gContrib ∧ SameMemory w t ∧
      ∀ m ∈ c.parts, ∀ p r since, w.proc m.pid = some p → p.st = .parked r (.collective c.entry c.index) since → Received w t c m p := by
  intro t
  have ht : t = c.parts.foldl (fun s m => s.giveResult c m) (withoutColls w ctx entry) := if_pos hc
  obtain ⟨hkept, -, hrec⟩ := foldl_giveResult c c.parts hnd (withoutColls w ctx entry)
  rw [← ht] at hkept hrec
  refine ⟨(hkept.colls ctx).trans (colls_withoutColls w ctx entry), hkept.gContrib, sameMemory_of_eq hkept.mem hkept.empty hkept.ecc,
    fun m hm p r since hp hst => ?_⟩
  obtain ⟨q, hq, hsame, hqst⟩ := hrec m hm p r since hp hst
  exact ⟨q, hq, hsame, by rw [hqst, heldBack_withoutColls]⟩

/-- The wake-up fault and value of a process, and its flags, are not for its scheduling to change. -/
theorem unscheduled_fields {p q : Proc} (h : unscheduled q = unscheduled p) :
    q.wakeFault = p.wakeFault ∧ q.wakeVal = p.wakeVal ∧ q.fpc = p.fpc := by
  have hfault : (unscheduled q).wakeFault = (unscheduled p).wakeFault := by rw [h]
  have hval : (unscheduled q).wakeVal = (unscheduled p).wakeVal := by rw [h]
  have hfpc : (unscheduled q).fpc = (unscheduled p).fpc := by rw [h]
  exact ⟨hfault, hval, hfpc⟩

/-- A member whose result came without a fault has its value, and the flags of the reduction. -/
theorem received_value {s t : State} {c : Collective} {m : Contrib} {p : Proc} (hr : Received s t c m p) (hm : c.mismatch = false)
    (ht : trapCause p.fpc c.result.2 = none) :
    ∃ q, t.proc m.pid = some q ∧ q.wakeVal = some (resultWord c) ∧ q.st = if s.heldBack p then .suspended else .ready := by
  obtain ⟨q, hq, hsame, hst⟩ := hr
  obtain ⟨-, hval, -⟩ := unscheduled_fields hsame
  exact ⟨q, hq, hval.trans (by rw [given_value hm ht]), hst⟩

/-- The reduction of one integer is the integer. -/
theorem result_single {c : Collective} {m : Contrib} (hn : c.count = 1) (hf : c.first = m.rank) (hp : c.parts = [m]) (ht : c.key.ty < 8) :
    c.result = (m.value.toNat % 2 ^ tyWidth c.key.ty, {}) := by
  have hvals : ((memberRanks c.first c.stride c.count).map fun r =>
      (c.parts.find? fun p => p.rank == r).map fun p => p.value.toNat % 2 ^ tyWidth c.key.ty) = [some (m.value.toNat % 2 ^ tyWidth c.key.ty)] := by
    simp [memberRanks, hn, hf, hp]
  simp only [Collective.result, hvals]
  rw [if_neg]
  simp [not_le.2 ht]

theorem contribution_alone {s : State} {i ctx entry n since : Nat} {key : RedKey} {m : Contrib} {p : Proc} {r : Reason}
    (hi : s.gContrib[i]? = some (ctx, entry, n, key, m)) (hst : Spec.ctxSt s ctx ≠ .draining) (hc : (s.ctx ctx).colls = [])
    (hn : (s.group ctx entry).count = 1) (hf : (s.group ctx entry).first = m.rank) (hp : s.proc m.pid = some p)
    (hpark : p.st = .parked r (.collective entry n) since) (ht : key.ty < 8) :
    ∃ t q, exec (.gredContributionArrival i) s = .next t ∧ t.gContrib = s.gContrib.eraseIdx i ∧ t.proc m.pid = some q ∧
      q.wakeVal = some (extTy key.ty (m.value.toNat % 2 ^ tyWidth key.ty)) ∧
      q.st = (if s.heldBack p then .suspended else .ready) ∧ (t.ctx ctx).colls = [] ∧ SameMemory s t := by
  obtain ⟨w, hout, hex, -⟩ := exec_contribution hi hst
  let c := withPart (openColl (s.group ctx entry) entry n key) key m
  have hres : c.result = (m.value.toNat % 2 ^ tyWidth key.ty, {}) := result_single (c := c) hn hf rfl ht
  have hmis : c.mismatch = false := by simp [c, withPart, openColl]
  have hcomp : complete c = true := (complete_iff c).2 fun r hr => ⟨m, by simp [c, withPart, openColl], by
    have : r = (s.group ctx entry).first := by simpa [c, withPart, openColl, memberRanks, hn] using hr
    rw [this, hf]⟩
  have hproc : w.proc m.pid = some p := by obtain ⟨dies, seq, rfl⟩ := hout; exact hp
  obtain ⟨hcolls, hcontrib, hmem, hrec⟩ := settleColl_complete (w := w.modGroup ctx entry fun g => { g with draining := g.draining + 1 })
    (ctx := ctx) (entry := entry) hcomp (by simp [c, withPart, openColl])
  obtain ⟨q, hq, hval, hqst⟩ := received_value (hrec m (by simp [c, withPart, openColl]) p r since hproc hpark) hmis
    (by rw [hres]; exact trapCause_none _)
  have hheld : (w.modGroup ctx entry fun g => { g with draining := g.draining + 1 }).heldBack p = s.heldBack p :=
    (heldBack_modGroup _ _ _ _ p).trans (by obtain ⟨dies, seq, rfl⟩ := hout; rfl)
  refine ⟨_, q, hex hc, hcontrib.trans ?_, hq, ?_, by rw [hqst, hheld], hcolls, ?_⟩
  · obtain ⟨dies, seq, rfl⟩ := hout; rfl
  · rw [hval, resultWord, hres]; exact congrArg some (if_pos ht)
  · obtain ⟨dies, seq, rfl⟩ := hout; exact hmem

/-- A contribution after which a member is still awaited. -/
theorem contribution_waits {s : State} {i ctx entry n : Nat} {key : RedKey} {m : Contrib} {c0 : Collective}
    (hi : s.gContrib[i]? = some (ctx, entry, n, key, m)) (hst : Spec.ctxSt s ctx ≠ .draining) (hc : (s.ctx ctx).colls = [c0])
    (he : c0.entry = entry) (hn : c0.index = n)
    (hmiss : ∃ r ∈ memberRanks c0.first c0.stride c0.count, ∀ a ∈ c0.parts ++ [m], a.rank ≠ r) :
    ∃ t, exec (.gredContributionArrival i) s = .next t ∧ (t.ctx ctx).colls = [withPart c0 key m] ∧
      t.gContrib = s.gContrib.eraseIdx i ∧ t.procs = s.procs ∧ SameMemory s t := by
  obtain ⟨w, hout, -, hex⟩ := exec_contribution hi hst
  have hcomp : ¬complete (withPart c0 key m) = true := fun h => by
    obtain ⟨r, hr, hne⟩ := hmiss
    obtain ⟨a, ha, har⟩ := (complete_iff _).1 h r hr
    exact hne a ha har
  refine ⟨_, (hex c0 hc he hn).trans (congrArg _ (if_neg hcomp)), by rw [ctx_modCtx_self]; rfl, ?_, ?_, ?_⟩ <;>
    obtain ⟨dies, seq, rfl⟩ := hout
  · rfl
  · rfl
  · exact sameMemory_of_eq rfl rfl rfl

/-- The value of a collective of several members. -/
def treeResult (c : Collective) : Option Nat × Cond :=
  treeReduce (combine c.key.op c.key.ty c.key.rm c.key.payl) 25
    ((memberRanks c.first c.stride c.count).map fun r =>
      (c.parts.find? fun m => m.rank == r).map fun m => m.value.toNat % 2 ^ tyWidth c.key.ty)

theorem result_several {c : Collective} (h : 2 ≤ c.count) : c.result = ((treeResult c).1.getD 0, (treeResult c).2) := by
  obtain ⟨k, hk⟩ : ∃ k, c.count = k + 2 := ⟨c.count - 2, by omega⟩
  have hlen : ((memberRanks c.first c.stride c.count).map fun r =>
      (c.parts.find? fun m => m.rank == r).map fun m => m.value.toNat % 2 ^ tyWidth c.key.ty).length = k + 2 := by
    simp [memberRanks, hk]
  unfold Collective.result
  dsimp only
  split
  · next v hv => rw [hv] at hlen; simp at hlen
  · rfl

/-- The last contribution: every member that waits receives the reduction, or fault 40. -/
theorem contribution_completes {s : State} {i ctx entry n : Nat} {key : RedKey} {m : Contrib} {c0 : Collective}
    (hi : s.gContrib[i]? = some (ctx, entry, n, key, m)) (hst : Spec.ctxSt s ctx ≠ .draining) (hc : (s.ctx ctx).colls = [c0])
    (he : c0.entry = entry) (hn : c0.index = n)
    (hall : ∀ r ∈ memberRanks c0.first c0.stride c0.count, ∃ a ∈ c0.parts ++ [m], a.rank = r)
    (hnd : ((c0.parts ++ [m]).map (·.pid)).Nodup) :
    ∃ t, exec (.gredContributionArrival i) s = .next t ∧ (t.ctx ctx).colls = [] ∧ t.gContrib = s.gContrib.eraseIdx i ∧ SameMemory s t ∧
      ∀ a ∈ c0.parts ++ [m], ∀ p r since, s.proc a.pid = some p → p.st = .parked r (.collective entry n) since →
        Received s t (withPart c0 key m) a p := by
  obtain ⟨w, hout, -, hex⟩ := exec_contribution hi hst
  have hcomp : complete (withPart c0 key m) = true := (complete_iff _).2 hall
  obtain ⟨hcolls, hcontrib, hmem, hrec⟩ := settleColl_complete (w := w) (ctx := ctx) (entry := entry) hcomp hnd
  refine ⟨_, hex c0 hc he hn, hcolls, ?_, ?_, fun a ha p r since hp hpark => ?_⟩
  · refine hcontrib.trans ?_
    obtain ⟨dies, seq, rfl⟩ := hout; rfl
  · obtain ⟨dies, seq, rfl⟩ := hout; exact hmem
  · subst he hn
    have := hrec a ha p r since
    obtain ⟨dies, seq, rfl⟩ := hout
    exact this hp hpark

/-! ### O41 -/

/-- Settles O41: each event by the lemma that says once what it does. -/
theorem groupEvents : Obligations.GroupEvents := by
  refine ⟨?_, ?_, ?_, ?_, fun s ctx entry h3 hc hg => gsw_drained h3 hc hg, fun s i ctx entry b core cores got => lastArrival,
    fun s i ctx entry b core => completion_arrives⟩
  · intro s k rest p hg hb hp hst hsb hops htile _ hlink src hword
    exact packet_accepted hg hb hp hst hsb hops htile hlink hword
  · intro s k rest bs core p o hg hrest hb ht hd hf hh hdsp hbar hn hfail hlen hwf hp ho
    exact packet_leaves hg hrest hb ht hd hf hh hdsp hbar hn hfail hlen hwf hp ho
  · intro s i ctx entry n since key c p r hi hst hc hn hf hp hpark ht
    exact contribution_alone hi hst hc hn hf hp hpark ht
  · intro s i ctx entry n key c c0 hi hst _ hc he hn all ranks
    refine ⟨contribution_waits hi hst hc he hn, ?_⟩
    intro h2 hall hnd hkey w r
    obtain ⟨t, hex, hcolls, hcontrib, hmem, hrec⟩ := contribution_completes hi hst hc he hn hall hnd
    refine ⟨t, hex, hcolls, hcontrib, hmem, fun m hm p why since hp hpark => ?_⟩
    obtain ⟨q, hq, hsame, hqst⟩ := hrec m hm p why since hp hpark
    subst hkey
    have hres : (withPart c0 c0.key c).result = (r.1.getD 0, r.2) := result_several h2
    have hkeys : (withPart c0 c0.key c).mismatch = c0.mismatch := by simp [withPart]
    obtain ⟨hfault, hval, hfpc⟩ := unscheduled_fields hsame
    refine ⟨q, hq, hqst, fun hm => by rw [hfault, given_mismatch (hkeys.trans hm)], fun hm => ⟨?_, fun k ht => ?_, fun ht => ?_⟩⟩
    · rw [hfpc, given_fpc (hkeys.trans hm), hres]
    · rw [hfault, given_trap (hkeys.trans hm) (by rw [hres]; exact ht)]
    · rw [hval, given_value (hkeys.trans hm) (by rw [hres]; exact ht), resultWord, hres]
      rfl

end Sys2Proof.Proofs.Arithmetic
end

section
/-! The family of encoding, first part: the bytes of an instruction and its fields determine each other (O55), and the words
that spec/ writes out (O56). -/

namespace Sys2Proof.Proofs.Encoding

open Sys2Proof Sys2Proof.Machine

/-! ### Little-endian bytes (R6) -/

theorem length_leBytes (n v : Nat) : (leBytes n v).length = n := by
  induction n generalizing v with
  | zero => rfl
  | succ n ih => rw [leBytes, List.length_cons, ih]

theorem leNat_lt (bs : List Byte) : leNat bs < 256 ^ bs.length := by
  induction bs with
  | nil => decide
  | cons b bs ih =>
    have hb := b.isLt
    rw [leNat, List.length_cons, pow_succ]
    omega

theorem leNat_leBytes {n v : Nat} (h : v < 256 ^ n) : leNat (leBytes n v) = v := by
  induction n generalizing v with
  | zero => rw [pow_zero] at h; rw [leBytes, leNat]; omega
  | succ n ih =>
    have hq : v / 256 < 256 ^ n := Nat.div_lt_of_lt_mul (by rwa [mul_comm, ← pow_succ])
    rw [leBytes, leNat, ih hq, BitVec.toNat_ofNat]
    omega

theorem leBytes_leNat (bs : List Byte) : leBytes bs.length (leNat bs) = bs := by
  induction bs with
  | nil => rfl
  | cons b bs ih =>
    have hb := b.isLt
    have hlow : BitVec.ofNat 8 (b.toNat + 256 * leNat bs) = b := BitVec.eq_of_toNat_eq (by rw [BitVec.toNat_ofNat]; omega)
    have hhigh : (b.toNat + 256 * leNat bs) / 256 = leNat bs := by omega
    rw [List.length_cons, leNat, leBytes, hlow, hhigh, ih]

/-- The word of at most eight bytes has their number as its value. -/
theorem toNat_ofNat_leNat {bs : List Byte} (h : bs.length ≤ 8) : (BitVec.ofNat 64 (leNat bs)).toNat = leNat bs := by
  have hlt := (leNat_lt bs).trans_le (Nat.pow_le_pow_right (by decide) h)
  exact BitVec.toNat_ofNat _ _ |>.trans (Nat.mod_eq_of_lt hlt)

/-! ### The base word (R57, R59) -/

theorem ofBool_getLsbD {n : Nat} (w : BitVec n) (i : Nat) : BitVec.ofBool (w.getLsbD i) = w.extractLsb' i 1 := by
  ext j hj
  obtain rfl : j = 0 := by omega
  simp [BitVec.getElem_extractLsb']

theorem lenOf_eq_some {w : Word} {len : Len} (h : lenOf w = some len) : lenCode len = w.extractLsb' 0 2 := by
  unfold lenOf at h
  generalize w.extractLsb' 0 2 = code at h ⊢
  revert code
  cases len <;> decide

/-- The fields of a base word, put in their places, are the word. -/
theorem baseWord_fieldsOf {len : Len} {w : Word} (ext : Word) (h : lenOf w = some len) :
    baseWord (opField w) (fnField w) (fieldsOf len w ext) = w := by
  simp only [baseWord, opField, fnField, fieldsOf, lenOf_eq_some h, ofBool_getLsbD, BitVec.ofNat_toNat, BitVec.setWidth_eq]
  iterate 13 rw [BitVec.extractLsb'_append_extractLsb'_eq_extractLsb' (by decide)]
  exact BitVec.extractLsb'_eq_self

theorem getLsbD_ofBool_zero (b : Bool) : (BitVec.ofBool b).getLsbD 0 = b := by cases b <;> rfl

section Fields

variable {op fn : Nat} {x : Args}

theorem lenOf_baseWord : lenOf (baseWord op fn x) = some x.len := by
  have : (baseWord op fn x).extractLsb' 0 2 = lenCode x.len := by
    simp (disch := decide) only [baseWord, BitVec.extractLsb'_append_eq_of_add_le, BitVec.extractLsb'_eq_self]
  rw [lenOf, this]
  cases x.len <;> rfl

theorem opField_baseWord (h : op < 256) : opField (baseWord op fn x) = op := by
  have : (baseWord op fn x).extractLsb' 2 8 = BitVec.ofNat 8 op := by
    simp (disch := decide) only [baseWord, BitVec.extractLsb'_append_eq_of_add_le, BitVec.extractLsb'_append_eq_left]
  rw [opField, this, BitVec.toNat_ofNat, Nat.mod_eq_of_lt h]

theorem fnField_baseWord (h : fn < 8) : fnField (baseWord op fn x) = fn := by
  have : (baseWord op fn x).extractLsb' 10 3 = BitVec.ofNat 3 fn := by
    simp (disch := decide) only [baseWord, BitVec.extractLsb'_append_eq_of_add_le, BitVec.extractLsb'_append_eq_left]
  rw [fnField, this, BitVec.toNat_ofNat, Nat.mod_eq_of_lt h]

/-- The base word of an instruction gives back every field. -/
theorem fieldsOf_baseWord : fieldsOf x.len (baseWord op fn x) x.ext = x := by
  have hbit (i : Nat) : (baseWord op fn x).getLsbD i = ((baseWord op fn x).extractLsb' i 1).getLsbD 0 := by simp
  simp only [fieldsOf, hbit]
  simp (disch := decide) only [baseWord, BitVec.extractLsb'_append_eq_of_add_le, BitVec.extractLsb'_append_eq_left, getLsbD_ofBool_zero]

end Fields

/-! ### The bytes of a base word and an extension (R57, R60) -/

theorem eight_le_bytes (len : Len) : 8 ≤ len.bytes := by cases len <;> decide

/-- The extension of an instruction fits the bytes that its length leaves for it. -/
theorem extFits_iff (x : Args) : x.extFits = true ↔ x.ext.toNat < 256 ^ (x.len.bytes - 8) := by
  have hext := x.ext.isLt
  unfold Args.extFits
  cases x.len <;> simp [Len.bytes, BitVec.toNat_eq]
  omega

/-- The base word and the extension that the decoder reads. -/
def baseRead (bs : List Byte) : Word := BitVec.ofNat 64 (leNat (bs.take 8))
def extRead (len : Len) (bs : List Byte) : Word := BitVec.ofNat 64 (leNat ((bs.take len.bytes).drop 8))

theorem length_extBytes_le (len : Len) (bs : List Byte) : ((bs.take len.bytes).drop 8).length ≤ len.bytes - 8 := by
  rw [List.length_drop, List.length_take]; omega

theorem toNat_baseRead (bs : List Byte) : (baseRead bs).toNat = leNat (bs.take 8) :=
  toNat_ofNat_leNat (List.length_take_le _ _)

theorem toNat_extRead (len : Len) (bs : List Byte) : (extRead len bs).toNat = leNat ((bs.take len.bytes).drop 8) :=
  toNat_ofNat_leNat ((length_extBytes_le len bs).trans (by cases len <;> decide))

theorem toNat_extRead_lt (len : Len) (bs : List Byte) : (extRead len bs).toNat < 256 ^ (len.bytes - 8) := by
  rw [toNat_extRead]
  exact (leNat_lt _).trans_le (Nat.pow_le_pow_right (by decide) (length_extBytes_le len bs))

/-- What decodes has the bytes of its length, and the fields of its base word pass the checks. -/
theorem decode_eq_instr {bs : List Byte} {i : Instr} : decode bs = .instr i ↔
    ∃ len, lenOf (baseRead bs) = some len ∧ len.bytes ≤ bs.length ∧ decodeFields len (baseRead bs) (extRead len bs) = .instr i := by
  unfold decode
  split
  next h => simp [baseRead, h]
  next len h =>
    by_cases hlen : bs.length < len.bytes <;> simp [baseRead, extRead, h, hlen, Nat.le_of_not_lt]

/-- The bytes of a base word and its extension, whatever follows them, are read as these. -/
theorem decode_append {len : Len} {w ext : Word} (bs : List Byte) (hlen : lenOf w = some len)
    (hext : ext.toNat < 256 ^ (len.bytes - 8)) :
    decode (leBytes 8 w.toNat ++ leBytes (len.bytes - 8) ext.toNat ++ bs) = decodeFields len w ext := by
  have h8 := eight_le_bytes len
  have hw : (leBytes 8 w.toNat ++ leBytes (len.bytes - 8) ext.toNat ++ bs).take 8 = leBytes 8 w.toNat := by
    rw [List.append_assoc]
    exact List.take_left' (length_leBytes _ _)
  have hx : ((leBytes 8 w.toNat ++ leBytes (len.bytes - 8) ext.toNat ++ bs).take len.bytes).drop 8
      = leBytes (len.bytes - 8) ext.toNat := by
    rw [List.take_left' (by rw [List.length_append, length_leBytes, length_leBytes]; omega)]
    exact List.drop_left' (length_leBytes _ _)
  have hl : ¬ (leBytes 8 w.toNat ++ leBytes (len.bytes - 8) ext.toNat ++ bs).length < len.bytes := by
    simp only [List.length_append, length_leBytes]; omega
  have hword : leNat (leBytes 8 w.toNat) = w.toNat := leNat_leBytes w.isLt
  simp only [decode, hw, hword, BitVec.ofNat_toNat, BitVec.setWidth_eq, hlen, if_neg hl, hx, leNat_leBytes hext]

/-- Bytes that are long enough are the bytes of the base word and the extension read from them, and what follows. -/
theorem eq_read_append_drop {bs : List Byte} {len : Len} (h : len.bytes ≤ bs.length) :
    bs = leBytes 8 (baseRead bs).toNat ++ leBytes (len.bytes - 8) (extRead len bs).toNat ++ bs.drop len.bytes := by
  have h8 := eight_le_bytes len
  have hw : (bs.take 8).length = 8 := by rw [List.length_take]; omega
  have hx : ((bs.take len.bytes).drop 8).length = len.bytes - 8 := by rw [List.length_drop, List.length_take]; omega
  have hlow := leBytes_leNat (bs.take 8)
  have hhigh := leBytes_leNat ((bs.take len.bytes).drop 8)
  rw [hw] at hlow
  rw [hx] at hhigh
  have htake : bs.take 8 = (bs.take len.bytes).take 8 := by rw [List.take_take, min_eq_left h8]
  rw [toNat_baseRead, toNat_extRead, hlow, hhigh, htake, List.take_append_drop, List.take_append_drop]

/-! ### The opcode map (R74, R75) -/

/-- A row of the map, or a choice of rows by the fields, that has the codes `op` and `fn` and carries the fields it is built from. -/
def Codes (op fn : Nat) (build : Args → Instr) : Prop := ∀ x, opcodeOf (build x) = some (op, fn, x)

theorem Codes.ite {op fn : Nat} {f g : Args → Instr} {c : Args → Prop} [DecidablePred c] (hf : Codes op fn f) (hg : Codes op fn g) :
    Codes op fn fun x => if c x then f x else g x := by
  intro x
  by_cases h : c x
  · simpa only [if_pos h] using hf x
  · simpa only [if_neg h] using hg x

theorem codes_crw : Codes eCrw.op eCrw.fn eCrw.build := .ite (fun _ => rfl) (.ite (fun _ => rfl) (.ite (fun _ => rfl) fun _ => rfl))
theorem codes_feb : Codes eFeb.op eFeb.fn eFeb.build := .ite (fun _ => rfl) (.ite (fun _ => rfl) fun _ => rfl)
theorem codes_get : Codes eGet.op eGet.fn eGet.build := .ite (fun _ => rfl) fun _ => rfl
theorem codes_put : Codes ePut.op ePut.fn ePut.build := .ite (fun _ => rfl) fun _ => rfl
theorem codes_fence : Codes eFence.op eFence.fn eFence.build := .ite (fun _ => rfl) (.ite (fun _ => rfl) fun _ => rfl)
theorem codes_tlbi : Codes eTlbi.op eTlbi.fn eTlbi.build := .ite (fun _ => rfl) fun _ => rfl
theorem codes_rply : Codes eRply.op eRply.fn eRply.build := .ite (fun _ => rfl) (.ite (fun _ => rfl) fun _ => rfl)
theorem codes_wdog : Codes eWdog.op eWdog.fn eWdog.build := .ite (fun _ => rfl) fun _ => rfl
theorem codes_chq : Codes eChq.op eChq.fn eChq.build := .ite (fun _ => rfl) fun _ => rfl
theorem codes_xacc : Codes eXacc.op eXacc.fn eXacc.build := .ite (fun _ => rfl) fun _ => rfl
theorem codes_xrd : Codes eXrd.op eXrd.fn eXrd.build := .ite (fun _ => rfl) (.ite (fun _ => rfl) fun _ => rfl)

/-- Every entry builds instructions of its own codes: beside the entries that choose a row by their modifiers, by computation. -/
theorem entries_codes : ∀ e ∈ entries, Codes e.op e.fn e.build := by
  simp only [entries, entriesScalar, entriesControl, entriesMemory, entriesRemote, entriesProcess, entriesVector, entriesTile,
    List.forall_mem_append, List.forall_mem_cons, codes_crw, codes_feb, codes_get, codes_put, codes_fence, codes_tlbi, codes_rply,
    codes_wdog, codes_chq, codes_xacc, codes_xrd, true_and, List.not_mem_nil, false_implies, implies_true, and_true]
  and_intros <;> exact fun _ => rfl

/-- OP has eight bits and FN[2:0] three (R59). -/
theorem entries_codesFit : ∀ e ∈ entries, e.op < 256 ∧ e.fn < 8 := by decide +kernel

theorem findEntry_eq_some {op fn : Nat} {e : Entry} (h : findEntry op fn = some e) : e ∈ entries ∧ e.op = op ∧ e.fn = fn := by
  have hcodes := List.find?_some h
  simp only [Bool.and_eq_true, beq_iff_eq] at hcodes
  exact ⟨List.mem_of_find?_eq_some h, hcodes⟩

theorem majorAssigned_of_findEntry {op fn : Nat} {e : Entry} (h : findEntry op fn = some e) : majorAssigned op = true := by
  obtain ⟨hmem, hop, -⟩ := findEntry_eq_some h
  exact List.any_eq_true.2 ⟨e, hmem, beq_iff_eq.2 hop⟩

/-! ### Fields and instructions (R76) -/

theorem decodeFields_eq_instr {len : Len} {w ext : Word} {i : Instr} : decodeFields len w ext = .instr i ↔
    ∃ e, findEntry (opField w) (fnField w) = some e ∧ checkFields e (fieldsOf len w ext) = none ∧ e.build (fieldsOf len w ext) = i := by
  unfold decodeFields
  split
  next h =>
    refine iff_of_false (by simp) ?_
    rintro ⟨e, hfind, -⟩
    simp [majorAssigned_of_findEntry hfind] at h
  next =>
    split
    next hfind => simp [hfind]
    next e hfind =>
      simp only [hfind, Option.some.injEq, exists_eq_left']
      split <;> simp_all

/-- A well-formed instruction is what its entry builds from fields that pass the checks. -/
theorem wellFormed_iff {i : Instr} : i.wellFormed = true ∧ (opcodeOf i).isSome = true ↔
    ∃ op fn x e, opcodeOf i = some (op, fn, x) ∧ findEntry op fn = some e ∧ x.extFits = true ∧ checkFields e x = none ∧ e.build x = i := by
  unfold Instr.wellFormed
  split
  next h => simp [h]
  next op fn x h =>
    cases hfind : findEntry op fn <;> simp [h, hfind, and_assoc]

theorem encode_of_opcodeOf {i : Instr} {op fn : Nat} {x : Args} (h : opcodeOf i = some (op, fn, x)) :
    encode i = leBytes 8 (baseWord op fn x).toNat ++ leBytes (x.len.bytes - 8) x.ext.toNat := by
  unfold encode; rw [h]

theorem decode_encode {i : Instr} (hwf : i.wellFormed = true) (hop : (opcodeOf i).isSome = true) (bs : List Byte) :
    decode (encode i ++ bs) = .instr i := by
  obtain ⟨op, fn, x, e, hcode, hfind, hext, hcheck, hbuild⟩ := wellFormed_iff.1 ⟨hwf, hop⟩
  obtain ⟨hmem, hopE, hfnE⟩ := findEntry_eq_some hfind
  obtain ⟨hop256, hfn8⟩ := entries_codesFit e hmem
  rw [encode_of_opcodeOf hcode, decode_append bs lenOf_baseWord ((extFits_iff x).1 hext), decodeFields_eq_instr,
    opField_baseWord (hopE ▸ hop256), fnField_baseWord (hfnE ▸ hfn8), fieldsOf_baseWord]
  exact ⟨e, hfind, hcheck, hbuild⟩

theorem encode_of_decode {bs : List Byte} {i : Instr} (h : decode bs = .instr i) :
    i.wellFormed = true ∧ (opcodeOf i).isSome = true ∧ ∃ rest, bs = encode i ++ rest := by
  obtain ⟨len, hlen, hlong, hfields⟩ := decode_eq_instr.1 h
  obtain ⟨e, hfind, hcheck, hbuild⟩ := decodeFields_eq_instr.1 hfields
  obtain ⟨hmem, hop, hfn⟩ := findEntry_eq_some hfind
  have hcode := entries_codes e hmem (fieldsOf len (baseRead bs) (extRead len bs))
  rw [hbuild, hop, hfn] at hcode
  have hfits := (extFits_iff (fieldsOf len (baseRead bs) (extRead len bs))).2 (toNat_extRead_lt len bs)
  obtain ⟨hwf, hsome⟩ := wellFormed_iff.2 ⟨_, _, _, e, hcode, hfind, hfits, hcheck, hbuild⟩
  refine ⟨hwf, hsome, bs.drop len.bytes, ?_⟩
  rw [encode_of_opcodeOf hcode, baseWord_fieldsOf _ hlen]
  exact eq_read_append_drop hlong

/-- Settles O55: the fields and the bytes of an instruction determine each other, and what R76 checks is what makes an instruction
well-formed. -/
theorem decodeEncode : Obligations.DecodeEncode :=
  ⟨fun _ bs hwf hop => decode_encode hwf hop bs, fun _ _ => encode_of_decode⟩

/-- The words of spec/ are the bytes of their instructions, and these are well-formed. -/
theorem exampleWords_encode : ∀ r ∈ Spec.exampleWords, encode r.2.2.2 = leBytes 8 r.1 ++ leBytes r.2.1 r.2.2.1 ∧
    r.2.2.2.wellFormed = true ∧ (opcodeOf r.2.2.2).isSome = true := by decide +kernel

/-- Settles O56: each word is the encoding of its instruction, which O55 decodes. -/
theorem decodeWords : Obligations.DecodeWords := by
  intro r hr
  obtain ⟨hbytes, hwf, hop⟩ := exampleWords_encode r hr
  have hdecode := decodeEncode.1 r.2.2.2 [] hwf hop
  rw [List.append_nil, hbytes] at hdecode
  exact ⟨hdecode, hbytes⟩

end Sys2Proof.Proofs.Encoding
end

section
/-! The family of encoding, second part: what one step comes to (O57). -/

namespace Sys2Proof.Proofs.Encoding

open Sys2Proof Sys2Proof.Machine

/-! ### The issue of a slot's process (R76, R222) -/

section Try

variable {s : State} {core slot pid : Nat} {p : Proc}

/-- A process with nothing due and a share left, whose fetch ends by a fault, takes that fault (R76). -/
theorem tryIssue_fault {f : FaultInfo} (hp : s.proc pid = some p) (hb : s.before pid p = none) (hs : s.shareOut p = false)
    (hf : s.fetch p = .fault f) : s.tryIssue core slot pid = .issued (.next ((s.counted core slot pid p).deliver pid f p.pc)) := by
  simp only [State.tryIssue, hp, hb, hs, hf, Bool.false_eq_true, if_false]

/-- One whose fetch gives an instruction that may issue runs it; what is not ready leaves the issue to others (R222). -/
theorem tryIssue_instr {i : Instr} {t : State} (hp : s.proc pid = some p) (hb : s.before pid p = none) (hs : s.shareOut p = false)
    (hf : s.fetch p = .instr i) (hpass : s.mayPass p i = true) (hex : exec i (s.ready pid p) = .next t) :
    s.tryIssue core slot pid = if t.stalled then .notReady { t with stalled := false } else .issued (.next (t.counted core slot pid p)) := by
  simp only [State.tryIssue, hp, hb, hs, hf, hpass, hex, Bool.false_eq_true, if_false, Bool.not_true]

theorem tryAll_issued {o : Host.Outcome State Fault Refusal} {rest : List (Nat × Nat)} (h : s.tryIssue core slot pid = .issued o) :
    s.tryAll core ((slot, pid) :: rest) = o := by
  simp only [State.tryAll, h]

theorem tryAll_notReady {t : State} {rest : List (Nat × Nat)} (h : s.tryIssue core slot pid = .notReady t) :
    s.tryAll core ((slot, pid) :: rest) = t.tryAll core rest := by
  simp only [State.tryAll, h]

end Try

/-- Settles O57: the first candidate's try decides the step unless its instruction is not ready, and an event of the agenda runs by
itself. -/
theorem stepRunsInstruction : Obligations.StepRunsInstruction := by
  refine ⟨?issue, fun s i rest h => ?event⟩
  case event => simp only [step, h, State.input]
  case issue =>
    intro s slot pid rest p hagenda hlive u hcand hp hbefore hshare
    have hstep : step s = u.tryAll s.focus ((slot, pid) :: rest) := hcand ▸ step_issue hagenda hlive
    rw [hstep]
    refine ⟨fun hpc => ?misaligned, fun q hpc hfetch hword => ⟨fun r hr => ?reject, fun i t hi hpass hex => ?instr⟩⟩
    case misaligned => exact tryAll_issued (tryIssue_fault hp hbefore hshare (fetch_misaligned hpc))
    case reject =>
      have hfault : u.fetch p = .fault { cause := r.cause } := by rw [fetch_one hpc hfetch hword, hr]
      exact tryAll_issued (tryIssue_fault hp hbefore hshare hfault)
    case instr =>
      have hinstr : u.fetch p = .instr i := by rw [fetch_one hpc hfetch hword, hi]
      have htry := tryIssue_instr (core := s.focus) (slot := slot) hp hbefore hshare hinstr hpass hex
      by_cases hst : t.stalled = true
      · rw [if_pos hst] at htry ⊢
        exact tryAll_notReady htry
      · rw [if_neg hst] at htry ⊢
        exact tryAll_issued htry

end Sys2Proof.Proofs.Encoding
end

section
/-! The family of encoding, third part: what an instruction that writes one register leaves (O54). -/

namespace Sys2Proof.Proofs.Encoding

open Sys2Proof Sys2Proof.Machine Sys2Proof.Proofs.Arithmetic

/-! ### Taking the marks and going on leave every register (R58, R64) -/

section Reads

variable (e : Entry) (x : Args) (p : Proc)

@[simp] theorem reg_retire (pc : Word) (r : RName) : (p.retire pc).reg r = p.reg r := by cases r <;> rfl
@[simp] theorem addr_retire (pc : Word) (i : Nat) : (p.retire pc).addr i = p.addr i := rfl
@[simp] theorem predV_retire (pc : Word) (i : Nat) : (p.retire pc).predV i = p.predV i := rfl
@[simp] theorem vec_retire (pc : Word) (i : Nat) : (p.retire pc).vec i = p.vec i := rfl
@[simp] theorem mask_retire (pc : Word) (i : Nat) : (p.retire pc).mask i = p.mask i := rfl
@[simp] theorem full_retire (pc : Word) (r : RName) : (p.retire pc).full r = p.full r := rfl

@[simp] theorem name_taken (d : Nat) : (taken e x p).name d = p.name d := by rw [taken_shape]; rfl
@[simp] theorem addr_taken (i : Nat) : (taken e x p).addr i = p.addr i := by rw [taken_shape]; rfl
@[simp] theorem predV_taken (i : Nat) : (taken e x p).predV i = p.predV i := by rw [taken_shape]; rfl
@[simp] theorem vec_taken (i : Nat) : (taken e x p).vec i = p.vec i := by rw [taken_shape]; rfl
@[simp] theorem mask_taken (i : Nat) : (taken e x p).mask i = p.mask i := by rw [taken_shape]; rfl

theorem full_setEmpty (r q : RName) : (p.setEmpty r).full q = true ↔ q = .p 0 ∨ (p.full q = true ∧ q ≠ r) := by
  unfold Proc.setEmpty Proc.full
  split
  next h =>
    simp only [Bool.or_eq_true, decide_eq_true_eq, List.contains_iff_mem] at h
    by_cases hq : q = r
    · simp_all; tauto
    · simp_all
  next => by_cases hq : q = r <;> simp_all

/-- The marked operands are empty, and no other register; p0 stays full (R64). -/
theorem full_taken (q : RName) : (taken e x p).full q = true ↔ q = .p 0 ∨ (p.full q = true ∧ q ∉ marked e x p) := by
  unfold taken
  generalize marked e x p = l
  induction l generalizing p with
  | nil => simp [Proc.full]
  | cons r l ih =>
    rw [List.foldl_cons, ih, full_setEmpty, List.mem_cons]
    tauto

end Reads

/-! ### What a register write changes (R61, R91, R270) -/

section Writes

variable (p : Proc)

theorem addr_wr (r : RName) (v : Word) (i : Nat) :
    (p.wr r v).addr i = if r = .a i then { p.addr i with ptr := v } else p.addr i := by
  cases r with
  | a n =>
    by_cases h : i = n
    · subst h; simp [Proc.wr, Proc.setFull, Proc.put, Proc.addr]
    · simp [Proc.wr, Proc.setFull, Proc.put, Proc.addr, tblGetD_set, h, Ne.symm h]
  | p n => by_cases h : n = 0 <;> simp [Proc.wr, Proc.setFull, Proc.put, Proc.addr, h]
  | w n | g n => simp [Proc.wr, Proc.setFull, Proc.put, Proc.addr]

theorem predV_wr (r : RName) (v : Word) (i : Nat) :
    (p.wr r v).predV i = if i = 0 then true else if r = .p i then v != 0 else p.predV i := by
  by_cases h0 : i = 0
  · simp [Proc.predV, h0]
  cases r with
  | p n =>
    by_cases h : i = n
    · subst h; simp [Proc.wr, Proc.setFull, Proc.put, Proc.predV, h0]
    · by_cases hn : n = 0 <;> simp [Proc.wr, Proc.setFull, Proc.put, Proc.predV, tblGetD_set, h0, h, Ne.symm h, Ne.symm h0, hn]
  | w n | g n | a n => simp [Proc.wr, Proc.setFull, Proc.put, Proc.predV, h0]

@[simp] theorem vec_wr (r : RName) (v : Word) (i : Nat) : (p.wr r v).vec i = p.vec i := by rw [Proc.wr_shape]; rfl
@[simp] theorem mask_wr (r : RName) (v : Word) (i : Nat) : (p.wr r v).mask i = p.mask i := by rw [Proc.wr_shape]; rfl

/-- A write of a predicate leaves the scalar registers. -/
theorem reg_wr_pred (d : Nat) (v : Word) {r : RName} (hr : ∀ i, r ≠ .p i) : (p.wr (.p d) v).reg r = p.reg r := by
  cases r with
  | p i => exact absurd rfl (hr i)
  | w n | g n | a n => by_cases h : d = 0 <;> simp [Proc.wr, Proc.setFull, Proc.put, Proc.reg, Proc.addr, h]

/-- No operand name is a predicate's (R61). -/
theorem name_ne_pred {d : Nat} {r : RName} (h : p.name d = some r) (i : Nat) : r ≠ .p i := by
  rintro rfl
  unfold Proc.name at h
  repeat' split at h
  all_goals simp at h

theorem wrOp_some {d : Nat} {r : RName} (h : p.name d = some r) (v : Word) : p.wrOp d v = p.wr r v := by
  rw [Proc.wrOp, h]

theorem wrOp_none {d : Nat} (h : p.name d = none) (v : Word) : p.wrOp d v = p := by
  rw [Proc.wrOp, h]

theorem reg_wrOp (d : Nat) (v : Word) (r : RName) : (p.wrOp d v).reg r = if p.name d = some r then v else p.reg r := by
  cases h : p.name d with
  | none => rw [wrOp_none p h]; simp
  | some q => rw [wrOp_some p h, Proc.reg_wr p q r v (name_ne_pred p h)]; simp [eq_comm]

theorem addr_wrOp (d : Nat) (v : Word) (i : Nat) :
    (p.wrOp d v).addr i = if p.name d = some (.a i) then { p.addr i with ptr := v } else p.addr i := by
  cases h : p.name d with
  | none => rw [wrOp_none p h]; simp
  | some q => rw [wrOp_some p h, addr_wr]; simp

theorem predV_wrOp (d : Nat) (v : Word) (i : Nat) : (p.wrOp d v).predV i = p.predV i := by
  cases h : p.name d with
  | none => rw [wrOp_none p h]
  | some q =>
    rw [wrOp_some p h, predV_wr, if_neg (name_ne_pred p h i)]
    by_cases hi : i = 0 <;> simp [Proc.predV, hi]

@[simp] theorem vec_wrOp (d : Nat) (v : Word) (i : Nat) : (p.wrOp d v).vec i = p.vec i := by rw [Proc.wrOp_shape]; rfl
@[simp] theorem mask_wrOp (d : Nat) (v : Word) (i : Nat) : (p.wrOp d v).mask i = p.mask i := by rw [Proc.wrOp_shape]; rfl

/-- A write of a whole address register leaves the registers of every other kind. -/
theorem reg_wrAddr (d : Nat) (v : AReg) {r : RName} (hr : ∀ i, r ≠ .a i) : (p.wrAddr d v).reg r = p.reg r := by
  cases r with
  | a i => exact absurd rfl (hr i)
  | w n | g n | p n => rfl

theorem addr_wrAddr (d : Nat) (v : AReg) (i : Nat) : (p.wrAddr d v).addr i = if i = d - 40 then v else p.addr i :=
  tblGetD_set _ _ _ _ _

@[simp] theorem vec_setVec (d : Nat) (v : BitVec 1024) (i : Nat) : (p.setVec d v).vec i = if i = d then v else p.vec i :=
  tblGetD_set _ _ _ _ _

@[simp] theorem reg_setVec (d : Nat) (v : BitVec 1024) (r : RName) : (p.setVec d v).reg r = p.reg r := by cases r <;> rfl

theorem setMask_shape (d : Nat) (v : BitVec 128) : p.setMask d v = { p with k := (p.setMask d v).k } := by
  unfold Proc.setMask; split <;> rfl

@[simp] theorem mask_setMask (d : Nat) (v : BitVec 128) (i : Nat) :
    (p.setMask d v).mask i = if i = 0 then BitVec.allOnes 128 else if i = d then v else p.mask i := by
  by_cases hi : i = 0
  · simp [Proc.mask, hi]
  by_cases hd : d = 0
  · simp [Proc.setMask, Proc.mask, hi, hd]
  · simp [Proc.setMask, Proc.mask, hi, hd, tblGetD_set]

@[simp] theorem vec_setMask (d : Nat) (v : BitVec 128) (i : Nat) : (p.setMask d v).vec i = p.vec i := by rw [setMask_shape]; rfl
@[simp] theorem addr_setMask (d : Nat) (v : BitVec 128) (i : Nat) : (p.setMask d v).addr i = p.addr i := by rw [setMask_shape]; rfl
@[simp] theorem predV_setMask (d : Nat) (v : BitVec 128) (i : Nat) : (p.setMask d v).predV i = p.predV i := by rw [setMask_shape]; rfl
@[simp] theorem full_setMask (d : Nat) (v : BitVec 128) (r : RName) : (p.setMask d v).full r = p.full r := by rw [setMask_shape]; rfl

@[simp] theorem reg_setMask (d : Nat) (v : BitVec 128) (r : RName) : (p.setMask d v).reg r = p.reg r := by
  rw [setMask_shape]; cases r <;> rfl

end Writes

/-! ### The frame of a register write -/

/-- An effect on the register files and full bits alone. -/
def OnRegisters (f : Proc → Proc) : Prop := ∀ p, ∃ win glob areg pred empties v k,
  f p = { p with win := win, glob := glob, areg := areg, pred := pred, empties := empties, v := v, k := k }

theorem onRegisters_wr (r : RName) (v : Word) : OnRegisters fun q => q.wr r v := fun p => ⟨_, _, _, _, _, p.v, p.k, p.wr_shape r v⟩

theorem onRegisters_wrOp (d : Nat) (v : Word) : OnRegisters fun q => q.wrOp d v := fun p => ⟨_, _, _, _, _, p.v, p.k, p.wrOp_shape d v⟩

theorem onRegisters_wrAddr (d : Nat) (v : AReg) : OnRegisters fun q => q.wrAddr d v := fun p => ⟨p.win, p.glob, _, p.pred, _, p.v, p.k, rfl⟩

theorem onRegisters_setVec (d : Nat) (v : BitVec 1024) : OnRegisters fun q => q.setVec d v :=
  fun p => ⟨p.win, p.glob, p.areg, p.pred, p.empties, _, p.k, rfl⟩

theorem onRegisters_setMask (d : Nat) (v : BitVec 128) : OnRegisters fun q => q.setMask d v :=
  fun p => ⟨p.win, p.glob, p.areg, p.pred, p.empties, p.v, _, setMask_shape p d v⟩

section Frame

variable {e : Entry} {x : Args} {s : State} {p : Proc} {f : Proc → Proc}

theorem kept_procAfter (hf : OnRegisters f) : Spec.Kept p (procAfter e x p f) := by
  obtain ⟨win, glob, areg, pred, empties, v, k, h⟩ := hf (taken e x p)
  rw [procAfter, h, taken_shape]
  rfl

/-- What an effect on the registers leaves of the machine, and where the process stands. -/
theorem after_onRegisters {P : Proc → Prop} (hf : OnRegisters f) (hP : P (procAfter e x p f)) :
    SameMemory s (s.after e x p f) ∧ OtherProcs s (s.after e x p f) [s.cur] ∧
      ∃ q, (s.after e x p f).proc s.cur = some q ∧ q.pc = p.nextPc x ∧ Spec.Kept p q ∧ P q :=
  ⟨sameMemory_of_eq rfl rfl rfl, after_otherProcs s e x p f, _, withCur_cur s _, rfl, kept_procAfter hf, hP⟩

/-- The register written is full, and the marks are taken of the others (R64). -/
theorem fullBits_procAfter {d : Option RName}
    (h : ∀ r, (f (taken e x p)).full r = true ↔ d = some r ∨ (taken e x p).full r = true) : Spec.FullBits e x p (procAfter e x p f) d := by
  intro r
  rw [procAfter, full_retire, h, full_taken]
  tauto

end Frame

theorem full_wr_iff (p : Proc) (r q : RName) (v : Word) : (p.wr r v).full q = true ↔ some r = some q ∨ p.full q = true := by
  rw [Proc.full_wr, Bool.or_eq_true, beq_iff_eq, Option.some.injEq, eq_comm]

theorem full_wrOp_iff (p : Proc) (d : Nat) (q : RName) (v : Word) : (p.wrOp d v).full q = true ↔ p.name d = some q ∨ p.full q = true := by
  cases h : p.name d with
  | none => rw [wrOp_none p h]; simp
  | some r => rw [wrOp_some p h, full_wr_iff]

theorem full_wrAddr_iff (p : Proc) (d : Nat) (q : RName) (v : AReg) :
    (p.wrAddr d v).full q = true ↔ some (RName.a (d - 40)) = some q ∨ p.full q = true := by
  have : (p.wrAddr d v).full q = (p.wr (.a (d - 40)) v.ptr).full q := rfl
  rw [this, full_wr_iff]

/-- Settles O54: the write is one of registers, so the frame is that of every such effect, and each read of another register is by
the lemma of that write. -/
theorem registerFrame : Obligations.RegisterFrame := by
  intro e x s p hp
  refine ⟨fun d v => ?scalar, fun d v => ?pred, fun d v => ?addr, fun d v => ?vec, fun d v => ?mask⟩
  case scalar =>
    refine after_onRegisters (onRegisters_wrOp d v) ⟨fun r _ => ?_, fun i => ?_, fun i => ?_, ⟨fun i => ?_, fun i => ?_⟩,
      fullBits_procAfter fun r => ?_⟩
    · rw [procAfter, reg_retire, reg_wrOp, name_taken, reg_taken]
    · rw [procAfter, addr_retire, addr_wrOp, name_taken, addr_taken]
    · rw [procAfter, predV_retire, predV_wrOp, predV_taken]
    · rw [procAfter, vec_retire, vec_wrOp, vec_taken]
    · rw [procAfter, mask_retire, mask_wrOp, mask_taken]
    · rw [full_wrOp_iff, name_taken]
  case pred =>
    refine after_onRegisters (onRegisters_wr _ v) ⟨fun i => ?_, fun r hr => ?_, fun i => ?_, ⟨fun i => ?_, fun i => ?_⟩,
      fullBits_procAfter fun r => full_wr_iff _ _ r v⟩
    · rw [procAfter, predV_retire, predV_wr, predV_taken]
      simp [eq_comm]
    · rw [procAfter, reg_retire, reg_wr_pred _ d v hr, reg_taken]
    · rw [procAfter, addr_retire, addr_wr, addr_taken, if_neg (by simp)]
    · rw [procAfter, vec_retire, vec_wr, vec_taken]
    · rw [procAfter, mask_retire, mask_wr, mask_taken]
  case addr =>
    refine after_onRegisters (onRegisters_wrAddr d v) ⟨fun i => ?_, fun r hr => ?_, fun i => predV_taken e x p i,
      ⟨fun i => vec_taken e x p i, fun i => mask_taken e x p i⟩, fullBits_procAfter fun r => full_wrAddr_iff _ d r v⟩
    · rw [procAfter, addr_retire, addr_wrAddr, addr_taken]
    · rw [procAfter, reg_retire, reg_wrAddr _ d v fun i => (hr i).2, reg_taken]
  case vec =>
    refine after_onRegisters (onRegisters_setVec d v) ⟨fun i => ?_, fun i => mask_taken e x p i, fun r _ => ?_,
      fun i => addr_taken e x p i, fun i => predV_taken e x p i, fullBits_procAfter fun r => ?_⟩
    · rw [procAfter, vec_retire, vec_setVec, vec_taken]
    · rw [procAfter, reg_retire, reg_setVec, reg_taken]
    · simp [Proc.setVec, Proc.full]
  case mask =>
    refine after_onRegisters (onRegisters_setMask d v) ⟨fun i => ?_, fun i => ?_, fun r _ => ?_, fun i => ?_, fun i => ?_,
      fullBits_procAfter fun r => ?_⟩
    · rw [procAfter, mask_retire, mask_setMask, mask_taken]
    · rw [procAfter, vec_retire, vec_setMask, vec_taken]
    · rw [procAfter, reg_retire, reg_setMask, reg_taken]
    · rw [procAfter, addr_retire, addr_setMask, addr_taken]
    · rw [procAfter, predV_retire, predV_setMask, predV_taken]
    · simp

end Sys2Proof.Proofs.Encoding
end

section
/-! The family of encoding, fourth part: NOP, TRAP, BRK, STOP, YIELD, SPRI and SLEEP (O34). -/

namespace Sys2Proof.Proofs.Encoding

open Sys2Proof Sys2Proof.Machine Sys2Proof.Proofs.Arithmetic

/-! ### A process that parks or stops (R218, R219) -/

section Scheduling

variable {s : State} {pid : Nat} {p : Proc}

theorem enter_proc_self (h : s.proc pid = some p) (st : PState) :
    (s.enter pid st).proc pid = some { p with st := st, stateSeq := s.seq } :=
  proc_modProc_self (s := { s with seq := s.seq + 1 }) h _

theorem enter_proc_ne {n : Nat} (h : n ≠ pid) (st : PState) : (s.enter pid st).proc n = s.proc n :=
  (proc_modProc _ _ _ _).trans (if_neg h)

/-- A process that parks leaves its slot, and nothing else of the machine but its state and order of entering it changes. -/
theorem park_eq (h : s.proc pid = some p) (r : Reason) (w : Wait) :
    s.park pid r w = (s.leaveSlot pid p.core).enter pid (.parked r w (s.core p.core).cycle) := by
  simp only [State.park, h]

theorem park_proc_self (h : s.proc pid = some p) (r : Reason) (w : Wait) :
    (s.park pid r w).proc pid = some { p with st := .parked r w (s.core p.core).cycle, stateSeq := s.seq } := by
  rw [park_eq h]
  exact enter_proc_self (s := s.leaveSlot pid p.core) h _

theorem park_proc_ne (h : s.proc pid = some p) {n : Nat} (hn : n ≠ pid) (r : Reason) (w : Wait) :
    (s.park pid r w).proc n = s.proc n := by
  rw [park_eq h]
  exact enter_proc_ne hn _

theorem park_sameMemory (h : s.proc pid = some p) (r : Reason) (w : Wait) : SameMemory s (s.park pid r w) := by
  rw [park_eq h]
  exact sameMemory_of_eq rfl rfl rfl

theorem leaveSlot_tick (s : State) (pid core : Nat) : ((s.leaveSlot pid core).core core).tick = (s.core core).tick := by
  rw [State.leaveSlot, core_modCore_self]

theorem park_tick (h : s.proc pid = some p) (r : Reason) (w : Wait) : ((s.park pid r w).core p.core).tick = (s.core p.core).tick := by
  rw [park_eq h]
  exact leaveSlot_tick s pid p.core

/-- A wait that has not ended goes on. -/
theorem recheck_waiting {r : Reason} {w : Wait} {c : Nat} (h : s.proc pid = some p) (hst : p.st = .parked r w c)
    (hw : s.waitDone pid p w = false) : s.recheck pid = s := by
  simp only [State.recheck, h, hst, hw, Bool.false_eq_true, if_false]

theorem abortPacket_none (h : s.proc pid = some p) (hk : p.packet = none) : s.abortPacket pid = s := by
  simp only [State.abortPacket, h, hk]

/-- A process with no packet open that stops leaves its slot, its ready queues and its kernel's count. -/
theorem stopProc_eq (h : s.proc pid = some p) (hk : p.packet = none) :
    s.stopProc pid = (((s.leaveSlot pid p.core).unready pid p.core).enter pid .stopped).countStop p := by
  simp only [State.stopProc, h, abortPacket_none h hk]

theorem leaveSlot_slots (s : State) (pid core : Nat) : ((s.leaveSlot pid core).core core).slots.all (· != some pid) = true := by
  rw [State.leaveSlot, core_modCore_self]
  simp only [List.all_map, List.all_eq_true]
  intro k _
  by_cases hk : k = some pid <;> simp [hk]

theorem unready_slots (s : State) (pid core : Nat) : ((s.unready pid core).core core).slots = (s.core core).slots := by
  rw [State.unready, core_modCore_self]

/-- The process is STOPPED, in no slot; memory and the other processes are as before (R233). -/
theorem stopProc_spec (h : s.proc pid = some p) (hk : p.packet = none) :
    ∃ q, (s.stopProc pid).proc pid = some q ∧ q.st = .stopped ∧ ((s.stopProc pid).core p.core).slots.all (· != some pid) = true ∧
      SameMemory s (s.stopProc pid) ∧ OtherProcs s (s.stopProc pid) [pid] := by
  rw [stopProc_eq h hk]
  have hslots := leaveSlot_slots s pid p.core
  rw [← unready_slots] at hslots
  exact ⟨_, enter_proc_self (s := (s.leaveSlot pid p.core).unready pid p.core) h _, rfl, hslots, sameMemory_of_eq rfl rfl rfl,
    fun n hn => enter_proc_ne (s := (s.leaveSlot pid p.core).unready pid p.core) (by simpa using hn) _⟩

end Scheduling

/-! ### How these instructions settle -/

section Settle

variable {e : Entry} {x : Args} {s : State} {p : Proc}

/-- Going on from the marks alone. -/
theorem retire_envOf (h : s.proc s.cur = some p) :
    (envOf e x s s.cur p).s.retire s.cur (p.nextPc x) = s.after e x p fun q => q := by
  simp only [envOf_s h, State.retire, withCur_mod, State.after]

theorem settle_next (h : s.proc s.cur = some p) :
    settle s s.cur p x (.next (envOf e x s s.cur p).s) = s.after e x p fun q => q := retire_envOf h

theorem settle_park (hk : p.packet = none) (r : Reason) (w : Wait) : settle s s.cur p x (.park s r w) = s.park s.cur r w := by
  simp only [settle, hk, Option.isSome_none, Bool.false_eq_true, if_false]

theorem settle_parkNext (h : s.proc s.cur = some p) (hk : p.packet = none) (r : Reason) (w : Wait) :
    settle s s.cur p x (.parkNext (envOf e x s s.cur p).s r w) = ((s.after e x p fun q => q).park s.cur r w).recheck s.cur := by
  simp only [settle, hk, Option.isSome_none, Bool.false_eq_true, if_false, retire_envOf h]

theorem settle_stop (h : s.proc s.cur = some p) :
    settle s s.cur p x (.stop (envOf e x s s.cur p).s) = (s.after e x p fun q => q).stopProc s.cur := by
  simp only [settle, retire_envOf h]

theorem after_proc (f : Proc → Proc) : (s.after e x p f).proc s.cur = some (procAfter e x p f) := withCur_cur s _

/-- Going on opens no packet. -/
theorem procAfter_packet (hk : p.packet = none) : (procAfter e x p fun q => q).packet = none := by
  rw [procAfter, taken_shape]
  simp only [Proc.retire, hk, Option.map_none]

theorem procAfter_core : (procAfter e x p fun q => q).core = p.core := by
  rw [procAfter, taken_shape]
  rfl

end Settle

/-! ### STOP (R233) -/

section Stop

variable {x : Args} {s : State} {p : Proc}

theorem stop_waits (h : Ready eStop x s p) (hd : s.drained s.cur p = false) (hk : p.packet = none) :
    exec (.stop x) s = .next (s.park s.cur .memoryServer .drained) := by
  show perform eStop x s _ = _
  rw [perform_ready h]
  simp only [envOf_s0, envOf_pid, envOf_p, hd, Bool.not_false, if_true, settle_park hk]

theorem stop_delayed (h : Ready eStop x s p) (hd : s.drained s.cur p = true) {f : FaultInfo} {rest : List FaultInfo}
    (hl : p.delayed = f :: rest) (ho : p.overflow = none) (hc : f.cause ≠ 6) :
    exec (.stop x) s = .next ((s.withCur { p with delayed := rest }).deliver s.cur f p.pc) := by
  show perform eStop x s _ = _
  rw [perform_ready h]
  simp only [envOf_s0, envOf_pid, envOf_p, hd, hl, ho, Bool.not_true, Bool.false_eq_true, if_false, settle, if_neg hc, modProc_eq _ h.proc]

theorem stop_stops (h : Ready eStop x s p) (hd : s.drained s.cur p = true) (hl : p.delayed = []) (ho : p.overflow = none) :
    exec (.stop x) s = .next ((s.after eStop x p fun q => q).stopProc s.cur) := by
  show perform eStop x s _ = _
  rw [perform_ready h]
  simp only [envOf_s0, envOf_pid, envOf_p, hd, hl, ho, Bool.not_true, Bool.false_eq_true, if_false, settle_stop h.proc]

end Stop

/-! ### YIELD, SPRI, NOP, TRAP and BRK (R58, R120, R234, R235) -/

section Simple

variable {x : Args} {s : State} {p : Proc}

theorem exec_yield (h : Ready eYield x s p) : exec (.yield x) s = .next (s.after eYield x p fun q => { q with yielded := true }) := by
  show perform eYield x s _ = _
  rw [perform_ready h, settle_upd h.proc]

theorem exec_spri (h : Ready eSpri x s p) : exec (.spri x) s = .next
    (if p.priv = false ∧ (p.scalar x.a.toNat).toNat % 4 < p.floor then s.deliver s.cur { cause := 4, info := p.floor } p.pc
      else s.after eSpri x p fun q => { q.wrOp x.d.toNat (BitVec.ofNat 64 p.prio) with
        prio := (p.scalar x.a.toNat).toNat % 4, lowered := true }) := by
  show perform eSpri x s _ = _
  rw [perform_ready h]
  have ha : (envOf eSpri x s s.cur p).a = p.scalar x.a.toNat := rfl
  simp only [envOf_p, envOf_x, ha]
  by_cases hf : p.priv = false ∧ (p.scalar x.a.toNat).toNat % 4 < p.floor
  · rw [if_pos hf, if_pos (by simpa using hf), settle_trap]
    rfl
  · rw [if_neg hf, if_neg (by simpa using hf), settle_upd h.proc]

theorem exec_nop (h : Ready eNop x s p) : exec (.nop x) s = .next (s.after eNop x p fun q => q) := by
  show perform eNop x s _ = _
  rw [perform_ready h, settle_next h.proc]

/-- The code of TRAP and BRK, IMM21[15:0]. -/
theorem trapCode_eq (x : Args) : x.im21.toNat % 65536 = (x.im21.extractLsb' 0 16).toNat := by
  simp

theorem exec_trap (h : Ready eTrap x s p) : exec (.trap x) s = .next
    (s.deliver s.cur { cause := 6, info := (x.im21.extractLsb' 0 16).toNat } (nextAddr p.pc x.len.bytes)) := by
  show perform eTrap x s _ = _
  rw [perform_ready h, settle_trap, if_pos rfl, envOf_x, trapCode_eq]
  rfl

theorem exec_brk (h : Ready eBrk x s p) : exec (.brk x) s = .next
    (s.deliver s.cur { cause := 5, info := (x.im21.extractLsb' 0 16).toNat } p.pc) := by
  show perform eBrk x s _ = _
  rw [perform_ready h, settle_trap, if_neg (by decide), envOf_x, trapCode_eq]

end Simple

/-! ### SLEEP (R236) -/

section Sleep

variable {x : Args} {s : State} {p : Proc}

/-- The tick that SLEEP of the process waits for. -/
def sleepTill (x : Args) (s : State) (p : Proc) : Nat := sleepTarget x (s.core p.core).tick (p.scalar x.a.toNat).toNat

theorem exec_sleep (h : Ready eSleep x s p) : exec (.sleep x) s = .next (settle s s.cur p x
    (if (s.core p.core).tick < sleepTill x s p then .parkNext (envOf eSleep x s s.cur p).s .sleep (.tick (sleepTill x s p))
      else .next (envOf eSleep x s s.cur p).s)) := by
  show perform eSleep x s _ = _
  rw [perform_ready h]
  rfl

theorem sleep_past (h : Ready eSleep x s p) (ht : sleepTill x s p ≤ (s.core p.core).tick) :
    exec (.sleep x) s = .next (s.after eSleep x p fun q => q) := by
  rw [exec_sleep h, if_neg (by omega), settle_next h.proc]

/-- A sleep whose tick has not come parks at the next instruction. -/
theorem sleep_parks (h : Ready eSleep x s p) (ht : (s.core p.core).tick < sleepTill x s p) (hk : p.packet = none) :
    exec (.sleep x) s = .next ((s.after eSleep x p fun q => q).park s.cur .sleep (.tick (sleepTill x s p))) := by
  have hp : (s.after eSleep x p fun q => q).proc s.cur = some (procAfter eSleep x p fun q => q) := after_proc _
  have htick := park_tick hp .sleep (.tick (sleepTill x s p))
  rw [procAfter_core] at htick
  have hwait : ¬ sleepTill x s p ≤ (((s.after eSleep x p fun q => q).park s.cur .sleep (.tick (sleepTill x s p))).core p.core).tick := by
    rw [htick]; exact not_le.2 ht
  rw [exec_sleep h, if_pos ht, settle_parkNext h.proc hk, recheck_waiting (park_proc_self hp _ _) rfl]
  simp only [State.waitDone, procAfter_core, hwait, decide_false]

end Sleep

/-- Settles O34: each clause is what its instruction settles to. -/
theorem nopTrapStopYieldSleep : Obligations.NopTrapStopYieldSleep := by
  refine ⟨fun x s p => ?_, fun x s p => exec_nop, fun x s p => ⟨exec_trap, exec_brk⟩⟩
  intro a now till
  refine ⟨fun h hd hl ho hk => ?stops, fun h hd hk => ?waits, fun f rest h hd hl ho hc => stop_delayed h hd hl ho hc, exec_yield, exec_spri,
    sleep_past, fun h ht hk => ?sleeps⟩
  case stops =>
    obtain ⟨q, hq, hst, hslots, hmem, hothers⟩ := stopProc_spec (after_proc (e := eStop) (x := x) (s := s) fun q => q) (procAfter_packet hk)
    rw [procAfter_core] at hslots
    exact ⟨_, q, stop_stops h hd hl ho, hq, hst, hslots, hmem, fun n hn => (hothers n hn).trans (after_otherProcs s eStop x p _ n hn)⟩
  case waits => exact ⟨_, _, _, stop_waits h hd hk, park_proc_self h.proc _ _, rfl, rfl, park_sameMemory h.proc _ _⟩
  case sleeps =>
    have hp : (s.after eSleep x p fun q => q).proc s.cur = some (procAfter eSleep x p fun q => q) := after_proc _
    exact ⟨_, _, _, sleep_parks h ht hk, park_proc_self hp _ _, rfl, rfl, park_sameMemory hp _ _, fun n hn =>
      (park_proc_ne hp (by simpa using hn) _ _).trans (after_otherProcs s eSleep x p _ n hn)⟩

end Sys2Proof.Proofs.Encoding
end

section
/-! The family of a process's state, first part: scalar integer arithmetic and bit instructions (O1), and division (O2). -/

namespace Sys2Proof.Proofs.ProcessState

open Sys2Proof Sys2Proof.Machine Sys2Proof.Proofs.Arithmetic

/-! ### The write-back and the operands (R95) -/

/-- The write-back under .sat: the exact result, clamped and reduced. -/
theorem intSat_eq (x : Args) (v : Int) : intSat x v = Spec.widen x (Spec.narrow x ((modOf .modw x).getLsbD 0) v) :=
  intWord_eq x _

theorem intSat_plain {x : Args} (hs : (modOf .modw x).getLsbD 0 = false) (v : Int) : intSat x v = Spec.widen x (BitVec.ofInt _ v) := by
  rw [intSat_eq, hs]
  rfl

/-- The low bits of an operand of an instruction, which its type reads. -/
abbrev lowA (e : Env) : BitVec (Spec.width e.x) := e.a.setWidth _
abbrev lowB (e : Env) : BitVec (Spec.width e.x) := e.b.setWidth _

theorem ix_eq (e : Env) : e.ix = Spec.exact e.x (lowA e) := intVal_eq e.x e.a
theorem iy_eq (e : Env) : e.iy = Spec.exact e.x (lowB e) := intVal_eq e.x e.b
theorem ua_eq (e : Env) : e.ua = (lowA e).toNat := (BitVec.toNat_setWidth _ _).symm
theorem ub_eq (e : Env) : e.ub = (lowB e).toNat := (BitVec.toNat_setWidth _ _).symm

theorem ofInt_exact (x : Args) (v : BitVec (Spec.width x)) : BitVec.ofInt _ (Spec.exact x v) = v := by
  unfold Spec.exact
  split
  · exact BitVec.ofInt_toInt
  · rw [BitVec.ofInt_natCast, BitVec.ofNat_toNat, BitVec.setWidth_eq]

theorem ofInt_toNat {w : Nat} (v : BitVec w) : BitVec.ofInt w (v.toNat : Int) = v := by
  rw [BitVec.ofInt_natCast, BitVec.ofNat_toNat, BitVec.setWidth_eq]

/-- A number of the type and its pattern differ by a multiple of 2^w, hence of the width. -/
theorem exact_emod_width (x : Args) (v : BitVec (Spec.width x)) : Spec.exact x v % (Spec.width x : Int) = ((v.toNat % Spec.width x : Nat) : Int) := by
  have hdvd : (Spec.width x : Int) ∣ ((2 ^ Spec.width x : Nat) : Int) := by
    have := tyWidth_mem (tyN x)
    simp only [List.mem_cons, List.not_mem_nil, or_false] at this
    show (tyWidth (tyN x) : Int) ∣ ((2 ^ tyWidth (tyN x) : Nat) : Int)
    rcases this with h | h | h | h <;> rw [h] <;> decide
  unfold Spec.exact
  split
  · rw [BitVec.toInt_eq_toNat_bmod, ← Int.emod_emod_of_dvd _ hdvd, Int.bmod_emod, Int.emod_emod_of_dvd _ hdvd, Int.natCast_emod]
  · exact (Int.natCast_emod _ _).symm

/-- n of R96 is the second operand modulo w. -/
theorem shiftN_eq (e : Env) : e.shiftN = (lowB e).toNat % Spec.width e.x := by
  show (e.iy % (Spec.width e.x : Int)).toNat = _
  rw [iy_eq, exact_emod_width, Int.toNat_natCast]

/-! ### Counts of bits (R96) -/

theorem leadingZeros_eq (v n : Nat) : leadingZeros v n = ((List.range n).find? fun i => v.testBit (n - 1 - i)).getD n := by
  induction n with
  | zero => rfl
  | succ n ih =>
    have hshift : ((fun i => v.testBit (n + 1 - 1 - i)) ∘ Nat.succ) = fun i => v.testBit (n - 1 - i) :=
      funext fun i => congrArg v.testBit (by simp only [Nat.succ_eq_add_one]; omega)
    rw [leadingZeros, List.range_succ_eq_map, List.find?_cons, List.find?_map, hshift, show n + 1 - 1 - 0 = n from rfl, ih]
    cases v.testBit n with
    | true => rfl
    | false => cases (List.range n).find? fun i => v.testBit (n - 1 - i) <;> rfl

theorem trailingZeros_eq (v i n : Nat) : trailingZeros v i n = ((List.range n).find? fun j => v.testBit (i + j)).getD n := by
  induction n generalizing i with
  | zero => rfl
  | succ n ih =>
    have hshift : ((fun j => v.testBit (i + j)) ∘ Nat.succ) = fun j => v.testBit (i + 1 + j) :=
      funext fun j => congrArg v.testBit (by simp only [Nat.succ_eq_add_one]; omega)
    rw [trailingZeros, List.range_succ_eq_map, List.find?_cons, List.find?_map, hshift, Nat.add_zero, ih]
    cases v.testBit i with
    | true => rfl
    | false => cases (List.range n).find? fun j => v.testBit (i + 1 + j) <;> rfl

theorem popCount_eq (v n : Nat) : popCount v n = (List.range n).countP fun i => v.testBit i := by
  induction n with
  | zero => rfl
  | succ n ih => rw [popCount, ih, List.range_succ, List.countP_append, List.countP_singleton]

/-- A rotated pattern: the bits moved up, and those that come round below them. -/
theorem rotL_eq {w : Nat} (v : BitVec w) (n : Nat) (hn : n < w) : rotL v.toNat w n = (v.rotateLeft n).toNat := by
  have hlow : v.toNat >>> (w - n) < 2 ^ n := by
    rw [Nat.shiftRight_eq_div_pow, Nat.div_lt_iff_lt_mul (by positivity), ← pow_add, Nat.add_sub_cancel' hn.le]
    exact v.isLt
  have hhigh : v.toNat <<< n % 2 ^ w = (v.toNat % 2 ^ (w - n)) <<< n := by
    rw [Nat.shiftLeft_eq, Nat.shiftLeft_eq, ← Nat.mul_mod_mul_right, ← pow_add, Nat.sub_add_cancel hn.le]
  rw [BitVec.toNat_rotateLeft, Nat.mod_eq_of_lt hn, hhigh, ← Nat.shiftLeft_add_eq_or_of_lt hlow, ← hhigh, rotL, Nat.shiftLeft_eq,
    Nat.shiftRight_eq_div_pow]

/-! ### The rows of R96 -/

theorem exec_satRows : ∀ r ∈ Spec.satRows, ∀ (x : Args) (s : State),
    exec (r.1 x) s = perform r.2.1 x s fun e => intOp e (r.2.2 e.ix e.iy) := by
  have hall : ∀ v : Int, (if v < 0 then -v else v) = |v| := fun v => by
    split
    · rw [abs_of_neg (by assumption)]
    · rw [abs_of_nonneg (by omega)]
  simp only [Spec.satRows, List.forall_mem_cons, List.not_mem_nil, false_imp_iff, implies_true, and_true]
  refine ⟨fun _ _ => rfl, fun _ _ => rfl, fun _ _ => rfl, fun x s => ?abs, fun _ _ => rfl⟩
  show execAbs x s = _
  simp only [execAbs, hall]

/-- An instruction on w-bit patterns: it writes back a number whose low bits are `f` of the low bits of its operands. -/
def OnPatterns (con : Args → Instr) (entry : Entry) (f : (w : Nat) → Bool → BitVec w → BitVec w → BitVec w) : Prop :=
  ∃ v : Env → Int, (∀ x s, exec (con x) s = perform entry x s fun e => intOp e (v e)) ∧
    ∀ e, BitVec.ofInt (Spec.width e.x) (v e) = f _ (tySigned (tyN e.x)) (lowA e) (lowB e)

/-- Where the number written back is the pattern that R96 gives. -/
theorem onPatterns_of_toNat {con : Args → Instr} {entry : Entry} {f : (w : Nat) → Bool → BitVec w → BitVec w → BitVec w} (v : Env → Nat)
    (hexec : ∀ x s, exec (con x) s = perform entry x s fun e => intOp e (v e : Int))
    (hv : ∀ e, v e = (f (Spec.width e.x) (tySigned (tyN e.x)) (lowA e) (lowB e)).toNat) : OnPatterns con entry f :=
  ⟨fun e => v e, hexec, fun e => by simp only [hv, ofInt_toNat]⟩

section Rows

variable (e : Env)

theorem isLess_iff (x : Args) (a b : BitVec (Spec.width x)) :
    Spec.isLess (tySigned (tyN x)) a b = true ↔ Spec.exact x a < Spec.exact x b := by
  unfold Spec.exact Spec.isLess
  cases tySigned (tyN x) with
  | true => exact BitVec.slt_iff_toInt_lt
  | false => exact BitVec.ult_iff_toNat_lt.trans Nat.cast_lt.symm

theorem exact_min : min e.ix e.iy =
    Spec.exact e.x (if Spec.isLess (tySigned (tyN e.x)) (lowB e) (lowA e) then lowB e else lowA e) := by
  rw [ix_eq, iy_eq]
  split <;> rename_i h <;> rw [isLess_iff] at h <;> omega

theorem exact_max : max e.ix e.iy =
    Spec.exact e.x (if Spec.isLess (tySigned (tyN e.x)) (lowA e) (lowB e) then lowB e else lowA e) := by
  rw [ix_eq, iy_eq]
  split <;> rename_i h <;> rw [isLess_iff] at h <;> omega

theorem ofInt_shl : BitVec.ofInt (Spec.width e.x) (e.ix * 2 ^ e.shiftN) = lowA e <<< ((lowB e).toNat % Spec.width e.x) := by
  have hpow : BitVec.ofInt (Spec.width e.x) (2 ^ e.shiftN) = BitVec.twoPow _ e.shiftN := by
    rw [show (2 : Int) ^ e.shiftN = ((2 ^ e.shiftN : Nat) : Int) by push_cast; rfl, BitVec.ofInt_natCast]
    apply BitVec.eq_of_toNat_eq
    rw [BitVec.toNat_ofNat, BitVec.toNat_twoPow]
  rw [BitVec.ofInt_mul, hpow, BitVec.mul_twoPow_eq_shiftLeft, ix_eq, ofInt_exact, shiftN_eq]

theorem ofInt_sra : BitVec.ofInt (Spec.width e.x) ((sextN e.a.toNat (tyWidth (tyN e.x))).toInt / 2 ^ e.shiftN)
    = (lowA e).sshiftRight ((lowB e).toNat % Spec.width e.x) := by
  have hlow : BitVec.ofNat (Spec.width e.x) e.a.toNat = lowA e := BitVec.ofNat_toNat _ _
  have hsext : (sextN e.a.toNat (Spec.width e.x)).toInt = (lowA e).toInt := by
    rw [sextN_eq _ (width_pos e.x) (width_le e.x), hlow, BitVec.toInt_signExtend_of_le (width_le e.x)]
  rw [hsext, shiftN_eq, BitVec.sshiftRight, Int.shiftRight_eq_div_pow]
  push_cast
  rfl

theorem ua_xor_and : e.ua ^^^ (e.ua &&& e.ub) = (lowA e &&& ~~~lowB e).toNat := by
  have : lowA e ^^^ (lowA e &&& lowB e) = lowA e &&& ~~~lowB e := by
    ext i hi
    simp only [BitVec.getElem_xor, BitVec.getElem_and, BitVec.getElem_not]
    cases (lowA e)[i] <;> cases (lowB e)[i] <;> rfl
  rw [ua_eq, ub_eq, ← BitVec.toNat_and, ← BitVec.toNat_xor, this]

/-- A count of at most w bits is a w-bit pattern. -/
theorem ofInt_count {n m : Nat} (h : n = m) : BitVec.ofInt (Spec.width e.x) (n : Int) = BitVec.ofNat _ m := by
  rw [BitVec.ofInt_natCast, h]

end Rows

/-- Each row of R96 acts on the low bits of its operands as its pattern operation. -/
theorem bitRows_onPatterns : ∀ r ∈ Spec.bitRows, OnPatterns r.1 r.2.1 r.2.2 := by
  simp only [Spec.bitRows, List.forall_mem_cons, List.not_mem_nil, false_imp_iff, implies_true, and_true]
  refine ⟨⟨_, fun _ _ => rfl, fun e => ?mulh⟩, onPatterns_of_toNat _ (fun _ _ => rfl) fun e => ?and,
    onPatterns_of_toNat _ (fun _ _ => rfl) fun e => ?or, onPatterns_of_toNat _ (fun _ _ => rfl) fun e => ?xor,
    onPatterns_of_toNat _ (fun _ _ => rfl) fun e => ua_xor_and e, ⟨_, fun _ _ => rfl, fun e => ofInt_shl e⟩,
    onPatterns_of_toNat _ (fun _ _ => rfl) fun e => ?shr, ⟨_, fun _ _ => rfl, fun e => ofInt_sra e⟩,
    onPatterns_of_toNat _ (fun _ _ => rfl) fun e => ?rol, ⟨_, fun _ _ => rfl, fun e => ofInt_count e ?clz⟩,
    ⟨_, fun _ _ => rfl, fun e => ofInt_count e ?ctz⟩, ⟨_, fun _ _ => rfl, fun e => ofInt_count e ?popc⟩,
    ⟨_, fun _ _ => rfl, fun e => ?min⟩, ⟨_, fun _ _ => rfl, fun e => ?max⟩, ⟨_, fun _ _ => rfl, fun e => ?mov⟩⟩
  case mulh => rw [ix_eq, iy_eq]; rfl
  case and => rw [ua_eq, ub_eq, BitVec.toNat_and]
  case or => rw [ua_eq, ub_eq, BitVec.toNat_or]
  case xor => rw [ua_eq, ub_eq, BitVec.toNat_xor]
  case shr => rw [ua_eq, shiftN_eq, BitVec.toNat_ushiftRight, Nat.shiftRight_eq_div_pow]
  case rol =>
    rw [ua_eq, shiftN_eq]
    exact rotL_eq _ _ (Nat.mod_lt _ (width_pos e.x))
  case clz => rw [ua_eq]; exact leadingZeros_eq _ _
  case ctz =>
    rw [ua_eq, trailingZeros_eq]
    simp only [Nat.zero_add]
    rfl
  case popc => rw [ua_eq]; exact popCount_eq _ _
  case min => rw [exact_min, ofInt_exact]
  case max => rw [exact_max, ofInt_exact]
  case mov => rw [ix_eq, ofInt_exact]

/-- Settles O1: each row writes back the number that its operands give, and a number that is a pattern writes back that pattern. -/
theorem integerArithmetic : Obligations.IntegerArithmetic := by
  refine ⟨fun r hr x s p h _ => ?sat, fun r hr x s p h _ hs => ?bits⟩
  case sat =>
    rw [exec_satRows r hr]
    refine settle_ret_ready h (congrArg (Env.ret _) ?_)
    rw [envOf_x, ix_eq, iy_eq, intSat_eq]
    rfl
  case bits =>
    obtain ⟨v, hexec, hv⟩ := bitRows_onPatterns r hr
    rw [hexec]
    refine settle_ret_ready h (congrArg (Env.ret _) ?_)
    rw [envOf_x, intSat_plain hs]
    exact congrArg (Spec.widen x) (hv (envOf r.2.1 x s s.cur p))

/-! ### Division (R97) -/

theorem exact_eq_zero_iff (x : Args) (v : BitVec (Spec.width x)) : Spec.exact x v = 0 ↔ v = 0 := by
  have h0 : Spec.exact x 0 = 0 := by
    unfold Spec.exact
    split <;> simp
  exact ⟨fun h => exact_injective x (h.trans h0.symm), fun h => h ▸ h0⟩

/-- A division faults on a zero divisor, and else writes back its exact result. -/
theorem perform_divide {e : Entry} {x : Args} {s : State} {p : Proc} (h : Ready e x s p) (hs : (modOf .modw x).getLsbD 0 = false)
    {f : Int → Int → Int} {body : Env → Act}
    (hbody : ∀ env, body env = if env.iy = 0 then env.trap 8 else intOp env (f env.ix env.iy)) :
    perform e x s body = .next (if Spec.argB e x s p = 0 then s.deliver s.cur { cause := 8 } p.pc
      else s.after e x p fun q => q.wrOp x.d.toNat (Spec.widen x
        (BitVec.ofInt _ (f (Spec.exact x (Spec.argA e x s p)) (Spec.exact x (Spec.argB e x s p)))))) := by
  have hy : (envOf e x s s.cur p).iy = Spec.exact x (Spec.argB e x s p) := iy_eq _
  by_cases hz : Spec.argB e x s p = 0
  · rw [if_pos hz]
    refine perform_trap h (by decide) ?_
    rw [hbody, hy, if_pos ((exact_eq_zero_iff x _).2 hz)]
  · rw [if_neg hz]
    refine settle_ret_ready h ?_
    rw [hbody, hy, if_neg (mt (exact_eq_zero_iff x _).1 hz), ix_eq]
    exact congrArg (Env.ret _) (intSat_plain hs _)

/-- Settles O2: REM's exact result is x − y · (x / y). -/
theorem integerDivides : Obligations.IntegerDivides := by
  refine ⟨fun x s p h _ hs => ?div, fun x s p h _ hs => ?rem, fun _ => ⟨rfl, rfl⟩⟩
  case div => exact perform_divide h hs (f := Int.tdiv) fun _ => rfl
  case rem => exact perform_divide h hs (f := Int.tmod) fun env => by rw [Int.tmod_def]

end Sys2Proof.Proofs.ProcessState
end

section
/-! The family of a process's state, second part: why the clause about PSET does not hold of every `Args` (O3), and the reads of
control registers (O13). -/

namespace Sys2Proof.Proofs.ProcessState

open Sys2Proof Sys2Proof.Machine Sys2Proof.Proofs.Arithmetic

/-! ### PSET with I = 1 (R103) -/

/-- PSET p1, p1, p1 with the table T = 1 and I = 1, which no encoding has: PSET takes no immediate (R103). -/
def psetImmediate : Args := { Spec.plain with len := .l96, i := true, d := 1, a := 1, b := 1, im21 := 0x400, ext := 1 }

/-- A process whose predicates beside p0 are false. -/
def scalarProc : Proc := { ctx := 0, rank := 0, core := 0 }

def scalarMachine : State := { State.reset with procs := [(0, scalarProc)] }

theorem scalarMachine_ready : Ready ePset psetImmediate scalarMachine scalarProc := by
  constructor <;> decide

/-- p1 of process 0 in the state that an instruction leaves. -/
def p1After : Host.Outcome State Fault Refusal → Option Bool
  | .next t => (t.proc 0).map fun p => p.predV 1
  | _ => none

/-- With I = 1 operand B is the immediate, 1, which counts as true: PSET writes bit 1 of T. -/
theorem p1After_psetImmediate : p1After (exec (.pset psetImmediate) scalarMachine) = some false := by decide +kernel

/-- Both predicates are false: the clause asks for bit 0 of T. -/
theorem p1After_tableBit : p1After (.next (scalarMachine.after ePset psetImmediate scalarProc fun q => q.wr (.p 1)
    (if (modOf .modw psetImmediate).getLsbD (2 * (scalarProc.predV 1).toNat + (scalarProc.predV 1).toNat) then 1 else 0)))
    = some true := by decide +kernel

/-- Refutes O3, in its clause about PSET: the clause takes the predicate that field B names, and no hypothesis excludes I = 1,
where operand B is the immediate. -/
theorem not_integerMoves : ¬ Obligations.IntegerMoves := by
  rintro ⟨-, -, pset⟩
  have hexec := congrArg p1After (pset psetImmediate scalarMachine scalarProc scalarMachine_ready)
  rw [p1After_psetImmediate] at hexec
  exact absurd (hexec.trans p1After_tableBit) (by decide)

/-! ### CRR, TICK and SELF (R122 to R124) -/

section Reads

variable {x : Args} {s : State} {p : Proc}

/-- Where no TMMA holds it up (R302), CRR writes what the control register reads as. -/
theorem exec_crr (h : Ready eCrr x s p) (hb : crNum x = 6 → s.tmmaBusy s.cur p.core = false) :
    exec (.crr x) s = .next (s.after eCrr x p fun q => q.wrOp x.d.toNat (s.crRead p (crNum x))) := by
  have hready : ¬ (decide (crNum x = 6) && s.tmmaBusy s.cur p.core) = true := by
    simpa using hb
  refine settle_ret_ready h ((if_neg hready).trans ?_)
  rw [envOf_s h.proc]
  rfl

/-- A process's own registers stand in it. -/
theorem crRead_own {n : Nat} {v : Word} (h : (n, v) ∈ Spec.ownRegs p) : s.crRead p n = v := by
  simp only [Spec.ownRegs, List.cons_append, List.nil_append, List.mem_cons, Prod.mk.injEq, List.mem_map, List.mem_range] at h
  rcases h with ⟨rfl, rfl⟩ | ⟨rfl, rfl⟩ | ⟨rfl, rfl⟩ | ⟨rfl, rfl⟩ | ⟨rfl, rfl⟩ | ⟨rfl, rfl⟩ | ⟨rfl, rfl⟩ | ⟨rfl, rfl⟩ |
    ⟨rfl, rfl⟩ | ⟨i, hi, rfl, rfl⟩
  case inr.inr.inr.inr.inr.inr.inr.inr.inr => interval_cases i <;> rfl
  all_goals rfl

/-- The bit of CR.OLOG that says that the log is full (R191). -/
theorem logFull_bit (b : Bool) : (if b then 2 ^ 61 else 0) = b.toNat * 2 ^ 61 := by cases b <;> rfl

/-- Those that it shares stand in its context, its die, its core and the module. -/
theorem crRead_shared {n : Nat} {v : Word} (h : (n, v) ∈ Spec.sharedRegs s p) : s.crRead p n = v := by
  simp only [Spec.sharedRegs, List.mem_cons, Prod.mk.injEq, List.not_mem_nil, or_false] at h
  rcases h with ⟨rfl, rfl⟩ | ⟨rfl, rfl⟩ | ⟨rfl, rfl⟩ | ⟨rfl, rfl⟩ | ⟨rfl, rfl⟩ | ⟨rfl, rfl⟩ | ⟨rfl, rfl⟩
  case inr.inr.inl => rw [← logFull_bit]; rfl
  all_goals rfl

theorem exec_tick (h : Ready eTick x s p) :
    exec (.tick x) s = .next (s.after eTick x p fun q => q.wrOp x.d.toNat (BitVec.ofNat 64 (s.core p.core).tick)) := by
  refine settle_ret_ready h ?_
  rw [envOf_s h.proc]
  rfl

/-- The field that SELF's code names (R124). -/
def selfField (s : State) (p : Proc) (n : Nat) : Nat := ([p.rank, p.core, p.ctx, s.devId, p.prio, p.priv.toNat][n]?).getD 0

/-- SELF's fifth field is the privilege as a number (R124). -/
theorem ite_priv (b : Bool) : (if b then 1 else 0) = b.toNat := by cases b <;> rfl

theorem exec_self (h : Ready eSelf x s p) (hm : mN x < 6) :
    exec (.self x) s = .next (s.after eSelf x p fun q => q.wrOp x.d.toNat (BitVec.ofNat 64 (selfField s p (mN x)))) := by
  refine settle_ret_ready h (congrArg (fun n => Env.ret _ (BitVec.ofNat 64 n)) ?_)
  rw [envOf_s h.proc, envOf_x, envOf_p, Nat.mod_eq_of_lt (by omega)]
  generalize mN x = n at hm ⊢
  interval_cases n
  iterate 5 exact rfl
  exact ite_priv p.priv

end Reads

/-- Settles O13: each number of the two tables reads as its register. -/
theorem controlRegisterReads : Obligations.ControlRegisterReads := by
  refine ⟨fun x s p h hb r hr hn => ?crr, fun x s p => ⟨exec_tick, fun h hm => ⟨_, exec_self h hm, ?self⟩⟩⟩
  case crr =>
    have hread : s.crRead p (crNum x) = r.2 := hn ▸ (List.mem_append.1 hr).elim crRead_own crRead_shared
    rw [exec_crr h hb, hread]
  case self =>
    generalize mN x = n at hm ⊢
    interval_cases n <;> rfl

end Sys2Proof.Proofs.ProcessState
end

section
/-! The family of a process's state, third part: address registers (O6, O7) and the access check (O8). -/

namespace Sys2Proof.Proofs.ProcessState

open Sys2Proof Sys2Proof.Machine Sys2Proof.Proofs.Arithmetic

/-! ### The checks on an address register (R91, R112) -/

/-- A register with permissions and space `ps` may be derived from `src`: it is enabled, of the same space, and lacks no
permission that `ps` has. -/
def Derivable (src : AReg) (ps : BitVec 8) : Prop :=
  src.ps.getLsbD 5 = true ∧ ps.extractLsb' 6 2 = src.ps.extractLsb' 6 2 ∧ (ps &&& ~~~src.ps) &&& 0x3E = 0

/-- `n` bytes at `base` are a range of `src`, of a size that LEN can hold. -/
def FitsIn (src : AReg) (base : Word) (n : Nat) : Prop := n < 2 ^ 40 ∧ Spec.inRange src base.toNat n

theorem grants_iff (src : AReg) (m : BitVec 8) : src.grants m = true ↔ m &&& ~~~src.ps = 0 := by
  simp only [AReg.grants, beq_iff_eq]

theorem holds_iff (src : AReg) (lo n : Nat) : src.holds lo n = true ↔ Spec.inRange src lo n := by
  simp only [AReg.holds, Bool.and_eq_true, decide_eq_true_eq, Spec.inRange]

theorem refused15_iff (src new : AReg) :
    (!src.valid || new.space != src.space || !src.grants (new.ps &&& 0x3E)) = true ↔ ¬ Derivable src new.ps := by
  have hgrants : src.grants (new.ps &&& 0x3E) = true ↔ (new.ps &&& ~~~src.ps) &&& 0x3E = 0 := by
    rw [grants_iff, BitVec.and_assoc, BitVec.and_comm 0x3E, BitVec.and_assoc]
  have hspace : new.space = src.space ↔ new.ps.extractLsb' 6 2 = src.ps.extractLsb' 6 2 := BitVec.toNat_inj
  rw [Derivable, ← hgrants, ← hspace, AReg.valid]
  simp only [Bool.or_eq_true, Bool.not_eq_true', bne_iff_ne]
  generalize src.ps.getLsbD 5 = valid
  generalize src.grants _ = grants
  cases valid <;> cases grants <;> simp

theorem refused14_iff (src : AReg) (base : Word) (n : Nat) :
    (decide (2 ^ 40 ≤ n) || !src.holds base.toNat n) = true ↔ ¬ FitsIn src base n := by
  rw [FitsIn, ← holds_iff]
  simp only [Bool.or_eq_true, decide_eq_true_eq, Bool.not_eq_true']
  rw [not_and_or, Bool.not_eq_true, not_lt]

/-- The permission bits that MOD names. -/
theorem modMask_eq (x : Args) : BitVec.ofNat 8 (mN x) = (modOf .modw x).setWidth 8 := BitVec.ofNat_toNat _ _

/-! ### AMK (R112) -/

/-- The register [base, base + n) that AMK makes under the permissions of its MOD. -/
def amkReg (x : Args) (base : Word) (n : Nat) : AReg :=
  { ps := (modOf .modw x).setWidth 8 &&& 0xFE, len := BitVec.ofNat 40 n, base := base, ptr := base }

section Instructions

variable {e : Entry} {x : Args} {s : State} {p : Proc}

/-- An instruction that writes a whole address register. -/
theorem perform_retA (h : Ready e x s p) {body : Env → Act} {v : AReg}
    (hb : body (envOf e x s s.cur p) = (envOf e x s s.cur p).retA v) :
    perform e x s body = .next (s.after e x p fun q => q.wrAddr x.d.toNat v) := by
  rw [perform_ready h, hb, settle_retA h.proc]

/-- AMK from zero. -/
theorem exec_amk_zero (h : Ready eAmk x s p) (ha : x.a = 56) {base : Word} (hb : (envOf eAmk x s s.cur p).b = base) :
    let n := (p.scalar (cOf .modw x).toNat).toNat
    (n < 2 ^ 40 ∧ base.toNat + n ≤ 2 ^ 64 → exec (.amk x) s = .next (s.after eAmk x p fun q => q.wrAddr x.d.toNat (amkReg x base n))) ∧
    (¬ (n < 2 ^ 40 ∧ base.toNat + n ≤ 2 ^ 64) → exec (.amk x) s = .next (s.deliver s.cur { cause := 14 } p.pc)) := by
  intro n
  have hc : (envOf eAmk x s s.cur p).c.toNat = n := rfl
  refine ⟨fun hok => perform_retA h ?_, fun hok => perform_trap h (by decide) ?_⟩ <;>
    simp only [envOf_x, ha, if_true, hb, hc, modMask_eq]
  · rw [if_neg (by simpa using hok)]
    rfl
  · rw [if_pos (by simpa [Nat.not_lt, imp_iff_not_or] using hok)]

/-- AMK from a register. -/
theorem exec_amk_source (h : Ready eAmk x s p) (ha : x.a ≠ 56) {base : Word} (hb : (envOf eAmk x s s.cur p).b = base) :
    let n := (p.scalar (cOf .modw x).toNat).toNat
    let ok15 := Derivable (Spec.srcA x p) ((modOf .modw x).setWidth 8 &&& 0xFE)
    let ok14 := FitsIn (Spec.srcA x p) base n
    (ok15 ∧ ok14 → exec (.amk x) s = .next (s.after eAmk x p fun q => q.wrAddr x.d.toNat (amkReg x base n))) ∧
    (¬ ok15 → exec (.amk x) s = .next (s.deliver s.cur { cause := 15 } p.pc)) ∧
    (ok15 ∧ ¬ ok14 → exec (.amk x) s = .next (s.deliver s.cur { cause := 14 } p.pc)) := by
  intro n ok15 ok14
  have hc : (envOf eAmk x s s.cur p).c.toNat = n := rfl
  have hsrc : (envOf eAmk x s s.cur p).areg x.a = Spec.srcA x p := rfl
  have h15 := refused15_iff (Spec.srcA x p) (amkReg x base n)
  have h14 := refused14_iff (Spec.srcA x p) base n
  refine ⟨fun hok => perform_retA h ?_, fun hok => perform_trap h (by decide) ?_, fun hok => perform_trap h (by decide) ?_⟩ <;>
    simp only [envOf_x, ha, if_false, hb, hc, hsrc, modMask_eq]
  · exact (if_neg (mt h15.1 (not_not.2 hok.1))).trans (if_neg (mt h14.1 (not_not.2 hok.2)))
  · exact if_pos (h15.2 hok)
  · exact (if_neg (mt h15.1 (not_not.2 hok.1))).trans (if_pos (h14.2 hok.2))

/-! ### ANAR, ASETP and AADV (R113 to R115) -/

/-- The source with only the permissions that it has and MOD names. -/
def anarReg (x : Args) (src : AReg) : AReg := { src with ps := src.ps &&& ((modOf .modw x).setWidth 8 ||| 0xC1) }

theorem exec_anar (h : Ready eAnar x s p) :
    exec (.anar x) s = .next (s.after eAnar x p fun q => q.wrAddr x.d.toNat (anarReg x (Spec.srcA x p))) := by
  refine perform_retA h ?_
  simp only [envOf_x, modMask_eq]
  rfl

theorem exec_asetp (h : Ready eAsetp x s p) (hi : x.i = false) : exec (.asetp x) s = .next (s.after eAsetp x p fun q =>
    q.wrAddr x.d.toNat { Spec.srcA x p with ptr := p.scalar x.b.toNat }) := by
  refine perform_retA h ?_
  rw [envOf_b_reg hi rfl]
  rfl

/-- Sign extension of the low bits of a field. -/
theorem sextN_toNat {m n : Nat} (v : BitVec m) (h0 : 0 < n) (h64 : n ≤ 64) : sextN v.toNat n = (v.setWidth n).signExtend 64 := by
  rw [sextN_eq _ h0 h64, BitVec.ofNat_toNat]

/-- The offset of an instruction by its length (R71, R73). -/
theorem offset_eq (x : Args) : offset x = Spec.branchOff x := by
  cases hl : x.len <;> simp only [offset, immRaw, Spec.branchOff, hl, if_true]
  · rw [sextN_toNat _ (by decide) (by decide), BitVec.setWidth_eq]
  · rw [sextN_toNat _ (by decide) (by decide)]

/-- AADV, by the exact advance of its pointer. -/
theorem exec_aadv (h : Ready eAadv x s p) {to_ : Int} (ht : ((Spec.srcA x p).ptr.toNat : Int) + aadvBy (envOf eAadv x s s.cur p) = to_) :
    exec (.aadv x) s = .next (
      if (Spec.srcA x p).ps.getLsbD 5 = false then s.deliver s.cur { cause := 15, faddr := BitVec.ofInt 64 to_ } p.pc
      else if to_ < (Spec.srcA x p).base.toNat ∨ ((Spec.srcA x p).base.toNat : Int) + (Spec.srcA x p).len.toNat < to_ then
        s.deliver s.cur { cause := 13, faddr := BitVec.ofInt 64 to_ } p.pc
      else s.after eAadv x p fun q => q.wrAddr x.d.toNat { Spec.srcA x p with ptr := BitVec.ofInt 64 to_ }) := by
  have hsrc : (envOf eAadv x s s.cur p).areg x.a = Spec.srcA x p := rfl
  split
  case isTrue hv =>
    refine perform_trap h (by decide) ?_
    simp only [envOf_x, hsrc, ht, AReg.valid, hv, Bool.not_false, if_true]
  case isFalse hv =>
    split
    case isTrue hr =>
      refine perform_trap h (by decide) ?_
      simp only [envOf_x, hsrc, ht, AReg.valid, hv, Bool.not_true, Bool.false_eq_true, if_false]
      rw [if_pos (by simpa using hr)]
    case isFalse hr =>
      refine perform_retA h ?_
      simp only [envOf_x, hsrc, ht, AReg.valid, hv, Bool.not_true, Bool.false_eq_true, if_false]
      rw [if_neg (by simpa using hr)]

end Instructions

/-- Settles O6: each instruction's outcome, with operand B a register; AGET's body is its clause. -/
theorem addressRegisterResults : Obligations.AddressRegisterResults := by
  refine ⟨fun x s p => ⟨fun h => settle_ret_ready h rfl, exec_anar, exec_asetp, fun h hi => exec_aadv h ?aadv⟩,
    fun x s p h => ⟨fun ha hi => exec_amk_zero h ha (envOf_b_reg hi rfl), fun ha hi => exec_amk_source h ha (envOf_b_reg hi rfl)⟩⟩
  case aadv => rw [aadvBy, envOf_b_reg hi rfl, offset_eq, envOf_x, ← add_assoc]

/-! ### Authority (R112 to R114) -/

theorem inRange_refl (src : AReg) : Spec.inRange src src.base.toNat src.len.toNat := ⟨le_rfl, le_rfl⟩

theorem within_amkReg {x : Args} {src : AReg} {base : Word} {n : Nat} (h15 : Derivable src ((modOf .modw x).setWidth 8 &&& 0xFE))
    (h14 : FitsIn src base n) : Spec.within (amkReg x base n) src := by
  obtain ⟨-, hspace, hperms⟩ := h15
  obtain ⟨hn, hrange⟩ := h14
  refine ⟨hspace, hperms, ?_⟩
  rwa [amkReg, BitVec.toNat_ofNat, Nat.mod_eq_of_lt hn]

/-- Clearing permission bits keeps the space and adds no permission. -/
theorem within_anarReg (x : Args) (src : AReg) : Spec.within (anarReg x src) src := by
  refine ⟨?_, ?_, inRange_refl src⟩
  · ext i hi
    interval_cases i <;> simp [anarReg]
  · ext i hi
    simp only [anarReg, BitVec.getElem_and, BitVec.getElem_not]
    cases src.ps[i] <;> simp

/-- A moved pointer has the authority of before. -/
theorem within_ptr (src : AReg) (v : Word) : Spec.within { src with ptr := v } src := by
  refine ⟨rfl, ?_, inRange_refl src⟩
  rw [BitVec.and_not_self]
  rfl

/-- Settles O7: what AMK makes has passed the checks of R112, ANAR clears permissions, and AADV moves the pointer. -/
theorem authorityNeverWidens : Obligations.AuthorityNeverWidens := by
  simp only [Obligations.AuthorityNeverWidens, List.forall_mem_cons, List.not_mem_nil, false_imp_iff, implies_true, and_true]
  refine ⟨fun x s p h ha => ?amk, fun x s p h _ => .inr ⟨_, within_anarReg x _, exec_anar h⟩, fun x s p h _ => ?aadv⟩
  case amk =>
    obtain ⟨made, fault15, fault14⟩ := exec_amk_source h ha rfl
    by_cases h15 : Derivable (Spec.srcA x p) ((modOf .modw x).setWidth 8 &&& 0xFE)
    · by_cases h14 : FitsIn (Spec.srcA x p) (envOf eAmk x s s.cur p).b (p.scalar (cOf .modw x).toNat).toNat
      · exact .inr ⟨_, within_amkReg h15 h14, made ⟨h15, h14⟩⟩
      · exact .inl ⟨14, by decide, 0, fault14 ⟨h15, h14⟩⟩
    · exact .inl ⟨15, by decide, 0, fault15 h15⟩
  case aadv =>
    have hexec := exec_aadv h rfl
    split at hexec
    · exact .inl ⟨15, by decide, _, hexec⟩
    · split at hexec
      · exact .inl ⟨13, by decide, _, hexec⟩
      · exact .inr ⟨_, within_ptr _ _, hexec⟩

/-! ### ACHK (R116) -/

/-- The permission bits of PS are 1 to 5. -/
theorem permBits (i : Nat) (hi : i < 8) : (0x3E : BitVec 8).getLsbD i = decide (1 ≤ i ∧ i ≤ 5) := by
  interval_cases i <;> rfl

/-- The permissions that MOD names are all granted. -/
theorem grants_modMask_iff (x : Args) (src : AReg) : src.grants (BitVec.ofNat 8 (mN x) &&& 0x3E) = true ↔
    ∀ i, 1 ≤ i → i ≤ 5 → (modOf .modw x).getLsbD i = true → src.ps.getLsbD i = true := by
  have hbit : ∀ i < 8, ((modOf .modw x).setWidth 8 &&& 0x3E &&& ~~~src.ps).getLsbD i =
      ((modOf .modw x).getLsbD i && decide (1 ≤ i ∧ i ≤ 5) && !src.ps.getLsbD i) := fun i hi => by
    rw [BitVec.getLsbD_and, BitVec.getLsbD_and, permBits i hi, BitVec.getLsbD_setWidth, BitVec.getLsbD_not]
    simp only [hi, decide_true, Bool.true_and]
  rw [grants_iff, modMask_eq]
  constructor
  · intro h i h1 h5 hm
    have := hbit i (by omega)
    rw [h, hm, decide_eq_true ⟨h1, h5⟩] at this
    simpa using this
  · intro h
    refine BitVec.eq_of_getLsbD_eq fun i hi => ?_
    rw [hbit i hi, show (0 : BitVec 8).getLsbD i = false from BitVec.getLsbD_zero]
    by_cases hr : 1 ≤ i ∧ i ≤ 5
    · cases hm : (modOf .modw x).getLsbD i with
      | true => rw [h i hr.1 hr.2 hm]; simp
      | false => simp
    · simp [hr]

/-- The three checks of ACHK. -/
def accessAllowed (x : Args) (p : Proc) : Bool :=
  (Spec.srcA x p).valid && (Spec.srcA x p).grants (BitVec.ofNat 8 (mN x) &&& 0x3E)
    && (Spec.srcA x p).holds (Spec.srcA x p).ptr.toNat (p.scalar x.b.toNat).toNat

theorem exec_achk {x : Args} {s : State} {p : Proc} (h : Ready eAchk x s p) (hi : x.i = false) :
    exec (.achk x) s = .next (s.after eAchk x p fun q => q.wr (.p x.d.toNat) (if accessAllowed x p then 1 else 0)) := by
  show perform eAchk x s _ = _
  rw [perform_ready h, settle_retP h.proc, envOf_b_reg hi rfl]
  rfl

/-- Settles O8: ACHK writes the conjunction of its three checks. -/
theorem accessCheck : Obligations.AccessCheck := by
  refine ⟨fun _ => rfl, fun x s p h hi => ⟨_, exec_achk h hi, ?checks⟩⟩
  case checks =>
    rw [accessAllowed, Bool.and_eq_true, Bool.and_eq_true, grants_modMask_iff, holds_iff, and_assoc]
    rfl

end Sys2Proof.Proofs.ProcessState
end

section
/-! The family of a process's state, fourth part: the register window (R86), control transfers (O9), the delivery of a fault to
a handler (O10) and the return from it (O12). -/

namespace Sys2Proof.Proofs.ProcessState

open Sys2Proof Sys2Proof.Machine Sys2Proof.Proofs.Arithmetic Sys2Proof.Proofs.Encoding

/-! ### Room for a slide (R86, R87) -/

/-- A property of the entries' values that a new value shares is listed as before. -/
theorem map_tblSet_of_eq {α β : Type} {t : Tbl α} {n : Nat} {v w : α} (g : α → β) (h : tblGet t n = some v) (hg : g w = g v) :
    (tblSet t n w).map (fun e => g e.2) = t.map fun e => g e.2 := by
  induction t with
  | nil => simp [tblGet] at h
  | cons a t ih =>
    obtain ⟨k, u⟩ := a
    simp only [tblGet] at h
    simp only [tblSet]
    split at h
    next hk =>
      obtain rfl := Option.some.inj h
      rw [if_pos hk, List.map_cons, List.map_cons, hg]
    next hk =>
      split at h
      next => simp at h
      next hlt => rw [if_neg hk, if_neg hlt, List.map_cons, List.map_cons, ih h]

/-- A process that holds the same frames on the same core takes as many register-stack entries (R87). -/
theorem stackUsed_withCur {s : State} {p q : Proc} (h : s.proc s.cur = some p) (hcore : q.core = p.core)
    (hres : q.resident = p.resident) (hframes : q.res = p.res) (core : Nat) : (s.withCur q).stackUsed core = s.stackUsed core := by
  have := map_tblSet_of_eq (fun r : Proc => if r.core == core && r.resident then 24 * r.res + 8 else 0) h
    (w := q) (by simp only [hcore, hres, hframes])
  exact congrArg List.sum this

theorem freeEntries_of_room {s : State} {core need : Nat} (h : s.stackUsed core + need ≤ 2048) (pid fuel : Nat) :
    s.freeEntries pid core need fuel = s := by
  cases fuel with
  | zero => rfl
  | succ n => rw [State.freeEntries, if_pos h]

section Slides

variable {s : State} {p : Proc}

/-- A slide up that finds room moves the window, and nothing else changes. -/
theorem slideIn_of_room (h : s.proc s.cur = some p) (hr : Spec.RoomAbove s p) :
    s.slideIn s.cur = .done (s.withCur (Spec.windowUp p)) := by
  obtain ⟨hlevel, hdepth, hroom⟩ := hr
  have hfull : ¬ ((p.res == p.depth) || (decide (2048 < s.stackUsed p.core + 24) && decide (2 ≤ p.res))) = true := by
    simp only [Bool.or_eq_true, beq_iff_eq, Bool.and_eq_true, decide_eq_true_eq]
    exact fun hor => hor.elim hdepth fun htight => absurd htight.1 (by omega)
  simp only [State.slideIn, h]
  rw [if_neg (by omega), if_neg hfull, freeEntries_of_room hroom, if_pos hroom, modProc_eq _ h]
  rfl

/-- A slide up whose frame does not fit below the spill area's limit raises fault 25 at the spill slot (R86). -/
theorem slideIn_spillPast (h : s.proc s.cur = some p) (hlevel : p.level + 1 < 2 ^ 24) (hfull : p.res = p.depth)
    (hpast : p.spillPast p.oldest = true) :
    s.slideIn s.cur = .fault { cause := 25, faddr := BitVec.ofNat 64 (p.spillBase + 192 * p.oldest) } := by
  simp only [State.slideIn, h]
  rw [if_neg (by omega), if_pos (by simp [hfull]), if_pos hpast]

/-- A slide waits for nothing where no register of its places is pending. -/
theorem framePending_eq_nil {l : List Nat} (h : ∀ n ∈ l, p.pending.contains (.w n) = false) : p.framePending l = [] := by
  refine List.filter_eq_nil_iff.2 fun r hr hany => ?_
  obtain ⟨n, hn, hrn⟩ := List.any_eq_true.1 hany
  obtain rfl := beq_iff_eq.1 hrn
  have := h n hn
  simp_all

/-- A slide down with the frame below resident moves the window, and nothing else changes. -/
theorem slideOut_of_room (h : s.proc s.cur = some p) (hr : Spec.RoomBelow p) :
    s.slideOut s.cur = .done (s.withCur (Spec.windowDown p)) := by
  obtain ⟨hlevel, hres, hpend⟩ := hr
  have hnone : p.framePending ((List.range 24).map (24 * p.level + 8 + ·)) = [] := framePending_eq_nil fun n hn => by
    obtain ⟨j, hj, rfl⟩ := List.mem_map.1 hn
    exact hpend j (List.mem_range.1 hj)
  simp only [State.slideOut, h, if_neg hlevel, hnone, List.isEmpty_nil, Bool.not_true, Bool.false_eq_true, if_false, hres,
    decide_true, Bool.true_or, if_true]
  rw [modProc_eq _ h]
  rfl

end Slides

/-! ### Slides within an instruction -/

section Instructions

variable {e : Entry} {x : Args} {s : State} {p : Proc}

/-- The marks leave what a slide looks at. -/
theorem roomAbove_taken (h : s.proc s.cur = some p) (hr : Spec.RoomAbove s p) :
    Spec.RoomAbove (s.withCur (taken e x p)) (taken e x p) := by
  have hs := stackUsed_withCur (q := taken e x p) h (by rw [taken_shape]) (by rw [taken_shape]) (by rw [taken_shape])
  unfold Spec.RoomAbove
  rw [hs, taken_shape]
  exact hr

theorem roomBelow_taken (hr : Spec.RoomBelow p) : Spec.RoomBelow (taken e x p) := by
  unfold Spec.RoomBelow
  rw [taken_shape]
  exact hr

/-- An instruction whose slide moves the window without a spill or a fill goes on. -/
theorem slid_done {env : Env} {t : State} {q : Proc} (hq : t.proc env.pid = some q) (hres : q.res ≠ env.p.res) (go : State → Act) :
    env.slid (.done t) go = go t := by
  have hne : (q.res == env.p.res) = false := beq_eq_false_iff_ne.2 hres
  simp only [Env.slid, hq, hne, Bool.and_false, Bool.false_eq_true, if_false]

theorem slid_slideIn (h : s.proc s.cur = some p) (hr : Spec.RoomAbove s p) (go : State → Act) :
    (envOf e x s s.cur p).slid ((envOf e x s s.cur p).s.slideIn s.cur) go = go (s.withCur (Spec.windowUp (taken e x p))) := by
  have hslide := slideIn_of_room (withCur_cur s (taken e x p)) (roomAbove_taken h hr)
  rw [withCur_withCur] at hslide
  have hres : (taken e x p).res = p.res := by rw [taken_shape]
  rw [envOf_s h, show s.cur = (s.withCur (taken e x p)).cur from rfl, hslide]
  exact slid_done (withCur_cur s _) (by show (taken e x p).res + 1 ≠ p.res; omega) go

theorem slid_slideOut (h : s.proc s.cur = some p) (hr : Spec.RoomBelow p) (go : State → Act) :
    (envOf e x s s.cur p).slid ((envOf e x s s.cur p).s.slideOut s.cur) go = go (s.withCur (Spec.windowDown (taken e x p))) := by
  have hslide := slideOut_of_room (withCur_cur s (taken e x p)) (roomBelow_taken hr)
  rw [withCur_withCur] at hslide
  have hres : (taken e x p).res = p.res := by rw [taken_shape]
  have htwo := hr.2.1
  rw [envOf_s h, show s.cur = (s.withCur (taken e x p)).cur from rfl, hslide]
  exact slid_done (withCur_cur s _) (by show (taken e x p).res - 1 ≠ p.res; omega) go

theorem settle_jump_withCur (q : Proc) (t : Word) : settle s s.cur p x (.jump (s.withCur q) t) = s.withCur (q.retire t) := by
  simp only [settle, State.retire, withCur_mod]

/-! ### BRA, JMP, CALL, CALLR and RET (R117 to R119) -/

theorem branchTarget_eq (x : Args) (pc : Word) : branchTarget x pc = pc + 4 * Spec.branchOff x := by
  rw [← offset_eq]
  rfl

theorem jumpTarget_eq (env : Env) : jumpTarget env = env.a + env.x.im21.signExtend 64 := by
  rw [jumpTarget, sextN_toNat _ (by decide) (by decide), BitVec.setWidth_eq]

/-- A jump with no effect beside the marks. -/
theorem perform_jump (h : Ready e x s p) {body : Env → Act} {t : Word}
    (hb : body (envOf e x s s.cur p) = .jump (envOf e x s s.cur p).s t) :
    perform e x s body = .next (s.afterTo e x p t fun q => q) := by
  rw [perform_ready h, hb, settle_jump h.proc]

theorem exec_bra (h : Ready eBra x s p) : exec (.bra x) s = .next (s.afterTo eBra x p (p.pc + 4 * Spec.branchOff x) fun q => q) :=
  perform_jump h (congrArg (Act.jump _) (branchTarget_eq x p.pc))

theorem exec_jmp (h : Ready eJmp x s p) :
    exec (.jmp x) s = .next (s.afterTo eJmp x p (p.scalar x.a.toNat + x.im21.signExtend 64) fun q => q) :=
  perform_jump h (congrArg (Act.jump _) (jumpTarget_eq _))

/-- CALL and CALLR: the window moves up and the new w7 takes the link. -/
theorem perform_callTo (h : Ready e x s p) (hr : Spec.RoomAbove s p) {body : Env → Act} {t : Word}
    (hb : body (envOf e x s s.cur p) = callTo (envOf e x s s.cur p) t) :
    perform e x s body = .next (s.afterTo e x p t fun q => (Spec.windowUp q).wrOp 7 (nextAddr p.pc x.len.bytes)) := by
  rw [perform_ready h, hb, callTo, envOf_pid, slid_slideIn h.proc hr, withCur_mod, settle_jump_withCur]
  rfl

theorem exec_ret (h : Ready eRet x s p) (hr : Spec.RoomBelow p) (hw : p.pending.contains (.w (24 * p.level + 7)) = false) :
    exec (.ret x) s = .next (s.afterTo eRet x p (p.reg (.w (24 * p.level + 7))) Spec.windowDown) := by
  show perform eRet x s _ = _
  rw [perform_ready h]
  simp only [envOf_p, envOf_pid, hw, Bool.false_eq_true, if_false, slid_slideOut h.proc hr, settle_jump_withCur]
  rfl

/-- A CALL whose frame does not fit delivers fault 25. -/
theorem exec_call_spillPast (h : Ready eCall x s p) (hlevel : p.level + 1 < 2 ^ 24) (hfull : p.res = p.depth)
    (hpast : p.spillPast p.oldest = true) : exec (.call x) s = .next (s.deliver s.cur
      { cause := 25, faddr := BitVec.ofNat 64 (p.spillBase + 192 * p.oldest) } p.pc) := by
  have hshape := taken_shape eCall x p
  have hslide := slideIn_spillPast (withCur_cur s (taken eCall x p)) (by rw [hshape]; exact hlevel) (by rw [hshape]; exact hfull)
    (by rw [hshape]; exact hpast)
  show perform eCall x s _ = _
  rw [perform_ready h, callTo, envOf_s h.proc, envOf_pid, show s.cur = (s.withCur (taken eCall x p)).cur from rfl, hslide, hshape]
  rfl

/-! ### ERET (R121) -/

/-- A return from a handler clears ACT and jumps. -/
theorem retire_handlerReturn (q : Proc) (pc : Word) : q.handlerReturn.retire pc = { q with thdl := q.thdl &&& ~~~2 }.retire pc := rfl

theorem windowDown_thdl (q : Proc) : (Spec.windowDown q).thdl = q.thdl := by simp only [Spec.windowDown]

theorem exec_eret_outside (h : Ready eEret x s p) (ha : p.thdl.getLsbD 1 = false) :
    exec (.eret x) s = .next (s.deliver s.cur { cause := 4 } p.pc) :=
  perform_trap h (by decide) (by simp only [envOf_p, Proc.thdlAct, ha, Bool.not_false, if_true])

theorem exec_eret_inside (h : Ready eEret x s p) (ha : p.thdl.getLsbD 1 = true) (hr : Spec.RoomBelow p) :
    exec (.eret x) s = .next (s.afterTo eEret x p p.epc fun q => { Spec.windowDown q with thdl := q.thdl &&& ~~~2 }) := by
  show perform eEret x s _ = _
  rw [perform_ready h]
  simp only [envOf_p, envOf_pid, Proc.thdlAct, ha, Bool.not_true, Bool.false_eq_true, if_false, slid_slideOut h.proc hr, withCur_mod,
    settle_jump_withCur, retire_handlerReturn, windowDown_thdl]
  rfl

end Instructions

/-- Settles O9: a branch is a jump, a call or return a slide and a jump. -/
theorem controlTransfers : Obligations.ControlTransfers := by
  refine ⟨fun x s p => ⟨exec_bra, exec_jmp, fun h hr => ?call, fun h hr => ?callr, exec_ret⟩, fun x s p h hlevel hfull hpast => ?past⟩
  case call => exact perform_callTo h hr (congrArg (callTo _) (branchTarget_eq x p.pc))
  case callr => exact perform_callTo h hr (congrArg (callTo _) (jumpTarget_eq _))
  case past =>
    have hold : p.oldest = p.level + 1 - p.depth := by rw [Proc.oldest, hfull]
    rw [← hold] at hpast ⊢
    exact exec_call_spillPast h hlevel hfull (decide_eq_true hpast)

/-- Settles O12: outside a handler ERET faults, and in one it is a slide down and a jump. -/
theorem returnFromHandler : Obligations.ReturnFromHandler := fun _ _ _ h => ⟨exec_eret_outside h, exec_eret_inside h⟩

/-! ### Delivery to a handler (R94, R229) -/

theorem windowUp_thdl (q : Proc) : (Spec.windowUp q).thdl = q.thdl := by simp only [Spec.windowUp]

theorem causeWord_eq {f : FaultInfo} (hc : f.cause < 64) (hi : f.info < 2 ^ 32) :
    causeWord f = BitVec.ofNat 64 (f.info * 2 ^ 32 + f.cause) := by
  rw [causeWord, Nat.mod_eq_of_lt hc, Nat.mod_eq_of_lt hi]

/-- Settles O10: no packet is open, the handler is free, and its slide finds room. -/
theorem faultEntersHandler : Obligations.FaultEntersHandler := by
  intro s p f epc h hk hen hact hr hc hi
  refine ⟨_, ?_, rfl⟩
  have hfree : ¬ (!p.thdlEn || p.thdlAct) = true := by
    rw [Proc.thdlEn, Proc.thdlAct, hen, hact]
    decide
  simp only [State.deliver, abortPacket_none h hk, h]
  rw [if_neg hfree, slideIn_of_room h hr]
  simp only [withCur_mod, ← causeWord_eq hc hi]
  rw [← windowUp_thdl p]
  generalize Spec.windowUp p = q
  rfl

end Sys2Proof.Proofs.ProcessState
end

section
/-! The family of a process's state, fifth part: why the clause about evicted processes does not hold of every state (O35). -/

namespace Sys2Proof.Proofs.ProcessState

open Sys2Proof Sys2Proof.Machine

/-- A READY process that is not resident, at address 0. -/
def evictedProc : Proc := { ctx := 0, rank := 1, core := 0 }

/-- A resident process of 84 frames, whose oldest spills to offset 0 of LOCAL: 2,024 of the 2,048 register-stack entries (R87). -/
def deepProc : Proc := { ctx := 0, rank := 2, core := 0, depth := 84, level := 83, res := 84, resident := true, spill := 0x100000000000 }

/-- The first word of that spill slot, by its number. -/
def spillWordNum : Nat := tcmPA 0 0 0 / 8

/-- A machine whose evicted process stands in the ready queue and, as no hypothesis excludes, among the loads that wait at that
word, to go on at address 64. -/
def waitingMachine : State :=
  { State.reset with
    procs := [(1, evictedProc), (2, deepProc)], cores := [(0, { slot := 0, ready := [(0, [1])] })],
    waiters := [(spillWordNum, [{ pid := 1, op := .lds false, dest := none, next := 64, ea := 0 }])] }

/-- The spill that makes room sets the word full, which serves the load (R86, R137): the process that becomes resident goes on at
address 64. -/
theorem fill_waitingMachine_pc : ((waitingMachine.fill 1).bind (·.proc 1)).map Proc.pc = some 64 := by decide +kernel

/-- Refutes O35, in its clause about evicted processes: the clause keeps the address of the process that becomes resident, and a
process that waits at a word of the frame spilled for it is served there. -/
theorem not_schedulingEvents : ¬ Obligations.SchedulingEvents := by
  rintro ⟨-, -, -, fills, -⟩
  obtain ⟨q, hq, hpc⟩ := Option.map_eq_some_iff.1 fill_waitingMachine_pc
  obtain ⟨u, hu, huq⟩ := Option.bind_eq_some_iff.1 hq
  obtain ⟨r, -, hr, -, -, hkept, -⟩ := fills waitingMachine u 0 1 evictedProc rfl rfl rfl hu
  obtain rfl := Option.some.inj (huq.symm.trans hr)
  exact absurd (hpc.symm.trans hkept) (by decide)

end Sys2Proof.Proofs.ProcessState
end

section
/-! The family of consistency, first part: why the clause about FENCE.acq does not hold of every state (O28). -/

namespace Sys2Proof.Proofs.Consistency

open Sys2Proof Sys2Proof.Machine Sys2Proof.Proofs.Arithmetic Sys2Proof.Proofs.Encoding

/-- FENCE.acq of the system scope. -/
def fenceSystem : Args := { Spec.plain with im21 := 0x4000 }

/-- A process whose table of outstanding operations is out of order: its GET, token 3, stands behind token 5 and is not found. -/
def disorderedProc : Proc :=
  { ctx := 0, rank := 0, core := 0, ops := [(5, { kind := .other, owner := .die }), (3, { kind := .get, owner := .die, left := 1 })] }

def disorderedMachine : State := { State.reset with procs := [(0, disorderedProc)] }

theorem disorderedMachine_ready : Ready eFence fenceSystem disorderedMachine disorderedProc := by
  constructor <;> decide

/-- The state of process 0 after an instruction. -/
def stateAfter : Host.Outcome State Fault Refusal → Option PState
  | .next t => (t.proc 0).map Proc.st
  | _ => none

theorem stateAfter_fenceAcq : stateAfter (exec (.fenceAcq fenceSystem) disorderedMachine) = some .ready := by decide +kernel

/-- Refutes O28, in its clause about FENCE.acq with an operation outstanding: no premise keeps the table of operations in order of
its tokens. Where it is out of order the wait finds no operation to wait for, and the process is READY at once, not parked. -/
theorem not_fencesAndWaits : ¬ Obligations.FencesAndWaits := by
  intro h
  obtain ⟨-, acquireWaits, -⟩ := (h fenceSystem disorderedMachine disorderedProc).1 disorderedMachine_ready rfl
  obtain ⟨t, q, since, hexec, hq, -, hparked⟩ := acquireWaits (by decide)
  have hq0 : t.proc 0 = some q := hq
  have hready := stateAfter_fenceAcq
  simp only [hexec, stateAfter, hq0, Option.map_some, Option.some.injEq, hparked, reduceCtorEq] at hready

end Sys2Proof.Proofs.Consistency
end

section
/-! The family of consistency, second part: why the clause about a missing session does not hold of every message (O52). -/

namespace Sys2Proof.Proofs.Consistency

open Sys2Proof Sys2Proof.Machine

/-- A message that an earlier one of its unit, process or channel holds back stays queued, whatever its session (R244, R321, R368). -/
theorem exec_outboundMessageSend_chanHeld {s : State} {die k : Nat} {m : OutMsg} (hm : tblGet (s.die die).out k = some m)
    (hheld : s.chanHeld die k m = true) : exec (.outboundMessageSend die k) s = .next s := by
  show execOutboundMessageSend die k s = _
  simp only [execOutboundMessageSend, hm, hheld, Bool.or_true, if_true]

/-- A GET to another device, as the message at `off` of a unit of two (R368). -/
def unitGet (off : Nat) : OutMsg :=
  { kind := 2, pid := 0, ctx := 0, rank := 0, tok := 3, off := off, ddev := 1, ddie := 0, addr := 0, opw := 0, payload := [], count := 8,
    parts := 2 }

/-- The operation of those messages, and its process. -/
def unitOp : Op := { kind := .get, owner := .system, left := 1 }
def unitProc : Proc := { ctx := 0, rank := 0, core := 0, ops := [(3, unitOp)], cLoad := 1 }

/-- A machine with no session, in whose die 0 both messages are queued. -/
def unitMachine : State :=
  { State.reset with procs := [(0, unitProc)], cores := [(0, { live := true })],
                     dies := [(0, { out := [(0, unitGet 0), (1, unitGet 8)] })] }

theorem unitMachine_loadOp : Spec.LoadOp unitMachine 0 1 (unitGet 8) unitProc unitOp := by
  constructor <;> decide

theorem unitMachine_chanHeld : unitMachine.chanHeld 0 1 (unitGet 8) = true := by decide

/-- Refutes O52, in its clause about a message to a device with no session: the clause leaves out the order within a unit (R368), which
`Spec.Sendable` names as `chanHeld`. A message whose unit has an earlier one to send waits for it, and has not ended. -/
theorem not_fabricMessages : ¬ Obligations.FabricMessages := by
  rintro ⟨-, loads, -⟩
  obtain ⟨noSession, -⟩ := loads unitMachine 0 1 (unitGet 8) unitProc unitOp unitMachine_loadOp
  obtain ⟨t, hexec, ⟨hgone, -⟩, -⟩ := noSession rfl (by decide) (by decide) (by decide)
  rw [exec_outboundMessageSend_chanHeld unitMachine_loadOp.entry unitMachine_chanHeld, Host.Outcome.next.injEq] at hexec
  rw [← hexec, unitMachine_loadOp.entry] at hgone
  exact absurd hgone (by simp)

end Sys2Proof.Proofs.Consistency
end

section
/-! The family of consistency, third part: how GET, PUT and RAMO hand a message to the outbound buffer (O25). -/

namespace Sys2Proof.Proofs.Consistency

open Sys2Proof Sys2Proof.Machine Sys2Proof.Proofs.Arithmetic Sys2Proof.Proofs.Encoding

/-! ### Operands of a remote access (R140, R170) -/

theorem offsetExt_eq (x : Args) : offsetExt x = if x.len = .l64 then 0 else Spec.branchOff x := by
  rw [← ProcessState.offset_eq, offset]
  cases h : x.len <;> simp [offsetExt, h]

theorem loadExt_eq (x : Args) (v : Nat) : loadExt (tyN x) v = Spec.loaded x v := by
  unfold loadExt Spec.loaded
  rw [sextN_eq v (width_pos x) (width_le x)]
  rfl

theorem envOf_c_src {e : Entry} {x : Args} {s : State} {pid : Nat} {p : Proc} (hu : (e.uses x).c = .src) :
    (envOf e x s pid p).c = p.scalar (cOf e.i21 x).toNat := by
  simp only [envOf, hu]
  rfl

section Issue

variable {e : Entry} {x : Args} {s : State} {p : Proc}

/-- An owner that can be reached is where the access goes (R170, R185). -/
theorem toOwner_reachable {ea : Word} {pmask dev die : Nat} {owner : Owner} (h : Spec.Reachable s p ea pmask dev die owner)
    (go : Nat → Nat → Owner → Act) : (envOf e x s s.cur p).toOwner ea pmask go = go dev die owner := by
  obtain ⟨hdest, hreach⟩ := h
  simp only [Env.toOwner, envOf_s0, envOf_p, hdest]
  rcases hreach with rfl | ⟨hpath, hbudget⟩
  · rfl
  · have : (s.effective p.die dev die pmask).isEmpty = false := by simpa using hpath
    simp only [this, Bool.and_assoc, hbudget, Bool.and_false, Bool.false_eq_true, if_false]

/-! ### A remote operation on its way -/

/-- `t` is `s` where the process in focus has become `q`, but for its operations and the counts of R164, and messages have joined
outbound buffers. -/
def Issued (s : State) (q : Proc) (t : State) : Prop :=
  (∃ r, t.proc s.cur = some r ∧ Spec.SameButOps q r) ∧ SameMemory s t ∧ OtherProcs s t [s.cur]

theorem sameButOps_trans {q r u : Proc} (h : Spec.SameButOps q r) (h' : Spec.SameButOps r u) : Spec.SameButOps q u := by
  rw [Spec.SameButOps] at *
  rw [h', h]

theorem sameButOps_retire {q r : Proc} (h : Spec.SameButOps q r) (pc : Word) : Spec.SameButOps (q.retire pc) (r.retire pc) := by
  rw [Spec.SameButOps] at *
  rw [h]
  rfl

theorem issued_modDie {q : Proc} {t : State} (h : Issued s q t) (n : Nat) (f : Die → Die) : Issued s q (t.modDie n f) := h

theorem issued_outbound {q : Proc} {t : State} (h : Issued s q t) (die : Nat) (m : OutMsg) : Issued s q (t.outbound die m).2 := h

theorem issued_modProc {q : Proc} {t : State} (h : Issued s q t) {f : Proc → Proc} (hf : ∀ r, Spec.SameButOps r (f r)) :
    Issued s q (t.modProc s.cur f) := by
  obtain ⟨⟨r, hr, hq⟩, hmem, hprocs⟩ := h
  refine ⟨⟨_, proc_modProc_self hr f, sameButOps_trans hq (hf r)⟩, hmem, fun n hn => ?_⟩
  rw [proc_modProc_ne _ _ (by simpa using hn)]
  exact hprocs n hn

theorem issued_retire {q : Proc} {t : State} (h : Issued s q t) (pc : Word) : Issued s (q.retire pc) (t.retire s.cur pc) := by
  obtain ⟨⟨r, hr, hq⟩, hmem, hprocs⟩ := h
  refine ⟨⟨_, proc_modProc_self hr _, sameButOps_retire hq pc⟩, hmem, fun n hn => ?_⟩
  rw [State.retire, proc_modProc_ne _ _ (by simpa using hn)]
  exact hprocs n hn

/-- An operation begins: its token, its counter, and its destination (R90, R139). -/
theorem beginOp_eq (h : s.proc s.cur = some p) (o : Op) : (envOf e x s s.cur p).beginOp o =
    (s.seq, { s.withCur { Spec.remoteStarted o.kind o.dest (taken e x p) with
      ops := tblSet (Spec.remoteStarted o.kind o.dest (taken e x p)).ops s.seq o } with seq := s.seq + 1 }) := by
  simp only [Env.beginOp, upd_eq h]
  rfl

theorem issued_beginOp (h : s.proc s.cur = some p) (o : Op) :
    Issued s (Spec.remoteStarted o.kind o.dest (taken e x p)) ((envOf e x s s.cur p).beginOp o).2 := by
  rw [beginOp_eq h]
  refine ⟨⟨_, withCur_cur s _, rfl⟩, sameMemory_of_eq rfl rfl rfl, fun n hn => ?_⟩
  exact (withCur_proc s _ n).trans (if_neg (by simpa using hn))

theorem beginOp_token (h : s.proc s.cur = some p) (o : Op) : ((envOf e x s s.cur p).beginOp o).1 = s.seq := by rw [beginOp_eq h]

theorem sent_outbound {P : OutMsg → Prop} {m : OutMsg} (t : State) (die : Nat) (hm : P m) : Spec.Sent (t.outbound die m).2 die P :=
  ⟨_, m, (congrArg (fun d : Die => tblGet d.out _) (die_modDie_self t die _)).trans (tblGet_set_self _ _ _), hm⟩

/-- What an instruction leaves that has begun a remote operation and handed its messages over. -/
theorem completes_issued {o : Host.Outcome State Fault Refusal} {u : State} {f : Proc → Proc}
    (ho : o = .next (settle s s.cur p x (.next u))) (hu : Issued s (f (taken e x p)) u) :
    ∃ t q, o = .next t ∧ t.proc s.cur = some q ∧ Spec.SameButOps (procAfter e x p f) q ∧
      (∀ die P, Spec.Sent u die P → Spec.Sent t die P) ∧ SameMemory s t ∧ OtherProcs s t [s.cur] := by
  obtain ⟨⟨q, hq, hops⟩, hmem, hprocs⟩ := issued_retire hu (p.nextPc x)
  exact ⟨_, q, ho, hq, hops, fun _ _ hsent => hsent, hmem, hprocs⟩

/-- The same with one message. -/
theorem completes_issued_one {o : Host.Outcome State Fault Refusal} {u : State} {f : Proc → Proc} {die : Nat} {m : OutMsg}
    {P : OutMsg → Prop} (ho : o = .next (settle s s.cur p x (.next (u.outbound die m).2))) (hu : Issued s (f (taken e x p)) u)
    (hm : P m) :
    ∃ t q, o = .next t ∧ t.proc s.cur = some q ∧ Spec.SameButOps (procAfter e x p f) q ∧
      Spec.Sent t die P ∧ SameMemory s t ∧ OtherProcs s t [s.cur] := by
  obtain ⟨t, q, hexec, hq, hops, hsent, hmem, hprocs⟩ := completes_issued ho (issued_outbound hu die m)
  exact ⟨t, q, hexec, hq, hops, hsent _ _ (sent_outbound u die hm), hmem, hprocs⟩

/-! ### The path and interval counts of a PUT (R164) -/

/-- The message of a PUT as its process's counts complete it, under a lead path. -/
def stamped (p : Proc) (lead : Nat) (m : OutMsg) : OutMsg :=
  let counts := (List.range 16).map fun i => tblGetD p.putCount (16 * m.ddev + i) 0
  { m with lead := lead, fseq := tblGetD p.fseq m.ddev 0, counts := if m.kind == 1 then counts else [],
           payload := if m.kind == 1 then m.payload ++ counts.flatMap (natBytes 4) else m.payload }

/-- The process once a PUT message has been counted: an ordered flag closes its interval, another message counts on its lead path. -/
def counted (p : Proc) (m : OutMsg) (l : Nat × Nat) (q : Proc) : Proc :=
  if m.kind == 1 then
    { q with pathRotor := l.2, fseq := tblSet q.fseq m.ddev ((tblGetD p.fseq m.ddev 0 + 1) % 2 ^ 16),
             putCount := (List.range 16).foldl (fun t i => tblErase t (16 * m.ddev + i)) q.putCount,
             flagsOut := tblSet q.flagsOut m.ddev (tblGetD q.flagsOut m.ddev 0 + 1) }
  else { q with pathRotor := l.2, putCount := tblSet q.putCount (16 * m.ddev + l.1) (tblGetD q.putCount (16 * m.ddev + l.1) 0 + 1) }

theorem sameButOps_counts (q : Proc) (rotor : Nat) (counts fseq flags : Tbl Nat) :
    Spec.SameButOps q { q with pathRotor := rotor, putCount := counts, fseq := fseq, flagsOut := flags } := rfl

theorem sameButOps_counted (p : Proc) (m : OutMsg) (l : Nat × Nat) (q : Proc) : Spec.SameButOps q (counted p m l q) := by
  unfold counted
  split
  · exact sameButOps_counts q _ _ _ _
  · exact sameButOps_counts q _ _ _ _

/-- A remote operation that has begun leaves the counts of R164. -/
theorem remoteStarted_shape (kind : OpKind) (dest : Option RName) (q : Proc) : ∃ empties pending cLoad cStore,
    Spec.remoteStarted kind dest q = { q with empties := empties, pending := pending, cLoad := cLoad, cStore := cStore } := by
  have hpend (r : RName) : ∃ empties pending, q.pend r = { q with empties := empties, pending := pending } := by
    unfold Proc.pend
    split
    · exact ⟨_, _, rfl⟩
    · rw [Proc.setEmpty_shape]
      exact ⟨_, _, rfl⟩
  have hstart (q : Proc) : ∃ cLoad cStore, (if kind == .put then { q with cStore := q.cStore + 1 } else { q with cLoad := q.cLoad + 1 }) =
      { q with cLoad := cLoad, cStore := cStore } := by
    split
    · exact ⟨_, _, rfl⟩
    · exact ⟨_, _, rfl⟩
  cases dest with
  | none =>
    obtain ⟨cLoad, cStore, hstart⟩ := hstart q
    exact ⟨_, _, cLoad, cStore, hstart⟩
  | some r =>
    obtain ⟨empties, pending, hr⟩ := hpend r
    obtain ⟨cLoad, cStore, hstart⟩ := hstart (q.pend r)
    refine ⟨empties, pending, cLoad, cStore, hstart.trans ?_⟩
    rw [hr]

/-- An operation that has begun leaves the counts of R164. -/
theorem begun_counts (h : s.proc s.cur = some p) (o : Op) : ∃ b, ((envOf e x s s.cur p).beginOp o).2.proc s.cur = some b ∧
    b.putCount = p.putCount ∧ b.fseq = p.fseq ∧ b.spoiled = p.spoiled := by
  rw [beginOp_eq h]
  refine ⟨_, withCur_cur s _, ?_⟩
  obtain ⟨empties, pending, cLoad, cStore, hshape⟩ := remoteStarted_shape o.kind o.dest (taken e x p)
  rw [hshape, taken_shape]
  exact ⟨rfl, rfl, rfl⟩

theorem stamped_congr {p q : Proc} (hcount : q.putCount = p.putCount) (hseq : q.fseq = p.fseq) (lead : Nat) (m : OutMsg) :
    stamped q lead m = stamped p lead m := by
  simp only [stamped, hcount, hseq]

/-- A PUT message takes its lead path and its count, and joins the outbound buffer, where it is no flag that is cancelled as it issues. -/
theorem putMsg_eq {t : State} {pid die : Nat} {owner : Owner} {m : OutMsg} (hp : t.proc pid = some p)
    (hs : (m.kind == 1 && nsHas p.spoiled m.ddev) = false) :
    let l := putLead owner (t.effective die m.ddev m.ddie m.pmask) p.pathRotor
    t.putMsg die pid owner m = ((t.modProc pid (counted p m l)).outbound die (stamped p l.1 m)).2 := by
  unfold counted
  simp only [State.putMsg, hp, hs, Bool.false_eq_true, if_false]
  rfl

end Issue

/-! ### GET (R161, R171) -/

/-- Where a scalar GET, PUT or RAMO reads or writes. -/
def remoteEa (x : Args) (p : Proc) : Word := (Spec.srcA x p).ptr + (if x.len = .l64 then 0 else Spec.branchOff x)

theorem remoteEa_eq (x : Args) (p : Proc) : (Spec.srcA x p).ptr + offsetExt x = remoteEa x p := by
  rw [offsetExt_eq, remoteEa]

theorem areg_a (e : Entry) (x : Args) (s : State) (p : Proc) : (envOf e x s s.cur p).areg x.a = Spec.srcA x p := rfl

theorem tyBytes_eq (x : Args) : tyBytes (tyN x) = Spec.size x := rfl

/-- What O25 asks of a scalar operation before its own conditions: rcheck accepts it under its permissions (R170), and its owner can be
reached on the paths of its mask. -/
structure Accepted (x : Args) (s : State) (p : Proc) (perms : BitVec 8) (pmask dev die : Nat) (owner : Owner) : Prop where
  check : s.rcheck p.ctx (Spec.srcA x p) (remoteEa x p).toNat (Spec.size x) perms (Spec.size x) = none
  reach : Spec.Reachable s p (remoteEa x p) pmask dev die owner

section Scalar

variable {x : Args} {s : State} {p : Proc} {dev die : Nat} {owner : Owner} {c : Word}

/-- The path register of a scalar form (R170). -/
theorem envOf_c_get (hblk : getBlk x = false) : (envOf eGet x s s.cur p).c = p.scalar (cOf .modw x).toNat :=
  envOf_c_src (by simp [eGet, hblk])

/-- What a GET that may issue does by what the outbound buffer gives it. -/
def getAct (e : Env) (dev die : Nat) (owner : Owner) : Buffered → Act
  | .wait => .stall (e.s0.modProc e.pid fun p => { p with phase := 1 })
  | .data bs => if e.p.phase = 1 then .stall e.s0 else e.ret (Spec.loaded e.x (bytesNat bs))
  | .send =>
    let r := e.beginOp { kind := .get, owner := owner, dest := e.p.name e.x.d.toNat, ty := tyN e.x, ea := remoteEa e.x e.p, left := 1 }
    .next (r.2.outbound e.p.die
      { kind := 2, pid := e.pid, ctx := e.p.ctx, rank := e.p.rank, tok := r.1, ddev := dev, ddie := die, pmask := pmaskOf e.c,
        addr := remoteEa e.x e.p, opw := tyN e.x, payload := natBytes 8 0, count := Spec.size e.x, priv := e.p.priv }).2

theorem exec_get (h : Ready eGet x s p) (hblk : getBlk x = false)
    (hacc : Accepted x s p pRD (pmaskOf (p.scalar (cOf .modw x).toNat)) dev die owner) (hload : p.cLoad < 65535) {b : Buffered}
    (hbuf : s.buffered p.die p.ctx (remoteEa x p).toNat (Spec.size x) = b) :
    exec (.get x) s = .next (settle s s.cur p x (getAct (envOf eGet x s s.cur p) dev die owner b)) := by
  show perform eGet x s _ = _
  rw [perform_ready h]
  simp only [envOf_s0, envOf_p, envOf_x, envOf_pid, envOf_c_get hblk, areg_a, remoteEa_eq, tyBytes_eq, hacc.check,
    toOwner_reachable hacc.reach, not_le.2 hload, if_false, loadExt_eq]
  rw [hbuf]
  cases b with
  | data bs => rfl
  | _ => simp only [getAct, envOf_s0, envOf_p, envOf_x, envOf_pid, envOf_c_get hblk]

/-- What the outbound buffer covers is taken from there (R161). -/
theorem settle_getData (h : s.proc s.cur = some p) (hphase : p.phase ≠ 1) (bs : List Byte) :
    settle s s.cur p x (getAct (envOf eGet x s s.cur p) dev die owner (.data bs)) =
      s.after eGet x p fun q => q.wrOp x.d.toNat (Spec.loaded x (bytesNat bs)) := by
  rw [getAct, envOf_p, if_neg hphase]
  exact settle_ret h _

theorem settle_stall (hk : p.packet = none) (t : State) : settle s s.cur p x (.stall t) = { t with stalled := true } := by
  simp only [settle, hk, Option.isSome_none, Bool.false_eq_true, if_false]

/-- A GET that once had to wait takes nothing from the buffer (R161). -/
theorem settle_getLate (hphase : p.phase = 1) (hk : p.packet = none) (bs : List Byte) :
    settle s s.cur p x (getAct (envOf eGet x s s.cur p) dev die owner (.data bs)) = { s with stalled := true } := by
  rw [getAct, envOf_p, if_pos hphase, envOf_s0, settle_stall hk]

theorem settle_getWait (h : s.proc s.cur = some p) (hk : p.packet = none) :
    settle s s.cur p x (getAct (envOf eGet x s s.cur p) dev die owner .wait) =
      { s.withCur { p with phase := 1 } with stalled := true } := by
  rw [getAct, envOf_s0, envOf_pid, settle_stall hk, modProc_eq _ h]

/-- A GET that the buffer does not meet leaves for its owner (R171). -/
theorem get_sends (h : Ready eGet x s p) (hblk : getBlk x = false)
    (hacc : Accepted x s p pRD (pmaskOf (p.scalar (cOf .modw x).toNat)) dev die owner) (hload : p.cLoad < 65535)
    (hbuf : s.buffered p.die p.ctx (remoteEa x p).toNat (Spec.size x) = .send) : ∃ t q, exec (.get x) s = .next t ∧
      t.proc s.cur = some q ∧ Spec.SameButOps (procAfter eGet x p (Spec.remoteStarted .get (p.name x.d.toNat))) q ∧
      Spec.Sent t p.die (fun m => (m.pid = s.cur ∧ m.addr = remoteEa x p ∧ m.ddev = dev ∧ m.ddie = die) ∧
        m.kind = 2 ∧ m.count = Spec.size x) ∧ SameMemory s t ∧ OtherProcs s t [s.cur] := by
  have hexec := exec_get h hblk hacc hload hbuf
  rw [getAct] at hexec
  exact completes_issued_one hexec (issued_beginOp h.proc _) ⟨⟨rfl, rfl, rfl, rfl⟩, rfl, rfl⟩

/-! ### PUT (R164, R172) -/

theorem envOf_c_put (hblk : getBlk x = false) : (envOf ePut x s s.cur p).c = p.scalar (cOf .modw x).toNat :=
  envOf_c_src (by simp [ePut, hblk])

theorem envOf_b_put (hi : x.i = false) (hblk : getBlk x = false) : (envOf ePut x s s.cur p).b = p.scalar x.b.toNat :=
  envOf_b_reg hi (by simp [ePut, hblk])

/-- The operation and the message of a PUT. -/
def putOp (x : Args) (p : Proc) (owner : Owner) : Op := { kind := .put, owner := owner, ea := remoteEa x p, left := 1 }

def putMessage (x : Args) (s : State) (p : Proc) (dev die tok : Nat) : OutMsg :=
  { kind := if mN x % 4 == 2 then 1 else 0, pid := s.cur, ctx := p.ctx, rank := p.rank, tok := tok, ddev := dev, ddie := die,
    pmask := pmaskOf (p.scalar (cOf .modw x).toNat), addr := remoteEa x p, opw := tyN x + 16 * (mN x % 4),
    payload := natBytes (Spec.size x) (p.scalar x.b.toNat).toNat, priv := p.priv }

/-- A PUT that is accepted and that nothing holds back counts its message and hands it over. -/
theorem exec_put (h : Ready ePut x s p) (hi : x.i = false) (hblk : getBlk x = false)
    (hacc : Accepted x s p pWR (pmaskOf (p.scalar (cOf .modw x).toNat)) dev die owner)
    (hwait : (envOf ePut x s s.cur p).putWaits dev die owner 1 (mN x % 4 == 2) = false) :
    exec (.put x) s = .next (settle s s.cur p x (.next (((envOf ePut x s s.cur p).beginOp (putOp x p owner)).2.putMsg p.die s.cur owner
      (putMessage x s p dev die s.seq)))) := by
  show perform ePut x s _ = _
  rw [perform_ready h]
  simp only [envOf_s0, envOf_p, envOf_x, envOf_pid, envOf_c_put hblk, envOf_b_put hi hblk, areg_a, remoteEa_eq, tyBytes_eq, hacc.check,
    toOwner_reachable hacc.reach, hwait, Bool.false_eq_true, if_false, beginOp_token h.proc, putOp, putMessage, lowBytes]
  rfl

theorem length_leadsOf (owner : Owner) (es : List Nat) (rotor n : Nat) : (leadsOf owner es rotor n).length = n := by
  induction n generalizing rotor with
  | zero => rfl
  | succ n ih => rw [leadsOf, List.length_cons, ih]

/-- No PUT is held back where the buffer has room and no count passes its width (R139, R161, R164). -/
theorem putWaits_counts {e : Entry} {n : Nat} (hroom : (s.die p.die).entries + n ≤ 2048) (hstore : p.cStore < 65535)
    (hcounts : ∀ i, tblGetD p.putCount (16 * dev + i) 0 + n < 2 ^ 32) : (envOf e x s s.cur p).putWaits dev die owner n false = false := by
  simp only [Env.putWaits, envOf_s0, envOf_p, not_lt.2 hroom, not_le.2 hstore, decide_false, Bool.false_or, Bool.false_eq_true, if_false,
    List.any_eq_false]
  intro i _
  refine mt of_decide_eq_true (not_lt.2 ?_)
  have hlength := length_leadsOf owner (s.effective p.die dev die (pmaskOf (envOf e x s s.cur p).c)) p.pathRotor n
  have := hcounts i
  have := (List.count_le_length (l := leadsOf owner (s.effective p.die dev die (pmaskOf (envOf e x s s.cur p).c)) p.pathRotor n) (a := i))
  omega

theorem putWaits_flag {e : Entry} {n : Nat} (hroom : (s.die p.die).entries + n ≤ 2048) (hstore : p.cStore < 65535)
    (hflags : tblGetD p.flagsOut dev 0 < 16) : (envOf e x s s.cur p).putWaits dev die owner n true = false := by
  simp only [Env.putWaits, envOf_s0, envOf_p, not_lt.2 hroom, not_le.2 hstore, not_le.2 hflags, decide_false, Bool.false_or, if_true]

/-- A PUT that nothing holds back, and whose flag no fault has spoiled, leaves for its owner with its counts. -/
theorem put_sends (h : Ready ePut x s p) (hi : x.i = false) (hblk : getBlk x = false)
    (hacc : Accepted x s p pWR (pmaskOf (p.scalar (cOf .modw x).toNat)) dev die owner)
    (hwait : (envOf ePut x s s.cur p).putWaits dev die owner 1 (mN x % 4 == 2) = false)
    (hspoiled : ((putMessage x s p dev die s.seq).kind == 1 && nsHas p.spoiled dev) = false) {P : OutMsg → Prop}
    (hP : ∀ lead, P (stamped p lead (putMessage x s p dev die s.seq))) : ∃ t q, exec (.put x) s = .next t ∧ t.proc s.cur = some q ∧
      Spec.SameButOps (procAfter ePut x p (Spec.remoteStarted .put none)) q ∧ Spec.Sent t p.die P ∧ SameMemory s t ∧
      OtherProcs s t [s.cur] := by
  obtain ⟨b, hb, hcount, hseq, hspoil⟩ := begun_counts (e := ePut) (x := x) h.proc (putOp x p owner)
  have hexec := exec_put h hi hblk hacc hwait
  rw [putMsg_eq hb (by rw [hspoil]; exact hspoiled), stamped_congr hcount hseq] at hexec
  exact completes_issued_one hexec (issued_modProc (issued_beginOp h.proc _) fun r => sameButOps_counted _ _ _ r) (hP _)

/-! ### RAMO (R173) -/

/-- The operation and the message of a RAMO. -/
def ramoOp (x : Args) (p : Proc) (owner : Owner) : Op :=
  { kind := .ramo, owner := owner, dest := p.name x.d.toNat, ty := tyN x, ea := remoteEa x p, left := 1 }

def ramoMessage (x : Args) (s : State) (p : Proc) (dev die tok : Nat) : OutMsg :=
  { kind := 4, pid := s.cur, ctx := p.ctx, rank := p.rank, tok := tok, ddev := dev, ddie := die, addr := remoteEa x p,
    opw := tyN x + 16 * (mN x % 16),
    payload := natBytes (Spec.size x) (p.scalar x.b.toNat).toNat ++
      (if mN x % 16 = 7 then lowBytes (Spec.size x) (envOf eRamo x s s.cur p).c else []),
    priv := p.priv }

/-- A RAMO that is accepted, and whose turn in the order log has come, leaves for its owner. -/
theorem ramo_sends (h : Ready eRamo x s p) (hi : x.i = false) (hacc : Accepted x s p (pRD ||| pWR ||| pAT) 0 dev die owner)
    (hload : p.cLoad < 65535) (hroom : (s.die p.die).entries < 2048) (hreplay : (s.ctx p.ctx).dmode ≠ 2)
    (hlog : (s.ctx p.ctx).log.length < (s.ctx p.ctx).logCap ∨ (s.ctx p.ctx).dmode ≠ 1) : ∃ t q, exec (.ramo x) s = .next t ∧
      t.proc s.cur = some q ∧ Spec.SameButOps (procAfter eRamo x p (Spec.remoteStarted .ramo (p.name x.d.toNat))) q ∧
      Spec.Sent t p.die (fun m => (m.pid = s.cur ∧ m.addr = remoteEa x p ∧ m.ddev = dev ∧ m.ddie = die) ∧ m.kind = 4 ∧
        m.payload.take (Spec.size x) = natBytes (Spec.size x) (p.scalar x.b.toNat).toNat) ∧
      SameMemory s t ∧ OtherProcs s t [s.cur] := by
  have hb : (envOf eRamo x s s.cur p).b = p.scalar x.b.toNat := envOf_b_reg hi rfl
  have hturn (isLog : Bool) (ea : Word) (go : Act) : (envOf eRamo x s s.cur p).ramoTurn ea isLog go = go := by
    refine (if_neg (show ¬ (s.ctx p.ctx).dmode = 2 from hreplay)).trans (if_neg ?_)
    change ¬ (isLog && decide ((s.ctx p.ctx).dmode = 1) && decide ((s.ctx p.ctx).logCap ≤ (s.ctx p.ctx).log.length)) = true
    rcases hlog with hlog | hlog
    · simp [not_le.2 hlog]
    · simp [hlog]
  have hexec : exec (.ramo x) s = .next (settle s s.cur p x (.next (((envOf eRamo x s s.cur p).beginOp (ramoOp x p owner)).2.outbound p.die
      (ramoMessage x s p dev die s.seq)).2)) := by
    show perform eRamo x s _ = _
    rw [perform_ready h]
    simp only [envOf_s0, envOf_p, envOf_x, envOf_pid, hb, areg_a, remoteEa_eq, tyBytes_eq, hacc.check, toOwner_reachable hacc.reach,
      not_le.2 hload, not_le.2 hroom, decide_false, Bool.or_self, Bool.false_eq_true, if_false, hturn, beginOp_token h.proc, ramoOp,
      ramoMessage, lowBytes]
    rfl
  exact completes_issued_one hexec (issued_beginOp h.proc _) ⟨⟨rfl, rfl, rfl, rfl⟩, rfl, List.take_left' (natBytes_length _ _)⟩

/-! ### Block forms (R170) -/

theorem blockCountBad_none {c : Word} (hle : blockCount c ≤ 65536) (hmod : blockCount c % 8 = 0) : blockCountBad c = none := by
  simp [blockCountBad, hmod, not_lt.2 hle]

theorem envOf_c_getBlk (hblk : getBlk x = true) : (envOf eGet x s s.cur p).c = p.scalar (cOf .modw x).toNat :=
  envOf_c_src (by simp [eGet, hblk])

theorem envOf_c_putBlk (hblk : getBlk x = true) : (envOf ePut x s s.cur p).c = p.scalar (cOf .modw x).toNat :=
  envOf_c_src (by simp [ePut, hblk])

/-- A block form of no bytes answers 0. -/
theorem exec_getBlk_zero (h : Ready eGet x s p) (hblk : getBlk x = true) (hzero : blockCount (p.scalar (cOf .modw x).toNat) = 0) :
    exec (.getBlk x) s = .next (s.after eGet x p fun q => q.wrOp x.d.toNat 0) := by
  refine settle_ret_ready h ?_
  simp only [envOf_c_getBlk hblk, hzero, blockCountBad_none (hzero.trans_le (Nat.zero_le _)) (by rw [hzero]), if_true]

theorem exec_putBlk_zero (h : Ready ePut x s p) (hblk : getBlk x = true) (hzero : blockCount (p.scalar (cOf .modw x).toNat) = 0) :
    exec (.putBlk x) s = .next (s.after ePut x p fun q => q.wrOp x.d.toNat 0) := by
  refine settle_ret_ready h ?_
  simp only [envOf_c_putBlk hblk, hzero, blockCountBad_none (hzero.trans_le (Nat.zero_le _)) (by rw [hzero]), if_true]

end Scalar

/-- Settles O25, by the message of each form (`get_sends`, `put_sends`, `ramo_sends`) and by what the outbound buffer gives a GET. -/
theorem remoteIssue : Obligations.RemoteIssue := by
  intro x s p dev die owner hi
  refine ⟨fun h hblk hcheck hreach hload => ?get, fun h hblk hcheck hreach hroom hstore => ⟨fun hmode hcounts => ?put,
    fun hmode hflags hspoiled => ?flag⟩, fun h hcheck hreach hroom hload hreplay hlog => ?ramo, fun r hr h hblk hzero => ?blocks⟩
  case get =>
    split
    next bs hbuf =>
      have hexec := exec_get h hblk ⟨hcheck, hreach⟩ hload hbuf
      exact ⟨fun hphase => hexec.trans (congrArg Host.Outcome.next (settle_getData h.proc hphase bs)),
        fun hphase hk => hexec.trans (congrArg Host.Outcome.next (settle_getLate hphase hk bs))⟩
    next hbuf =>
      exact fun hk => (exec_get h hblk ⟨hcheck, hreach⟩ hload hbuf).trans (congrArg Host.Outcome.next (settle_getWait h.proc hk))
    next hbuf => exact get_sends h hblk ⟨hcheck, hreach⟩ hload hbuf
  case put =>
    have hkind : (mN x % 4 == 2) = false := beq_false_of_ne hmode
    refine put_sends h hi hblk ⟨hcheck, hreach⟩ (by rw [hkind]; exact putWaits_counts hroom hstore hcounts)
      (by simp [putMessage, hkind]) fun lead => ?_
    simp [stamped, putMessage, hkind, remoteEa]
  case flag =>
    have hkind : (mN x % 4 == 2) = true := beq_iff_eq.2 hmode
    refine put_sends h hi hblk ⟨hcheck, hreach⟩ (by rw [hkind]; exact putWaits_flag hroom hstore hflags)
      (by simp [hspoiled]) fun lead => ?_
    simp [stamped, putMessage, hkind, remoteEa]
  case ramo => exact ramo_sends h hi ⟨hcheck, hreach⟩ hload hroom hreplay hlog
  case blocks =>
    rcases List.mem_pair.1 hr with rfl | rfl
    · exact exec_getBlk_zero h hblk (congrArg BitVec.toNat hzero)
    · exact exec_putBlk_zero h hblk (congrArg BitVec.toNat hzero)

end Sys2Proof.Proofs.Consistency
end

section
/-! The family of consistency, fourth part: block GET and PUT (O26). -/

namespace Sys2Proof.Proofs.Consistency

open Sys2Proof Sys2Proof.Machine Sys2Proof.Proofs.Arithmetic Sys2Proof.Proofs.Encoding

section Blocks

variable {e : Entry} {x : Args} {s : State} {p : Proc}

/-! ### The local operand (R126, R170) -/

theorem grants_of_and {a : AReg} {m : BitVec 8} (h : m &&& a.ps = m) : a.grants m = true := by
  rw [ProcessState.grants_iff, ← h, BitVec.and_assoc, BitVec.and_not_self]
  exact BitVec.and_zero

/-- The checks of R126 for LOCAL and CLUSTER, in their order. -/
theorem checkRange_window {a : AReg} {ea n align : Nat} {perms : BitVec 8} (hspace : Spec.spaceOf a < 2)
    (hcheck : Spec.firstFault s p a (Spec.spaceOf a) ea n align perms = none) :
    s.checkRange p.ctx p.core a ea n (Spec.spaceOf a) perms align = none := by
  rw [Spec.firstFault] at hcheck
  split_ifs at hcheck with hvalid hgrants hrange halign hglobal hglobal' hglobal'' hlen
  case neg => exact absurd hglobal (by omega)
  have hvalid : a.valid = true := Bool.of_not_eq_false fun h => hvalid (.inl h)
  have hholds : a.holds ea n = true := by
    rw [ProcessState.holds_iff]
    exact ⟨by omega, by omega⟩
  have haligned : (align != 0 && ea % align != 0) = false := by
    simpa [or_iff_not_imp_left] using halign
  have hsame : (a.space != Spec.spaceOf a) = false := bne_self_eq_false _
  simp only [State.checkRange, hvalid, hsame, grants_of_and (not_not.1 hgrants), hholds, haligned, Bool.not_true, Bool.or_self,
    Bool.false_eq_true, if_false]
  interval_cases Spec.spaceOf a
  · exact if_neg hlen
  · exact if_neg hlen

/-- The bytes of a range of a LOCAL or CLUSTER window. -/
theorem locate_window {space : Nat} (hspace : space < 2) (priv : Bool) (ea n : Nat) (need : Need) :
    s.locate p.ctx p.core priv ea n space need = .ok [{ va := ea, pa := Spec.windowPA s p space ea, len := n }] := by
  interval_cases space <;> rfl

/-- A block's local operand that passes its checks is one piece. -/
theorem blockLocal_window {a : AReg} {n : Nat} {perms : BitVec 8} {need : Need} {go : List Piece → Act} (hspace : Spec.spaceOf a < 2)
    (hcheck : Spec.firstFault s p a (Spec.spaceOf a) a.ptr.toNat n 8 perms = none) :
    (envOf e x s s.cur p).blockLocal a n perms need go =
      go [{ va := a.ptr.toNat, pa := Spec.windowPA s p (Spec.spaceOf a) a.ptr.toNat, len := n }] := by
  have hremote : (a.valid && a.space == spRemote) = false := by
    have : a.space ≠ spRemote := fun h => absurd (h.symm.trans_lt hspace) (by decide)
    simp [this]
  have haccess : s.check p.ctx p.core p.priv a a.ptr.toNat n a.space perms 8 need =
      .ok [{ va := a.ptr.toNat, pa := Spec.windowPA s p (Spec.spaceOf a) a.ptr.toNat, len := n }] := by
    rw [State.check, show a.space = Spec.spaceOf a from rfl, checkRange_window hspace hcheck]
    exact locate_window hspace _ _ _ _
  simp only [Env.blockLocal, hremote, Bool.false_eq_true, if_false, Env.access, envOf_s0, envOf_p, haccess]

theorem loadBytes_window {ea pa n : Nat} {go : List Byte → Act} (hbad : s.badWord pa n = none) :
    (envOf e x s s.cur p).loadBytes [{ va := ea, pa := pa, len := n }] go = go (s.read pa n) := by
  have : s.badPiece [{ va := ea, pa := pa, len := n }] = none := by simp [State.badPiece, State.badFill, hbad]
  simp only [Env.loadBytes, envOf_s0, this, readPieces_one]

/-- What O26 asks of a block form before its own conditions: `n` bytes, between a remote block at `ea` that rcheck accepts (R170) and
LOCAL or CLUSTER memory that R126 allows, with an owner that can be reached. -/
structure BlockAccepted (x : Args) (s : State) (p : Proc) (remote local_ : AReg) (rperms lperms : BitVec 8) (ea : Word) (n dev die : Nat)
    (owner : Owner) : Prop where
  block : getBlk x = true
  count : blockCount (p.scalar (cOf .modw x).toNat) = n
  pos : 0 < n
  le : n ≤ 65536
  aligned : n % 8 = 0
  address : remote.ptr + offsetExt x = ea
  check : s.rcheck p.ctx remote ea.toNat n rperms 8 = none
  space : Spec.spaceOf local_ < 2
  window : Spec.firstFault s p local_ (Spec.spaceOf local_) local_.ptr.toNat n 8 lperms = none
  reach : Spec.Reachable s p ea (pmaskOf (p.scalar (cOf .modw x).toNat)) dev die owner

/-! ### GET.blk (R170, R171) -/

/-- The operation and the message of a GET.blk from `ea`. -/
def getBlkOp (x : Args) (p : Proc) (owner : Owner) (ea : Word) (n : Nat) : Op :=
  { kind := .get, owner := owner, dest := p.name x.d.toNat, block := true, ea := ea, count := n, left := 1 }

def getBlkMessage (x : Args) (s : State) (p : Proc) (dev die tok : Nat) (ea : Word) (n : Nat) : OutMsg :=
  { kind := 2, pid := s.cur, ctx := p.ctx, rank := p.rank, tok := tok, ddev := dev, ddie := die,
    pmask := pmaskOf (p.scalar (cOf .modw x).toNat), addr := ea, opw := 256, payload := natBytes 8 0, count := n,
    dst := some (p.addr (x.a.toNat - 40)), priv := p.priv }

theorem exec_getBlk {dev die n : Nat} {owner : Owner} {ea : Word} (h : Ready eGet x s p)
    (hacc : BlockAccepted x s p (p.addr (x.b.toNat - 40)) (p.addr (x.a.toNat - 40)) pRD (pEN ||| pWR) ea n dev die owner)
    (hload : p.cLoad < 65535) (hentries : ((s.die p.die).out.all fun m => !m.2.isEntry) = true) :
    exec (.getBlk x) s = .next (settle s s.cur p x (.next (((envOf eGet x s s.cur p).beginOp (getBlkOp x p owner ea n)).2.outbound p.die
      (getBlkMessage x s p dev die s.seq ea n)).2)) := by
  obtain ⟨hblk, hn, hpos, hle, hmod, hea, hcheck, hspace, hlocal, hreach⟩ := hacc
  have ha (a : BitVec 6) : (envOf eGet x s s.cur p).areg a = p.addr (a.toNat - 40) := rfl
  have hany : ((s.die p.die).out.any fun m => m.2.isEntry && m.2.ctx == p.ctx && m.2.overlaps ea.toNat n) = false := by
    rw [List.any_eq_false]
    intro m hm
    simp [show m.2.isEntry = false by simpa using List.all_eq_true.1 hentries m hm]
  show perform eGet x s _ = _
  rw [perform_ready h]
  simp only [envOf_s0, envOf_p, envOf_x, envOf_pid, envOf_c_getBlk hblk, ha, hn, hea, hcheck,
    hpos.ne', blockCountBad_none (hn.trans_le hle) (hn ▸ hmod), blockLocal_window hspace hlocal,
    toOwner_reachable hreach, not_le.2 hload, hany, Bool.false_eq_true, if_false, beginOp_token h.proc]
  rfl

/-! ### The messages of a PUT.blk (R172, R368) -/

/-- A message that joined an outbound buffer, under a key that no later message takes. -/
def Listed (u : State) (die : Nat) (P : OutMsg → Prop) : Prop :=
  ∃ k m, k < (u.die die).outSeq ∧ tblGet (u.die die).out k = some m ∧ P m

theorem Listed.sent {u : State} {die : Nat} {P : OutMsg → Prop} (h : Listed u die P) : Spec.Sent u die P := by
  obtain ⟨k, m, -, hget, hP⟩ := h
  exact ⟨k, m, hget, hP⟩

theorem die_outbound (u : State) (die : Nat) (m : OutMsg) : (u.outbound die m).2.die die =
    { u.die die with out := tblSet (u.die die).out (u.die die).outSeq m, outSeq := (u.die die).outSeq + 1 } :=
  die_modDie_self u die _

theorem listed_outbound_new {P : OutMsg → Prop} {m : OutMsg} (u : State) (die : Nat) (hm : P m) : Listed (u.outbound die m).2 die P := by
  refine ⟨(u.die die).outSeq, m, ?_, ?_, hm⟩
  · rw [die_outbound]
    exact Nat.lt_succ_self _
  · rw [die_outbound]
    exact tblGet_set_self _ _ _

theorem listed_outbound_old {P : OutMsg → Prop} {u : State} {die : Nat} (h : Listed u die P) (m : OutMsg) :
    Listed (u.outbound die m).2 die P := by
  obtain ⟨k, m', hk, hget, hP⟩ := h
  refine ⟨k, m', ?_, ?_, hP⟩
  · rw [die_outbound]
    exact Nat.lt_succ_of_lt hk
  · rw [die_outbound]
    exact (tblGet_set_ne _ _ hk.ne).trans hget

section Messages

variable {q : Proc} {u : State} {die : Nat} {owner : Owner} {m : OutMsg}

/-- A PUT message without a flag joins the buffer. -/
theorem putMsg_unflagged {r : Proc} (hr : u.proc s.cur = some r) (hkind : m.kind = 0) : ∃ f : Proc → Proc, ∃ lead,
    (∀ r, Spec.SameButOps r (f r)) ∧ u.putMsg die s.cur owner m = ((u.modProc s.cur f).outbound die (stamped r lead m)).2 :=
  ⟨_, _, sameButOps_counted r m _, putMsg_eq hr (by simp [hkind])⟩

theorem issued_putMsg (hu : Issued s q u) (hkind : m.kind = 0) : Issued s q (u.putMsg die s.cur owner m) := by
  obtain ⟨r, hr, -⟩ := hu.1
  obtain ⟨f, lead, hf, hput⟩ := putMsg_unflagged (die := die) (owner := owner) hr hkind
  rw [hput]
  exact issued_outbound (issued_modProc hu hf) _ _

theorem listed_putMsg_old {P : OutMsg → Prop} (hu : Issued s q u) (hkind : m.kind = 0) (h : Listed u die P) :
    Listed (u.putMsg die s.cur owner m) die P := by
  obtain ⟨r, hr, -⟩ := hu.1
  obtain ⟨f, lead, -, hput⟩ := putMsg_unflagged (die := die) (owner := owner) hr hkind
  rw [hput]
  exact listed_outbound_old h _

theorem listed_putMsg_new {P : OutMsg → Prop} (hu : Issued s q u) (hkind : m.kind = 0) (hP : ∀ p lead, P (stamped p lead m)) :
    Listed (u.putMsg die s.cur owner m) die P := by
  obtain ⟨r, hr, -⟩ := hu.1
  obtain ⟨f, lead, -, hput⟩ := putMsg_unflagged (die := die) (owner := owner) hr hkind
  rw [hput]
  exact listed_outbound_new _ _ (hP r lead)

end Messages

/-- PUT messages without a flag, handed over in turn, are all in the buffer. -/
theorem putMsgs_listed {q : Proc} {die : Nat} {owner : Owner} {P : Nat → OutMsg → Prop} {msg : Nat → OutMsg}
    (hkind : ∀ k, (msg k).kind = 0) (hP : ∀ p lead k, P k (stamped p lead (msg k))) (ks : List Nat) {u : State} (hu : Issued s q u) :
    Issued s q (ks.foldl (fun u k => u.putMsg die s.cur owner (msg k)) u) ∧
      (∀ Q, Listed u die Q → Listed (ks.foldl (fun u k => u.putMsg die s.cur owner (msg k)) u) die Q) ∧
      ∀ k ∈ ks, Listed (ks.foldl (fun u k => u.putMsg die s.cur owner (msg k)) u) die (P k) := by
  induction ks generalizing u with
  | nil => exact ⟨hu, fun _ h => h, by simp⟩
  | cons k ks ih =>
    obtain ⟨hissued, hkeep, hlisted⟩ := ih (issued_putMsg (die := die) (owner := owner) hu (hkind k))
    refine ⟨hissued, fun Q hQ => hkeep Q (listed_putMsg_old hu (hkind k) hQ), ?_⟩
    rintro j (_ | ⟨_, hj⟩)
    · exact hkeep _ (listed_putMsg_new hu (hkind k) fun r lead => hP r lead k)
    · exact hlisted j hj

/-! ### PUT.blk (R170, R172) -/

/-- The operation of a PUT.blk to `ea`, and its message at an offset, of the bytes `bs`. -/
def putBlkOp (x : Args) (p : Proc) (owner : Owner) (ea : Word) (n parts : Nat) : Op :=
  { kind := .put, owner := owner, dest := p.name x.d.toNat, block := true, ea := ea, count := n, left := parts }

def putBlkMessage (x : Args) (s : State) (p : Proc) (dev die tok : Nat) (ea : Word) (size parts : Nat) (bs : List Byte) (k : Nat) :
    OutMsg :=
  { kind := 0, pid := s.cur, ctx := p.ctx, rank := p.rank, tok := tok, off := k, ddev := dev, ddie := die,
    pmask := pmaskOf (p.scalar (cOf .modw x).toNat), addr := ea + BitVec.ofNat 64 k, opw := 16 * (mN x % 4) + 256,
    payload := (bs.drop k).take size, priv := p.priv, unit := tok, parts := parts }

theorem exec_putBlk {dev die n pa : Nat} {owner : Owner} {ea : Word} {ks : List Nat} (h : Ready ePut x s p)
    (hacc : BlockAccepted x s p (p.addr (x.a.toNat - 40)) (p.addr (x.b.toNat - 40)) pWR (pEN ||| pRD) ea n dev die owner)
    (hstore : p.cStore < 65535) (hsb : (s.core p.core).sb = [])
    (htile : s.tileStoresBefore s.cur p.core s.seq = false)
    (hpa : Spec.windowPA s p (Spec.spaceOf (p.addr (x.b.toNat - 40))) (p.addr (x.b.toNat - 40)).ptr.toNat = pa)
    (hbad : s.badWord pa n = none) (hks : unitOffsets n (s.unitSize p.die dev) = ks)
    (hroom : (s.die p.die).entries + ks.length ≤ 2048) (hcounts : ∀ i, tblGetD p.putCount (16 * dev + i) 0 = 0) :
    exec (.putBlk x) s = .next (settle s s.cur p x (.next (ks.foldl (fun u k => u.putMsg p.die s.cur owner
      (putBlkMessage x s p dev die s.seq ea (s.unitSize p.die dev) ks.length (s.read pa n) k))
      ((envOf ePut x s s.cur p).beginOp (putBlkOp x p owner ea n ks.length)).2))) := by
  obtain ⟨hblk, hn, hpos, hle, hmod, hea, hcheck, hspace, hlocal, hreach⟩ := hacc
  have ha (a : BitVec 6) : (envOf ePut x s s.cur p).areg a = p.addr (a.toNat - 40) := rfl
  have hdone (mark : Nat) : s.sbDone p.core mark = true := by rw [State.sbDone, hsb, List.all_nil]
  have hwait : (envOf ePut x s s.cur p).putWaits dev die owner ks.length false = false :=
    putWaits_counts hroom hstore fun i => by rw [hcounts i]; omega
  show perform ePut x s _ = _
  rw [perform_ready h]
  simp only [envOf_s0, envOf_p, envOf_x, envOf_pid, envOf_c_putBlk hblk, ha, hn, hea, hcheck,
    hpos.ne', blockCountBad_none (hn.trans_le hle) (hn ▸ hmod), blockLocal_window hspace hlocal,
    toOwner_reachable hreach, hdone, htile, Bool.not_true, Bool.or_self, hks, hwait, hpa,
    loadBytes_window hbad, Bool.false_eq_true, if_false, beginOp_token h.proc]
  rfl

/-- A PUT.blk that nothing holds back hands over the messages of its bytes. -/
theorem putBlk_sends {dev die n pa size : Nat} {owner : Owner} {ea : Word} {ks : List Nat} (h : Ready ePut x s p)
    (hacc : BlockAccepted x s p (p.addr (x.a.toNat - 40)) (p.addr (x.b.toNat - 40)) pWR (pEN ||| pRD) ea n dev die owner)
    (hstore : p.cStore < 65535) (hsb : (s.core p.core).sb = []) (htile : s.tileStoresBefore s.cur p.core s.seq = false)
    (hpa : Spec.windowPA s p (Spec.spaceOf (p.addr (x.b.toNat - 40))) (p.addr (x.b.toNat - 40)).ptr.toNat = pa)
    (hbad : s.badWord pa n = none) (hsize : s.unitSize p.die dev = size) (hks : unitOffsets n size = ks)
    (hroom : (s.die p.die).entries + ks.length ≤ 2048) (hcounts : ∀ i, tblGetD p.putCount (16 * dev + i) 0 = 0) :
    ∃ t q, exec (.putBlk x) s = .next t ∧ t.proc s.cur = some q ∧
      Spec.SameButOps (procAfter ePut x p (Spec.remoteStarted .put (p.name x.d.toNat))) q ∧
      (∀ k ∈ ks, Spec.Sent t p.die (fun m => m.pid = s.cur ∧ m.kind = 0 ∧ m.addr = ea + BitVec.ofNat 64 k ∧
        m.ddev = dev ∧ m.ddie = die ∧ m.payload = ((s.read pa n).drop k).take size)) ∧ SameMemory s t ∧ OtherProcs s t [s.cur] := by
  subst hsize
  obtain ⟨hissued, -, hlisted⟩ := putMsgs_listed (die := p.die) (owner := owner)
    (msg := putBlkMessage x s p dev die s.seq ea (s.unitSize p.die dev) ks.length (s.read pa n))
    (P := fun k m => m.pid = s.cur ∧ m.kind = 0 ∧ m.addr = ea + BitVec.ofNat 64 k ∧ m.ddev = dev ∧ m.ddie = die ∧
      m.payload = ((s.read pa n).drop k).take (s.unitSize p.die dev))
    (fun _ => rfl) (fun _ _ _ => ⟨rfl, rfl, rfl, rfl, rfl, rfl⟩) ks
    (issued_beginOp (e := ePut) (x := x) h.proc (putBlkOp x p owner ea n ks.length))
  obtain ⟨t, q, hexec, hq, hops, hsent, hmem, hprocs⟩ :=
    completes_issued (exec_putBlk h hacc hstore hsb htile hpa hbad hks hroom hcounts) hissued
  exact ⟨t, q, hexec, hq, hops, fun k hk => hsent _ _ (hlisted k hk).sent, hmem, hprocs⟩

end Blocks

/-- Settles O26: GET.blk by its one message (`exec_getBlk`), PUT.blk by an induction on the offsets of its messages (`putMsgs_listed`). -/
theorem remoteBlocks : Obligations.RemoteBlocks := by
  intro x s p dev die owner hi hblk off c n ra rb hpos hle hmod
  have hoff : offsetExt x = off := offsetExt_eq x
  refine ⟨fun h hcheck hspace hlocal hreach hload hentries => ?get,
    fun h hcheck hspace hlocal hreach hstore _ hsb htile hbad hroom _ hcounts => ?put⟩
  case get =>
    have hacc : BlockAccepted x s p rb ra pRD (pEN ||| pWR) (rb.ptr + off) n dev die owner :=
      ⟨hblk, rfl, hpos, hle, hmod, by rw [hoff], hcheck, hspace, hlocal, hreach⟩
    exact completes_issued_one (exec_getBlk h hacc hload hentries) (issued_beginOp h.proc _) ⟨rfl, rfl, rfl, rfl, rfl⟩
  case put =>
    have hacc : BlockAccepted x s p ra rb pWR (pEN ||| pRD) (ra.ptr + off) n dev die owner :=
      ⟨hblk, rfl, hpos, hle, hmod, by rw [hoff], hcheck, hspace, hlocal, hreach⟩
    exact putBlk_sends h hacc hstore hsb htile rfl hbad rfl rfl hroom hcounts

end Sys2Proof.Proofs.Consistency
end

section
/-! The family of consistency, fifth part: an operation whose owner is the issuing die (O27). -/

namespace Sys2Proof.Proofs.Consistency

open Sys2Proof Sys2Proof.Machine Sys2Proof.Proofs.Arithmetic

/-! ### Waking leaves the dies -/

/-- `t` is reached from `s` by processes waking, and no die has changed. -/
structure Roused (s t : State) : Prop where
  woken : Woken s t
  dies : t.dies = s.dies

theorem Roused.trans {s t u : State} (h : Roused s t) (h' : Roused t u) : Roused s u := ⟨h.woken.trans h'.woken, h'.dies.trans h.dies⟩

theorem dies_makeReady (s : State) (pid : Nat) : (s.makeReady pid).dies = s.dies := by
  unfold State.makeReady
  split
  · rfl
  · split
    · split <;> rfl
    · rfl

theorem dies_recheck (s : State) (pid : Nat) : (s.recheck pid).dies = s.dies := by
  have hwake : (s.wake pid).dies = s.dies := by
    unfold State.wake
    split
    · split
      · exact dies_makeReady s pid
      · rfl
    · rfl
  unfold State.recheck
  split
  · split
    · split
      · exact hwake
      · rfl
    · rfl
  · rfl

theorem roused_recheck (s : State) (pid : Nat) : Roused s (s.recheck pid) := ⟨woken_recheck s pid, dies_recheck s pid⟩

theorem roused_recheckAll (s : State) : Roused s s.recheckAll := by
  refine ⟨woken_recheckAll s, ?_⟩
  have key (l : List Nat) : ∀ t : State, (l.foldl State.recheck t).dies = t.dies := by
    induction l with
    | nil => exact fun _ => rfl
    | cons n l ih => exact fun t => (ih _).trans (dies_recheck t n)
  exact key _ s

/-! ### The end of an operation with its last message (R166, R171 to R173) -/

/-- A value lands in a destination, where there is one. -/
def landedIn (dest : Option RName) (v : Word) (p : Proc) : Proc :=
  match dest with
  | none => p
  | some r => p.land r v

/-- A process whose operation has ended: its counter has fallen, and its destination has the value. -/
def opEnded (o : Op) (tok : Nat) (v : Word) (p : Proc) : Proc := landedIn o.dest v { p.lower o.kind with ops := tblErase p.ops tok }

theorem landedIn_counters (dest : Option RName) (v : Word) (p : Proc) :
    (landedIn dest v p).cLoad = p.cLoad ∧ (landedIn dest v p).cStore = p.cStore := by
  cases dest with
  | none => exact ⟨rfl, rfl⟩
  | some r =>
    simp only [landedIn, Proc.land]
    rw [Proc.wr_shape]
    exact ⟨rfl, rfl⟩

/-- A landing is that of an engine's status word (`landed_copyEndedOf`), but for the counter. -/
theorem landed_landedIn (dest : Option RName) (v : Word) (p : Proc) : Spec.Landed (landedIn dest v p) dest v := by
  have := landed_copyEndedOf dest v { p with cCopy := p.cCopy + 1 }
  cases dest <;> exact this

/-- What the last message of an operation leaves that has met no fault. -/
theorem finishOp_last {s : State} {pid tok : Nat} {p : Proc} {o : Op} (hp : s.proc pid = some p) (ho : tblGet p.ops tok = some o)
    (hleft : o.left = 1) (hfails : o.fails = []) (hprecise : o.precise = false) (hblock : o.block = false) (off : Nat) (v : Word) :
    Roused (s.modProc pid (opEnded o tok v)) (s.finishOp pid tok off 0 0 v) := by
  simp only [State.finishOp, hp, Option.bind_some, ho, hleft, hfails, hprecise, hblock, if_true]
  cases hdest : o.dest with
  | none =>
    have hended : opEnded o tok v = fun p => { p.lower o.kind with ops := tblErase p.ops tok } := by
      funext p
      simp only [opEnded, hdest, landedIn]
    rw [hended]
    exact roused_recheck _ pid
  | some r =>
    have hended : opEnded o tok v = fun p => Proc.land { p.lower o.kind with ops := tblErase p.ops tok } r v := by
      funext p
      simp only [opEnded, hdest, landedIn]
    rw [hended, ← modProc_modProc s pid (fun p => { p.lower o.kind with ops := tblErase p.ops tok }) fun p => p.land r v]
    exact (roused_recheck _ pid).trans (roused_recheck _ pid)

/-! ### What an access at its owner leaves as it was -/

/-- Bytes, processes and outbound buffers are the same in `t` as in `s`; copies of lines in caches, marks and counters may differ. -/
structure Kept (s t : State) : Prop where
  mem : t.mem = s.mem
  procs : t.procs = s.procs
  out : ∀ d, (t.die d).out = (s.die d).out

namespace Kept

theorem refl (s : State) : Kept s s := ⟨rfl, rfl, fun _ => rfl⟩

theorem trans {s t u : State} (h : Kept s t) (h' : Kept t u) : Kept s u :=
  ⟨h'.mem.trans h.mem, h'.procs.trans h.procs, fun d => (h'.out d).trans (h.out d)⟩

end Kept

theorem die_modDie (s : State) (n m : Nat) (f : Die → Die) : (s.modDie n f).die m = if m = n then f (s.die n) else s.die m :=
  tblGetD_set _ _ _ _ _

theorem kept_modDie (s : State) (n : Nat) {f : Die → Die} (hf : ∀ d, (f d).out = d.out) : Kept s (s.modDie n f) := by
  refine ⟨rfl, rfl, fun d => ?_⟩
  rw [die_modDie]
  split
  · subst d
    exact hf _
  · rfl

theorem kept_foldl {α : Type} {f : State → α → State} (hf : ∀ s a, Kept s (f s a)) (l : List α) (s : State) :
    Kept s (l.foldl f s) := by
  induction l generalizing s with
  | nil => exact .refl s
  | cons a l ih => exact (hf s a).trans (ih _)

theorem kept_cacheDrop (s : State) (die l : Nat) : Kept s (s.cacheDrop die l) := by
  unfold State.cacheDrop
  split
  · exact .refl s
  · have hmoved := kept_modDie s die (f := fun d => { d with cache := tblErase d.cache l }) fun _ => rfl
    dsimp only
    split
    · exact hmoved
    · exact ⟨hmoved.mem, hmoved.procs, hmoved.out⟩

theorem kept_cacheFill (s : State) (die slice l : Nat) : Kept s (s.cacheFill die slice l) := by
  unfold State.cacheFill
  dsimp only
  split
  · exact .refl s
  · refine Kept.trans ?_ (kept_modDie _ die fun _ => rfl)
    split
    · exact .refl s
    · exact Kept.trans (t := { s with fresh := s.fresh + 1 }) ⟨rfl, rfl, fun _ => rfl⟩ (kept_cacheDrop _ _ _)

theorem kept_dirtyLine (s : State) (l : Nat) (home : Option Nat) : Kept s (s.dirtyLine l home) := by
  have hfill : Kept s (match home with
      | some k => s.cacheFill (lineDie l) k l
      | none => s) := by
    cases home with
    | none => exact .refl s
    | some k => exact kept_cacheFill s _ k l
  unfold State.dirtyLine
  dsimp only
  split
  · exact hfill.trans (kept_modDie _ _ fun _ => rfl)
  · exact hfill

section Touch

variable (s : State) (die ctx : Nat) (ps : List Piece) (core : Nat)

/-- An access that counts in the hotness counters (R350) changes the TLB of a die only. -/
theorem touch_eq : s.touch die ctx ps core = s ∨ ∃ tlb : Die → List TlbEnt,
    s.touch die ctx ps core = s.modDie die fun d => { d with tlb := tlb d } := by
  unfold State.touch
  dsimp only
  split
  · exact .inl rfl
  · exact .inr ⟨_, rfl⟩

theorem kept_touch : Kept s (s.touch die ctx ps core) := by
  obtain htouch | ⟨tlb, htouch⟩ := touch_eq s die ctx ps core
  · rw [htouch]
    exact .refl s
  · rw [htouch]
    exact kept_modDie s die fun _ => rfl

theorem sentOut_touch : SentOut s (s.touch die ctx ps core) := by
  obtain htouch | ⟨tlb, htouch⟩ := touch_eq s die ctx ps core
  · rw [htouch]
    exact .refl s
  · rw [htouch]
    exact sentOut_modDie s die _

theorem read_touch (a n : Nat) : (s.touch die ctx ps core).read a n = s.read a n := by
  rw [State.read, (kept_touch s die ctx ps core).mem, State.read]

theorem marks_touch : (s.touch die ctx ps core).empty = s.empty ∧ (s.touch die ctx ps core).ecc = s.ecc := by
  obtain ⟨dies, seq, htouch⟩ := sentOut_touch s die ctx ps core
  rw [htouch]
  exact ⟨rfl, rfl⟩

theorem badPiece_touch (qs : List Piece) : (s.touch die ctx ps core).badPiece qs = s.badPiece qs := by
  have hcache (n : Nat) : ((s.touch die ctx ps core).die n).cache = (s.die n).cache := by
    obtain htouch | ⟨tlb, htouch⟩ := touch_eq s die ctx ps core
    · rw [htouch]
    · rw [htouch, die_modDie]
      split
      · next heq => rw [heq]
      · rfl
  simp only [State.badPiece, State.badWord, State.badFill, State.badLine, State.cacheLine, hcache, (marks_touch s die ctx ps core).2]
  rfl

end Touch

theorem countPut_eq (s : State) (sdev sdie ctx rank fseq lead : Nat) :
    ∃ flags, s.countPut sdev sdie ctx rank fseq lead = { s with flags := flags } := by
  unfold State.countPut
  split
  · exact ⟨_, rfl⟩
  · unfold State.modFlag
    split
    · exact ⟨_, rfl⟩
    · exact ⟨_, rfl⟩

/-- `t` is `s` where bytes have been stored: processes and outbound buffers are the same. -/
structure Stored (s t : State) (a : Nat) (bs : List Byte) : Prop where
  mem : t.mem = memWrite s.mem a bs
  procs : t.procs = s.procs
  out : ∀ d, (t.die d).out = (s.die d).out

theorem Kept.stored {s t u : State} {a : Nat} {bs : List Byte} (h : Kept s t) (h' : Stored t u a bs) : Stored s u a bs :=
  ⟨h'.mem.trans (by rw [h.mem]), h'.procs.trans h.procs, fun d => (h'.out d).trans (h.out d)⟩

theorem stored_write (s : State) (a : Nat) (bs : List Byte) (home : Option Nat) : Stored s (s.write a bs home) a bs := by
  have hlines : Kept s (if a < 2 ^ 40 then (unitsOf 64 a bs.length).foldl (fun s l => s.dirtyLine l home) s else s) := by
    split
    · exact kept_foldl (fun t l => kept_dirtyLine t l home) _ s
    · exact .refl s
  exact hlines.stored ⟨rfl, rfl, fun _ => rfl⟩

/-- A store at its owner of the bytes of one piece. -/
theorem stored_dieWrite (s : State) (die : Nat) (q : Piece) {bs : List Byte} (hlen : bs.length = q.len) :
    Stored s (s.dieWrite die [q] bs) q.pa bs := by
  have hdrop : Kept s (s.dropCopies die none (pieceLines [q])) := ⟨rfl, rfl, fun _ => rfl⟩
  have hone : s.dieWrite die [q] bs = (s.dropCopies die none (pieceLines [q])).write q.pa bs q.home := by
    rw [State.dieWrite, State.writePieces, List.foldl_cons, List.foldl_nil, List.take_of_length_le hlen.le]
  exact hone ▸ hdrop.stored (stored_write _ q.pa bs q.home)

/-! ### The message that performs -/

/-- What O27 asks of the entry of an operation, whatever its kind. -/
structure OwnEntry (s : State) (die k : Nat) (m : OutMsg) (p : Proc) (o : Op) : Prop where
  entry : tblGet (s.die die).out k = some m
  sorted : tblSorted (s.die die).out = true
  ddev : m.ddev = s.devId
  ddie : m.ddie = die
  queued : m.st = .queued
  free : s.sameAddrHeld die k m = false
  present : m.miss = []
  accepted : m.declined = false
  unread : m.got = none
  proc : s.proc m.pid = some p
  op : tblGet p.ops m.tok = some o
  last : o.left = 1
  sound : o.fails = []
  imprecise : o.precise = false
  scalar : o.block = false

section Own

variable {s : State} {die k : Nat} {m : OutMsg} {p : Proc} {o : Op}

theorem ownReady_of (h : OwnEntry s die k m p o) (hkind : m.kind = 0 ∨ m.kind = 2 ∨ m.kind = 4) : s.ownReady die k m = true := by
  simp only [State.ownReady, h.ddev, h.ddie, h.queued, h.free, h.present]
  rcases hkind with hkind | hkind | hkind <;> simp [hkind]

/-- `t` is `s` once the entry of a message has performed: it has left the buffer, and its operation has ended, with the value that a GET
or RAMO has; memory is the same. -/
structure Ended (s t : State) (die k : Nat) (m : OutMsg) (p : Proc) (o : Op) (v : Word) : Prop where
  mem : t.mem = s.mem
  empty : t.empty = s.empty
  ecc : t.ecc = s.ecc
  out : tblGet (t.die die).out k = none
  proc : ∃ r w, t.proc m.pid = some r ∧ (m.kind ≠ 0 → w = v) ∧ unscheduled r = unscheduled (opEnded o m.tok w p)

theorem ended_endMsg (h : OwnEntry s die k m p o) (hkind : m.kind = 0 ∨ m.kind = 2 ∨ m.kind = 4) {u : State} (v : Word)
    (hprocs : u.procs = s.procs) (hout : ∀ d, (u.die d).out = (s.die d).out) :
    Ended u (u.endMsg die k 0 0 v).recheckAll die k m p o v := by
  have hget : tblGet (u.die die).out k = some m := by rw [hout]; exact h.entry
  obtain ⟨e, he⟩ : ∃ e, u.modDie die (fun d => { d with out := tblErase d.out k }) = e := ⟨_, rfl⟩
  have hproc : e.proc m.pid = some p := he ▸ (congrArg (fun ps : Tbl Proc => tblGet ps m.pid) hprocs).trans h.proc
  obtain ⟨off, w, hw, hend⟩ : ∃ off w, (m.kind ≠ 0 → w = v) ∧ u.endMsg die k 0 0 v = e.finishOp m.pid m.tok off 0 0 w := by
    rcases hkind with hkind | hkind | hkind
    · exact ⟨m.off, 0, fun hne => absurd hkind hne, by simp [State.endMsg, hget, hkind, he]⟩
    · exact ⟨_, v, fun _ => rfl, by simp only [State.endMsg, hget, hkind, he]; rfl⟩
    · exact ⟨_, v, fun _ => rfl, by simp only [State.endMsg, hget, hkind, he]; rfl⟩
  have hroused : Roused (e.modProc m.pid (opEnded o m.tok w)) (u.endMsg die k 0 0 v).recheckAll :=
    hend ▸ (finishOp_last hproc h.op h.last h.sound h.imprecise h.scalar off w).trans (roused_recheckAll _)
  obtain ⟨hwoken, hdies⟩ := hroused
  obtain ⟨r, hr, hsame⟩ := hwoken.some (proc_modProc_self hproc _)
  subst he
  refine ⟨hwoken.mem, hwoken.empty, hwoken.ecc, ?_, r, w, hr, hw, hsame⟩
  have hdie : ((u.endMsg die k 0 0 v).recheckAll).die die = (u.modDie die fun d => { d with out := tblErase d.out k }).die die :=
    congrArg (fun ds : Tbl Die => tblGetD ds die {}) hdies
  rw [hdie, die_modDie_self]
  exact (tblGet_erase _ _ (by rw [hout]; exact h.sorted)).trans (if_pos rfl)

/-- The access of a scalar entry that its owner performs. -/
theorem exec_own (h : OwnEntry s die k m p o) (hkind : m.kind = 0 ∨ m.kind = 2 ∨ m.kind = 4) (hdst : m.kind = 2 → m.dst = none)
    {u : State} {bs : List Byte}
    (hown : s.atOwner die m.ctx m.priv (some p.core) (some m.pid) m.kind m.opw m.addr m.payload m.count = .done u bs) :
    exec (.ownerOnIssuingDiePerform die k) s = .next
      (((if m.kind = 0 then u.countPut u.devId die m.ctx m.rank m.fseq m.lead else u).endMsg die k 0 0 (opValue m bs)).recheckAll) := by
  have hat : s.atOwnDie die m = .done u bs := by rw [State.atOwnDie, h.unread, h.proc]; exact hown
  show execOwnerOnIssuingDiePerform die k s = _
  rcases hkind with hkind | hkind | hkind
  · simp [execOwnerOnIssuingDiePerform, h.entry, ownReady_of h (by simp [hkind]), h.accepted, hkind, hat]
  · simp [execOwnerOnIssuingDiePerform, h.entry, ownReady_of h (by simp [hkind]), h.accepted, hkind, hat, hdst hkind, State.endGet]
  · simp [execOwnerOnIssuingDiePerform, h.entry, ownReady_of h (by simp [hkind]), h.accepted, hkind, hat]

/-- What OWNER_ON_ISSUING_DIE_PERFORM leaves where the access has brought the owner to `u`. -/
theorem own_performs (h : OwnEntry s die k m p o) (hkind : m.kind = 0 ∨ m.kind = 2 ∨ m.kind = 4) (hdst : m.kind = 2 → m.dst = none)
    {u : State} {bs : List Byte}
    (hown : s.atOwner die m.ctx m.priv (some p.core) (some m.pid) m.kind m.opw m.addr m.payload m.count = .done u bs)
    (hprocs : u.procs = s.procs) (hout : ∀ d, (u.die d).out = (s.die d).out) :
    ∃ t, exec (.ownerOnIssuingDiePerform die k) s = .next t ∧ Ended u t die k m p o (opValue m bs) := by
  refine ⟨_, exec_own h hkind hdst hown, ?_⟩
  split
  · obtain ⟨flags, hcounted⟩ := countPut_eq u u.devId die m.ctx m.rank m.fseq m.lead
    rw [hcounted]
    obtain ⟨hmem, hempty, hecc, hleft, hproc⟩ := ended_endMsg h hkind (u := { u with flags := flags }) (opValue m bs) hprocs hout
    exact ⟨hmem, hempty, hecc, hleft, hproc⟩
  · exact ended_endMsg h hkind _ hprocs hout

end Own

/-! ### The process whose operation has ended -/

theorem opEnded_counters (o : Op) (tok : Nat) (v : Word) (p : Proc) :
    (opEnded o tok v p).cLoad = (p.lower o.kind).cLoad ∧ (opEnded o tok v p).cStore = (p.lower o.kind).cStore :=
  landedIn_counters _ _ _

section OpEnded

variable {o : Op} {tok : Nat} {v : Word} {p r : Proc} (h : unscheduled r = unscheduled (opEnded o tok v p))
include h

theorem landed_opEnded : Spec.Landed r o.dest v := landed_unscheduled h (landed_landedIn _ _ _)

theorem cStore_opEnded (hkind : o.kind = .put) : r.cStore = p.cStore - 1 :=
  (congrArg Proc.cStore h).trans ((opEnded_counters o tok v p).2.trans (by rw [hkind, Proc.lower]))

theorem cLoad_opEnded (hkind : o.kind ≠ .put) : r.cLoad = p.cLoad - 1 := by
  refine (congrArg Proc.cLoad h).trans ((opEnded_counters o tok v p).1.trans ?_)
  cases hk : o.kind with
  | put => exact absurd hk hkind
  | _ => rfl

end OpEnded

/-! ### O27 -/

/-- A RAMO on a page that is not logged performs whatever the order log says. -/
theorem ramoOrder_unlogged {isLog : Bool} (h : isLog = false) (s : State) (ctx : Nat) (pid : Option Nat) (va : Word)
    (go : State → AtOwner) : s.ramoOrder ctx pid isLog va go = go s := by
  subst h
  unfold State.ramoOrder
  split <;> rfl

/-- The bytes of a store, read from where it has stored them, and the others. -/
theorem Stored.bytes {s u t : State} {a n : Nat} {bs : List Byte} (h : Stored s u a bs) (hmem : t.mem = u.mem) (hwf : s.wf = true)
    (hlen : bs.length = n) : t.read a n = bs ∧ OnlyBytes s t a n := by
  have hmem : t.mem = memWrite s.mem a bs := hmem.trans h.mem
  refine ⟨?_, fun c hc => ?_⟩
  · rw [State.read, hmem, ← hlen]
    exact memRead_write_self a bs hwf
  · rw [hmem, memByte_write a c bs hwf, if_neg (by omega)]

/-- Settles O27: what the owner makes of each kind of access (`State.atOwner`), and what its end leaves (`own_performs`). -/
theorem ownerPerforms : Obligations.OwnerPerforms := by
  intro s die k m p o q hentry hsorted hddev hddie hqueued hfree hpresent haccepted hunread hproc hop hlast hsound himprecise hscalar hwf
  have h : OwnEntry s die k m p o := ⟨hentry, hsorted, hddev, hddie, hqueued, hfree, hpresent, haccepted, hunread, hproc, hop, hlast,
    hsound, himprecise, hscalar⟩
  have htouch := kept_touch s die m.ctx [q] p.core
  obtain ⟨hempty, hecc⟩ := marks_touch s die m.ctx [q] p.core
  refine ⟨fun hkind hplain hput hdest hresolve hlen => ?put, fun hkind hdst hget hresolve hbad => ?get,
    fun hkind hdst hramo hlen hbad hlog hresolve => ?ramo⟩
  case put =>
    have hown : s.atOwner die m.ctx m.priv (some p.core) (some m.pid) m.kind m.opw m.addr m.payload m.count =
        .done ((s.touch die m.ctx [q] p.core).dieWrite die [q] m.payload) [] := by
      simp [State.atOwner, hkind, hresolve, hplain]
    have hstored := htouch.stored (stored_dieWrite _ die q hlen.symm)
    obtain ⟨t, hexec, hended⟩ := own_performs h (.inl hkind) (by simp [hkind]) hown hstored.procs hstored.out
    obtain ⟨r, w, hr, -, hsame⟩ := hended.proc
    obtain ⟨hread, honly⟩ := hstored.bytes hended.mem hwf hlen.symm
    exact ⟨t, r, hexec, hread, honly, hended.out, hr, cStore_opEnded hsame hput⟩
  case get =>
    have hown : s.atOwner die m.ctx m.priv (some p.core) (some m.pid) m.kind m.opw m.addr m.payload m.count =
        .done (s.touch die m.ctx [q] p.core) (s.read q.pa q.len) := by
      simp [State.atOwner, hkind, hresolve, badPiece_touch, hbad, readPieces_one, read_touch]
    obtain ⟨t, hexec, hended⟩ := own_performs h (.inr (.inl hkind)) (fun _ => hdst) hown htouch.procs htouch.out
    obtain ⟨r, w, hr, hw, hsame⟩ := hended.proc
    rw [hw (by simp [hkind])] at hsame
    exact ⟨t, r, hexec, sameMemory_of_eq (hended.mem.trans htouch.mem) (hended.empty.trans hempty)
      (hended.ecc.trans hecc), hended.out, hr, cLoad_opEnded hsame (by simp [hget]), landed_opEnded hsame⟩
  case ramo =>
    intro old new
    have hown : s.atOwner die m.ctx m.priv (some p.core) (some m.pid) m.kind m.opw m.addr m.payload m.count =
        .done ((s.touch die m.ctx [q] p.core).dieWrite die [q] (natBytes q.len new)) (s.read q.pa q.len) := by
      simp [State.atOwner, hkind, ← hlen, hresolve, badPiece_touch, hbad, ramoOrder_unlogged hlog, readPieces_one, read_touch, new, old,
        State.readNat]
    have hlength : (natBytes q.len new).length = q.len := natBytes_length _ _
    have hstored := htouch.stored (stored_dieWrite _ die q hlength)
    obtain ⟨t, hexec, hended⟩ := own_performs h (.inr (.inr hkind)) (by simp [hkind]) hown hstored.procs hstored.out
    obtain ⟨r, w, hr, hw, hsame⟩ := hended.proc
    rw [hw (by simp [hkind])] at hsame
    obtain ⟨hread, honly⟩ := hstored.bytes hended.mem hwf hlength
    exact ⟨t, r, hexec, hread, honly, hended.out, hr, cLoad_opEnded hsame (by simp [hramo]), landed_opEnded hsame⟩

end Sys2Proof.Proofs.Consistency
end

section
/-! The family of contexts, first part: what suspending and waking processes leaves (R181, R218). -/

namespace Sys2Proof.Proofs.Context

open Sys2Proof Sys2Proof.Machine Sys2Proof.Proofs.Arithmetic

/-! ### Processes that are suspended or wake -/

/-- `t` is `s` but for the scheduling of processes: their states, the slots and ready queues of cores, and the dirty dies of
contexts. -/
structure Rescheduled (s t : State) : Prop where
  woken : Woken s t
  shape : ∃ seq procs cores ctxs, t = { s with seq := seq, procs := procs, cores := cores, ctxs := ctxs }
  core : ∀ c, ∃ slots ready, t.core c = { s.core c with slots := slots, ready := ready }

namespace Rescheduled

theorem refl (s : State) : Rescheduled s s := ⟨.refl s, ⟨_, _, _, _, rfl⟩, fun _ => ⟨_, _, rfl⟩⟩

theorem trans {s t u : State} (h : Rescheduled s t) (h' : Rescheduled t u) : Rescheduled s u where
  woken := h.woken.trans h'.woken
  shape := by
    obtain ⟨_, _, _, _, rfl⟩ := h.shape
    obtain ⟨_, _, _, _, rfl⟩ := h'.shape
    exact ⟨_, _, _, _, rfl⟩
  core := fun c => by
    obtain ⟨_, _, hc⟩ := h.core c
    obtain ⟨_, _, hc'⟩ := h'.core c
    exact ⟨_, _, by rw [hc', hc]⟩

theorem foldl {α : Type} {f : State → α → State} (hf : ∀ s a, Rescheduled s (f s a)) (l : List α) (s : State) :
    Rescheduled s (l.foldl f s) := by
  induction l generalizing s with
  | nil => exact refl s
  | cons a l ih => exact (hf s a).trans (ih _)

theorem dies {s t : State} (h : Rescheduled s t) : t.dies = s.dies := by obtain ⟨_, _, _, _, rfl⟩ := h.shape; rfl
theorem queues {s t : State} (h : Rescheduled s t) : t.queues = s.queues := by obtain ⟨_, _, _, _, rfl⟩ := h.shape; rfl
theorem rmacks {s t : State} (h : Rescheduled s t) : t.rmacks = s.rmacks := by obtain ⟨_, _, _, _, rfl⟩ := h.shape; rfl
theorem kicks {s t : State} (h : Rescheduled s t) : t.kicks = s.kicks := by obtain ⟨_, _, _, _, rfl⟩ := h.shape; rfl

theorem die {s t : State} (h : Rescheduled s t) (n : Nat) : t.die n = s.die n := by rw [State.die, h.dies, State.die]

theorem records {s t : State} (h : Rescheduled s t) (c : Nat) : (t.core c).records = (s.core c).records := by
  obtain ⟨_, _, hc⟩ := h.core c; rw [hc]

theorem watch {s t : State} (h : Rescheduled s t) (c : Nat) : (t.core c).watch = (s.core c).watch := by
  obtain ⟨_, _, hc⟩ := h.core c; rw [hc]

theorem st {s t : State} (h : Rescheduled s t) (n : Nat) : (t.ctx n).st = (s.ctx n).st := by
  obtain ⟨_, hd⟩ := h.woken.ctx n; rw [hd]

theorem wdLimit {s t : State} (h : Rescheduled s t) (n : Nat) : (t.ctx n).wdLimit = (s.ctx n).wdLimit := by
  obtain ⟨_, hd⟩ := h.woken.ctx n; rw [hd]

theorem ack {s t : State} (h : Rescheduled s t) (n : Nat) : (t.ctx n).ack = (s.ctx n).ack := by
  obtain ⟨_, hd⟩ := h.woken.ctx n; rw [hd]

end Rescheduled

theorem rescheduled_enter (s : State) (pid : Nat) (st : PState) : Rescheduled s (s.enter pid st) :=
  ⟨woken_enter s pid st, ⟨_, _, _, _, rfl⟩, fun _ => ⟨_, _, rfl⟩⟩

theorem rescheduled_modCore (s : State) (n : Nat) {f : Core → Core}
    (hf : ∀ c, ∃ slots ready, f c = { c with slots := slots, ready := ready }) : Rescheduled s (s.modCore n f) := by
  have hcore (c : Nat) : ∃ slots ready, (s.modCore n f).core c = { s.core c with slots := slots, ready := ready } := by
    rw [core_modCore]
    split
    · subst c; exact hf _
    · exact ⟨_, _, rfl⟩
  refine ⟨⟨rfl, rfl, rfl, rfl, rfl, rfl, fun c => ?_, fun _ => ⟨_, rfl⟩, fun _ => rfl⟩, ⟨_, _, _, _, rfl⟩, hcore⟩
  obtain ⟨_, _, hc⟩ := hcore c
  rw [hc]

theorem rescheduled_makeReady (s : State) (pid : Nat) : Rescheduled s (s.makeReady pid) := by
  unfold State.makeReady
  split
  · exact .refl s
  · split
    · split
      · exact .refl s
      · exact rescheduled_enter s pid _
    · next p _ _ =>
      have hquantum (t : State) : Rescheduled t (t.modProc pid fun q => { q with quantum := 0 }) :=
        ⟨woken_modProc t pid fun _ => rfl, ⟨_, _, _, _, rfl⟩, fun _ => ⟨_, _, rfl⟩⟩
      have hqueue (t : State) : Rescheduled t (t.enqueue pid p false) := rescheduled_modCore t _ fun _ => ⟨_, _, rfl⟩
      have hdirty (t : State) : Rescheduled t (t.modCtx p.ctx fun c => { c with dirty := nsAdd c.dirty (coreDie p.core) }) :=
        ⟨woken_dirty t _ _, ⟨_, _, _, _, rfl⟩, fun _ => ⟨_, _, rfl⟩⟩
      exact (((rescheduled_enter s pid .ready).trans (hquantum _)).trans (hqueue _)).trans (hdirty _)

theorem rescheduled_wake (s : State) (pid : Nat) : Rescheduled s (s.wake pid) := by
  unfold State.wake
  split
  · split
    · exact rescheduled_makeReady s pid
    · exact .refl s
  · exact .refl s

theorem rescheduled_recheck (s : State) (pid : Nat) : Rescheduled s (s.recheck pid) := by
  unfold State.recheck
  split
  · split
    · split
      · exact rescheduled_wake s pid
      · exact .refl s
    · exact .refl s
  · exact .refl s

theorem rescheduled_recheckAll (s : State) : Rescheduled s s.recheckAll := .foldl rescheduled_recheck _ s

theorem rescheduled_suspendProc (s : State) (pid : Nat) : Rescheduled s (s.suspendProc pid) := by
  unfold State.suspendProc
  split
  · exact .refl s
  · split
    · exact .refl s
    · split
      · next p _ _ _ =>
        have hslot : Rescheduled s (s.leaveSlot pid p.core) := rescheduled_modCore s _ fun _ => ⟨_, _, rfl⟩
        have hqueue (t : State) : Rescheduled t (t.unready pid p.core) := rescheduled_modCore t _ fun _ => ⟨_, _, rfl⟩
        exact (hslot.trans (hqueue _)).trans (rescheduled_enter _ _ _)
      · exact .refl s

/-! ### A context that is suspended (R180, R181) -/

/-- The context of `s` with the state and cause of its suspension. -/
def suspendedCtx (s : State) (ctx cause : Nat) : State :=
  s.modCtx ctx fun c => { c with st := .suspended, causes := c.causes ++ [cause], resumeBound := c.st == .bound }

/-- The processes of a context enter SUSPENDED once it has. -/
theorem suspendCtx_active {s : State} {ctx : Nat} (h : (s.ctx ctx).st = .bound ∨ (s.ctx ctx).st = .running) (cause : Nat) :
    s.suspendCtx ctx cause = (s.procs.filter fun e => e.2.ctx == ctx).foldl (fun s e => s.suspendProc e.1) (suspendedCtx s ctx cause) := by
  have hst : ((s.ctx ctx).st == .bound || (s.ctx ctx).st == .running) = true := by rcases h with h | h <;> simp [h]
  simp only [State.suspendCtx, hst, if_true]
  rfl

theorem rescheduled_suspendCtx {s : State} {ctx : Nat} (h : (s.ctx ctx).st = .bound ∨ (s.ctx ctx).st = .running) (cause : Nat) :
    Rescheduled (suspendedCtx s ctx cause) (s.suspendCtx ctx cause) := by
  rw [suspendCtx_active h]
  exact .foldl (f := fun t (e : Nat × Proc) => t.suspendProc e.1) (fun t e => rescheduled_suspendProc t e.1) _ _

theorem st_suspendedCtx (s : State) (ctx cause : Nat) : ((suspendedCtx s ctx cause).ctx ctx).st = .suspended := by
  rw [suspendedCtx, ctx_modCtx_self]

theorem st_suspendCtx {s : State} {ctx : Nat} (h : (s.ctx ctx).st = .bound ∨ (s.ctx ctx).st = .running) (cause : Nat) :
    ((s.suspendCtx ctx cause).ctx ctx).st = .suspended :=
  ((rescheduled_suspendCtx h cause).st ctx).trans (st_suspendedCtx s ctx cause)

/-- On a context that is SUSPENDED already a cause joins the host's record of causes, and nothing else changes. -/
theorem suspendCtx_suspended {s : State} {ctx : Nat} (h : (s.ctx ctx).st = .suspended) (cause : Nat) :
    s.suspendCtx ctx cause = s.modCtx ctx fun c => { c with causes := c.causes ++ [cause] } := by
  simp [State.suspendCtx, h]

/-- A cause with its record suspends a context that runs. -/
theorem causeFor_running {s : State} {ctx : Nat} (h : (s.ctx ctx).st = .running) (cause core : Nat) (r : FRec) :
    s.causeFor ctx cause core r = (s.holdRecord core r).suspendCtx ctx cause := by
  simp [State.causeFor, h]

theorem causeFor_suspended {s : State} {ctx : Nat} (h : (s.ctx ctx).st = .suspended) (cause core : Nat) (r : FRec) :
    s.causeFor ctx cause core r = s.modCtx ctx fun c => { c with causes := c.causes ++ [cause] } := by
  simp [State.causeFor, h, suspendCtx_suspended]

theorem rescheduled_causeFor {s : State} {ctx : Nat} (h : (s.ctx ctx).st = .running) (cause core : Nat) (r : FRec) :
    Rescheduled (suspendedCtx (s.holdRecord core r) ctx cause) (s.causeFor ctx cause core r) := by
  rw [causeFor_running h]
  exact rescheduled_suspendCtx (s := s.holdRecord core r) (.inr h) cause

theorem st_causeFor {s : State} {ctx : Nat} (h : (s.ctx ctx).st = .running) (cause core : Nat) (r : FRec) :
    ((s.causeFor ctx cause core r).ctx ctx).st = .suspended :=
  ((rescheduled_causeFor h cause core r).st ctx).trans (st_suspendedCtx _ ctx cause)

theorem records_causeFor {s : State} {ctx : Nat} (h : (s.ctx ctx).st = .running) (cause core : Nat) (r : FRec) :
    ((s.causeFor ctx cause core r).core core).records = (s.core core).records ++ [(r, none)] := by
  rw [(rescheduled_causeFor h cause core r).records]
  show ((s.holdRecord core r).core core).records = _
  rw [State.holdRecord, core_modCore_self]

end Sys2Proof.Proofs.Context
end

section
/-! The family of contexts, second part: the events of a context (O32). -/

namespace Sys2Proof.Proofs.Context

open Sys2Proof Sys2Proof.Machine Sys2Proof.Proofs.Arithmetic

/-! ### Acknowledgements (R188, R192) -/

theorem exec_rmackArrival {s : State} {i d ctx v : Nat} (h : s.rmacks[i]? = some (d, ctx, v)) :
    exec (.rmackArrival i) s = .next (if s.curVersion d < v then
        { s with rmacks := s.rmacks.eraseIdx i }.modDie d fun x => { x with heldAcks := x.heldAcks ++ [(ctx, v)] }
      else ({ s with rmacks := s.rmacks.eraseIdx i }.recordAck d ctx v).recheckAll) := by
  show execRmackArrival i s = _
  simp only [execRmackArrival, h]
  rfl

theorem ack_recordAck (s : State) (d ctx v : Nat) :
    tblGetD ((s.recordAck d ctx v).ctx ctx).ack d 0 = max v (tblGetD (s.ctx ctx).ack d 0) := by
  simp only [State.recordAck, State.modDie_at_ctx, ctx_modCtx_self, tblGetD_set_self]

theorem rmack_recorded {s : State} {i d ctx v : Nat} (h : s.rmacks[i]? = some (d, ctx, v)) (hv : v ≤ s.curVersion d) :
    ∃ t, exec (.rmackArrival i) s = .next t ∧ t.rmacks = s.rmacks.eraseIdx i ∧
      tblGetD (t.ctx ctx).ack d 0 = max v (tblGetD (s.ctx ctx).ack d 0) := by
  have hrest := rescheduled_recheckAll ({ s with rmacks := s.rmacks.eraseIdx i }.recordAck d ctx v)
  refine ⟨_, by rw [exec_rmackArrival h, if_neg (not_lt.2 hv)], hrest.rmacks, ?_⟩
  rw [hrest.ack, ack_recordAck]
  rfl

/-! ### Windows (R188) -/

theorem window_expires {s : State} {d ctx v : Nat} (hst : (s.ctx ctx).st = .running) (hw : (s.die d).windows = [(ctx, v, 0)]) :
    ∃ t, exec (.rmapAckWindowExpiry d ctx) s = .next t ∧ (t.ctx ctx).st = .suspended ∧ (t.die d).windows = [] ∧
      (t.core (256 * d)).records = (s.core (256 * d)).records ++ [(bareRecord ctx 50, none)] := by
  let u := s.modDie d fun x => { x with windows := x.windows.filter fun y => y != (ctx, v, 0) }
  have hu : (u.ctx ctx).st = .running := hst
  have hexec : exec (.rmapAckWindowExpiry d ctx) s = .next (u.causeFor ctx 50 (256 * d) (bareRecord ctx 50)) := by
    show execRmapAckWindowExpiry d ctx s = _
    simp [execRmapAckWindowExpiry, hst, hw, CState.bears, u]
  have hdie : (u.die d).windows = [] := by simp [u, hw]
  exact ⟨_, hexec, st_causeFor hu _ _ _, by rw [(rescheduled_causeFor hu _ _ _).die]; exact hdie, records_causeFor hu _ _ _⟩

/-! ### The watchdog (R186, R193) -/

/-- The count of a context on a core has passed its limit. -/
def OverLimit (s : State) (core ctx : Nat) : Prop :=
  (s.ctx ctx).wdLimit ≠ 0 ∧ (s.ctx ctx).wdLimit * 65536 < tblGetD (s.core core).watch ctx 0

/-- The machine in which the count of the context on the core is zero. -/
def withoutCount (s : State) (core ctx : Nat) : State := s.modCore core fun k => { k with watch := tblErase k.watch ctx }

theorem overWatch_within {s : State} {core ctx : Nat} (h : ¬ OverLimit s core ctx) : s.overWatch core ctx = s := by
  unfold State.overWatch
  refine if_neg fun hc => h ?_
  simp only [Bool.and_eq_true, bne_iff_ne, decide_eq_true_eq] at hc
  exact ⟨hc.1.2, hc.2⟩

/-- The suspension names the context, whichever process holds a slot. -/
theorem overWatch_over {s : State} {core ctx : Nat} (hst : (s.ctx ctx).st = .running ∨ (s.ctx ctx).st = .suspended)
    (h : OverLimit s core ctx) : ∃ r : FRec, r.code = 52 ∧ r.ctx = ctx ∧ r.context = true ∧
      s.overWatch core ctx = (withoutCount s core ctx).causeFor ctx 52 core r := by
  have hc : (((s.ctx ctx).st == .running || (s.ctx ctx).st == .suspended) && (s.ctx ctx).wdLimit != 0 &&
      decide ((s.ctx ctx).wdLimit * 65536 < tblGetD (s.core core).watch ctx 0)) = true := by
    obtain ⟨h0, hlt⟩ := h
    rcases hst with hst | hst <;> simp [hst, h0, hlt]
  refine ⟨_, ?code, ?ctx, ?context, by unfold State.overWatch; rw [if_pos hc]; rfl⟩
  case code => split <;> rfl
  case context => split <;> rfl
  case ctx =>
    split
    · next g hg =>
      have hg := List.find?_some hg
      simpa [ctxRecord] using hg
    · rfl

theorem watchdog_expires {s : State} {core ctx : Nat} (hst : (s.ctx ctx).st = .running) (h : OverLimit s core ctx) :
    ∃ t r, exec (.watchdogExpiry core ctx) s = .next t ∧ (t.ctx ctx).st = .suspended ∧
      (t.core core).records = (s.core core).records ++ [(r, none)] ∧ r.code = 52 ∧ r.ctx = ctx ∧ r.context = true := by
  obtain ⟨r, hcode, hctx, hcontext, heq⟩ := overWatch_over (.inl hst) h
  have hrun : ((withoutCount s core ctx).ctx ctx).st = .running := hst
  refine ⟨_, r, by show execWatchdogExpiry core ctx s = _; rw [execWatchdogExpiry, heq], st_causeFor hrun _ _ _, ?_, hcode, hctx, hcontext⟩
  rw [records_causeFor hrun, withoutCount, core_modCore_self]

/-! ### Kicks (R193) -/

/-- Kicks under way are the same in `t` as in `s`, watchdog counts stand in order where they did, and a context SUSPENDED in `s`
is so in `t`. -/
structure Watched (ctx : Nat) (s t : State) : Prop where
  kicks : t.kicks = s.kicks
  sorted : ∀ c, tblSorted (s.core c).watch = true → tblSorted (t.core c).watch = true
  stays : (s.ctx ctx).st = .suspended → (t.ctx ctx).st = .suspended

theorem watched_withoutCount (s : State) (core ctx : Nat) : Watched ctx s (withoutCount s core ctx) := by
  refine ⟨rfl, fun c hc => ?_, fun h => h⟩
  rw [withoutCount, core_modCore]
  split
  · subst c; exact tblSorted_erase ctx hc
  · exact hc

theorem watched_causeFor {s : State} {ctx : Nat} (hst : (s.ctx ctx).st = .running ∨ (s.ctx ctx).st = .suspended) (cause core : Nat)
    (r : FRec) : Watched ctx s (s.causeFor ctx cause core r) := by
  rcases hst with hst | hst
  · have h := rescheduled_causeFor hst cause core r
    refine ⟨h.kicks, fun c hc => ?_, fun _ => st_causeFor hst _ _ _⟩
    rw [h.watch]
    show tblSorted ((s.holdRecord core r).core c).watch = true
    rw [State.holdRecord, core_modCore]
    split
    · subst c; exact hc
    · exact hc
  · rw [causeFor_suspended hst]
    exact ⟨rfl, fun _ hc => hc, fun _ => by rw [ctx_modCtx_self]; exact hst⟩

theorem watched_overWatch (s : State) (core ctx : Nat) : Watched ctx s (s.overWatch core ctx) := by
  by_cases hst : (s.ctx ctx).st = .running ∨ (s.ctx ctx).st = .suspended
  · by_cases h : OverLimit s core ctx
    · obtain ⟨r, -, -, -, heq⟩ := overWatch_over hst h
      have h₁ := watched_withoutCount s core ctx
      have h₂ := watched_causeFor (s := withoutCount s core ctx) hst 52 core r
      rw [heq]
      exact ⟨h₂.kicks.trans h₁.kicks, fun c hc => h₂.sorted c (h₁.sorted c hc), fun h => h₂.stays (h₁.stays h)⟩
    · rw [overWatch_within h]
      exact ⟨rfl, fun _ hc => hc, fun h => h⟩
  · have heq : s.overWatch core ctx = s := by
      unfold State.overWatch
      exact if_neg fun hc => hst (by simp only [Bool.and_eq_true, Bool.or_eq_true, beq_iff_eq] at hc; exact hc.1.1)
    rw [heq]
    exact ⟨rfl, fun _ hc => hc, fun h => h⟩

theorem watched_overWatches (ctx : Nat) (l : List Nat) (s : State) : Watched ctx s (l.foldl (fun s c => s.overWatch c ctx) s) := by
  induction l generalizing s with
  | nil => exact ⟨rfl, fun _ hc => hc, fun h => h⟩
  | cons a l ih =>
    have h₁ := watched_overWatch s a ctx
    have h₂ := ih (s.overWatch a ctx)
    exact ⟨h₂.kicks.trans h₁.kicks, fun c hc => h₂.sorted c (h₁.sorted c hc), fun h => h₂.stays (h₁.stays h)⟩

/-- One core over the limit is enough: those before it leave the machine or suspend the context themselves. -/
theorem overWatches_suspend {ctx c : Nat} {l : List Nat} (hl : c ∈ l) {s : State} (hst : (s.ctx ctx).st = .running)
    (h : OverLimit s c ctx) : ((l.foldl (fun s c => s.overWatch c ctx) s).ctx ctx).st = .suspended := by
  induction l with
  | nil => exact absurd hl List.not_mem_nil
  | cons a l ih =>
    by_cases ha : OverLimit s a ctx
    · obtain ⟨r, -, -, -, heq⟩ := overWatch_over (.inl hst) ha
      have hover : ((s.overWatch a ctx).ctx ctx).st = .suspended := heq ▸ st_causeFor (s := withoutCount s a ctx) hst _ _ _
      exact (watched_overWatches ctx l _).stays hover
    · have hne : c ≠ a := fun heq => ha (heq ▸ h)
      rw [List.foldl_cons, overWatch_within ha]
      exact ih ((List.mem_cons.1 hl).resolve_left hne)

/-- A table whose entries a map changes under their keys. -/
theorem tblGet_map {α β : Type} (f : Nat × α → Nat × β) (hf : ∀ e, (f e).1 = e.1) (t : Tbl α) (n : Nat) :
    tblGet (t.map f) n = (tblGet t n).map fun v => (f (n, v)).2 := by
  induction t with
  | nil => rfl
  | cons e t ih =>
    obtain ⟨k, v⟩ := e
    rw [List.map_cons, show f (k, v) = (k, (f (k, v)).2) from Prod.ext (hf _) rfl]
    simp only [tblGet, ih]
    split
    · next h => subst h; rfl
    · split <;> rfl

theorem watch_zeroWatch {s : State} {die ctx c : Nat} (hc : c / 256 = die) (hs : tblSorted (s.core c).watch = true) :
    tblGetD ((s.zeroWatch die ctx).core c).watch ctx 0 = 0 := by
  have hmap : ((s.zeroWatch die ctx).core c).watch = tblErase (s.core c).watch ctx := by
    unfold State.core State.zeroWatch tblGetD
    rw [tblGet_map _ fun e => by split <;> rfl]
    cases tblGet s.cores c with
    | none => rfl
    | some k => simp [hc]
  rw [hmap, tblGetD, tblGet_erase ctx ctx hs, if_pos rfl]
  rfl

/-- A core that counts for a context is in the table of cores. -/
theorem listed_of_watch {s : State} {c ctx : Nat} (h : 0 < tblGetD (s.core c).watch ctx 0) : c ∈ s.cores.map (·.1) := by
  unfold State.core tblGetD at h
  cases hc : tblGet s.cores c with
  | none => simp [hc, tblGet] at h
  | some k => exact List.mem_map.2 ⟨(c, k), tblGet_mem hc, rfl⟩

theorem kickDie_zero {s : State} {die ctx : Nat} (hs : ∀ c, c / 256 = die → tblSorted (s.core c).watch = true) {c : Nat}
    (hc : c / 256 = die) : tblGetD ((s.kickDie die ctx).core c).watch ctx 0 = 0 :=
  watch_zeroWatch hc ((watched_overWatches ctx _ s).sorted c (hs c hc))

theorem kickDie_suspends {s : State} {die ctx c : Nat} (hst : (s.ctx ctx).st = .running) (hc : c / 256 = die)
    (h : OverLimit s c ctx) : ((s.kickDie die ctx).ctx ctx).st = .suspended := by
  refine overWatches_suspend (List.mem_filter.2 ⟨listed_of_watch (ctx := ctx) ?_, by simp [hc]⟩) hst h
  exact Nat.zero_lt_of_lt h.2

theorem kick_arrives {s : State} {i d ctx : Nat} (h : s.kicks[i]? = some (d, ctx)) :
    exec (.wdogKickArrival i) s = .next ({ s with kicks := s.kicks.eraseIdx i }.kickDie d ctx) := by
  show execWdogKickArrival i s = _
  simp only [execWdogKickArrival, h]

/-! ### The end of a context (R184) -/

theorem exec_contextDrainEnd {s : State} {ctx : Nat} (hst : (s.ctx ctx).st = .draining) (hb : s.ctxBusy ctx = false) :
    exec (.contextDrainEnd ctx) s = .next (s.releaseCtx ctx) := by
  show execContextDrainEnd ctx s = _
  simp [execContextDrainEnd, hst, hb]

theorem proc_releaseCtx {s : State} {ctx n : Nat} {q : Proc} (h : (s.releaseCtx ctx).proc n = some q) : q.ctx ≠ ctx := by
  have hmem : (n, q) ∈ s.procs.filter fun e => e.2.ctx != ctx := tblGet_mem h
  simpa using (List.mem_filter.1 hmem).2

theorem tlb_releaseCtx {s : State} {ctx d : Nat} {e : TlbEnt} (h : e ∈ ((s.releaseCtx ctx).die d).tlb) : e.ctx ≠ ctx := by
  rw [State.die, tblGetD] at h
  cases hd : tblGet (s.releaseCtx ctx).dies d with
  | none => simp [hd] at h
  | some x =>
    obtain ⟨y, -, hy⟩ := List.mem_map.1 (tblGet_mem hd)
    obtain ⟨-, rfl⟩ := Prod.mk.inj hy
    rw [hd, Option.getD_some] at h
    simpa using (List.mem_filter.1 h).2

/-! ### Budgets and the order log (R185, R190) -/

theorem exec_diePeriod {s : State} {u : Nat} (h : (s.die u).period + diePeriod ≤ (s.die u).cycle) :
    exec (.budgetPeriodStart true u) s = .next (s.modDie u fun d => { d with msUsed := [], lkUsed := [], period := d.period + diePeriod }) := by
  show execBudgetPeriodStart true u s = _
  rw [execBudgetPeriodStart, if_pos rfl, if_pos h]

theorem exec_corePeriod {s : State} {u : Nat} (h : (s.core u).period + corePeriod ≤ (s.core u).cycle) :
    exec (.budgetPeriodStart false u) s = .next (s.modCore u fun c => { c with share := [], period := c.period + corePeriod }) := by
  show execBudgetPeriodStart false u s = _
  rw [execBudgetPeriodStart, if_neg (by decide), if_pos h]

theorem exec_diePeriod_within {s : State} {u : Nat} (h : (s.die u).cycle < (s.die u).period + diePeriod) :
    exec (.budgetPeriodStart true u) s = .next s := by
  show execBudgetPeriodStart true u s = _
  rw [execBudgetPeriodStart, if_pos rfl, if_neg (not_le.2 h)]

theorem exec_orderLogDrain {s : State} {ctx : Nat} (h : (s.ctx ctx).dmode = 1) :
    exec (.orderLogDrain ctx) s = .next (s.modCtx ctx fun c => { c with log := [], logFull := false }) := by
  show execOrderLogDrain ctx s = _
  rw [execOrderLogDrain, if_pos h]

/-- Settles O32: each event by what it makes of its context; a kick by the fold over the die's cores. -/
theorem contextEvents : Obligations.ContextEvents := by
  refine ⟨fun s i d ctx v => rmack_recorded, fun s i d ctx v h hv => ?held, fun s d ctx v => window_expires,
    fun s core ctx hst h0 hlt => watchdog_expires hst ⟨h0, hlt⟩, fun s i d ctx h hs => ?kick,
    fun s u => ⟨fun h => ⟨_, exec_diePeriod h, ?die⟩, fun h => ⟨_, exec_corePeriod h, ?core⟩, exec_diePeriod_within⟩,
    fun s ctx h => ⟨_, exec_orderLogDrain h, ?log⟩, fun s ctx hst hb hs => ?drained⟩
  case held =>
    refine ⟨_, by rw [exec_rmackArrival h, if_pos hv], ?_⟩
    rw [die_modDie_self]
    rfl
  case kick =>
    let u : State := { s with kicks := s.kicks.eraseIdx i }
    exact ⟨_, kick_arrives h, (watched_overWatches ctx _ u).kicks, fun c => kickDie_zero (s := u) hs,
      fun hst h0 ⟨c, hc, hlt⟩ => kickDie_suspends (s := u) hst hc ⟨h0, hlt⟩⟩
  case die => simp [diePeriod]
  case core => simp [corePeriod]
  case log => simp
  case drained =>
    refine ⟨_, exec_contextDrainEnd hst hb, ?_, fun n q => proc_releaseCtx, fun d e => tlb_releaseCtx, rfl⟩
    show tblGet (tblErase s.ctxs ctx) ctx = none
    rw [tblGet_erase ctx ctx hs, if_pos rfl]

end Sys2Proof.Proofs.Context
end

section
/-! The family of contexts, third part: PMIG, RMV, RMACK, OMARK and WDOG (O31). -/

namespace Sys2Proof.Proofs.Context

open Sys2Proof Sys2Proof.Machine Sys2Proof.Proofs.Arithmetic Sys2Proof.Proofs.Encoding

section
variable {x : Args} {s : State} {p : Proc}

/-! ### PMIG (R351 to R353) -/

/-- The owner of the page that PMIG names by its field A. -/
def pageHome (x : Args) (s : State) (p : Proc) : Nat := (s.ctx p.ctx).mapDie ((p.scalar x.a.toNat).toNat / 2 ^ 40 % 8)

/-- PMIG names a page of a live die of the device by A and frames by B, nothing that it waits for is outstanding, and no page
of that die migrates. -/
structure MovesHere (x : Args) (s : State) (p : Proc) : Prop where
  device : (p.scalar x.a.toNat).toNat / 2 ^ 43 = s.devId
  live : s.dieLive (pageHome x s p) = true
  frames : p.scalar x.b.toNat &&& ~~~0x0001E01FFFFF0000 = 0
  page : (p.scalar x.a.toNat).toNat % 2 ^ 40 < windowOff
  quiet : Spec.Quiet s p 3
  still : ∀ m ∈ (s.die (pageHome x s p)).misses, m.st ≠ .migrating

theorem quiet_go {e : Entry} (h : Spec.Quiet s p 3) (go : Act) : (envOf e x s s.cur p).quiet go = go := by
  obtain ⟨htoks, hmark, hsb⟩ := h
  simp [Env.quiet, Env.released, htoks, hmark, State.sbDone, hsb]

/-- The checks before PMIG asks the owner let it through. -/
theorem pmig_checked (h : MovesHere x s p) (hi : x.i = false) (go : Nat → Act) :
    let e := envOf ePmig x s s.cur p
    (e.addrOperand e.a fun die => if e.b &&& ~~~0x0001E01FFFFF0000 != 0 then e.trap 14 0 e.b else e.quiet (go die)) =
      go (pageHome x s p) := by
  intro e
  have ha : e.a = p.scalar x.a.toNat := rfl
  have hb : e.b = p.scalar x.b.toNat := envOf_b_reg hi rfl
  have hlive : s.dieLive ((s.ctx p.ctx).mapDie ((p.scalar x.a.toNat).toNat / 2 ^ 40 % 8)) = true := h.live
  simp only [Env.addrOperand, ha, hb, e, envOf_s0, envOf_p, h.device, hlive, h.frames, bne_self_eq_false, Bool.false_eq_true, if_false,
    if_true, quiet_go h.quiet]
  rfl

theorem pmig_asks (h : Ready ePmig x s p) (hi : x.i = false) (hv : p.wakeVal = none) (hphase : p.phase ≠ 1) (hk : p.packet = none)
    (hm : MovesHere x s p) : exec (.pmig x) s = .next (s.park s.cur .memoryServer .ask) := by
  show perform ePmig x s _ = _
  rw [perform_ready h]
  simp only [envOf_p, hv, pmig_checked hm hi, Env.asked, hphase, if_false, envOf_s0, settle_park hk]

theorem pmig_woken {v : Word} (h : Ready ePmig x s p) (hv : p.wakeVal = some v) :
    exec (.pmig x) s = .next (s.after ePmig x p fun q => q.wrOp x.d.toNat v) :=
  settle_ret_ready h (by simp only [envOf_p, hv])

/-- No migration of the page is under way. -/
theorem find_migrating (hm : MovesHere x s p) (f : Miss → Bool) :
    ((s.die (pageHome x s p)).misses.find? fun m => m.st == .migrating && f m) = none :=
  List.find?_eq_none.2 fun m hmem => by simp [hm.still m hmem]

theorem inWindows_page (hm : MovesHere x s p) : inWindows (p.scalar x.a.toNat) = false :=
  decide_eq_false (not_le.2 hm.page)

theorem pmig_absent {bits : Nat} {bad : Bool} (h : Ready ePmig x s p) (hi : x.i = false) (hv : p.wakeVal = none) (hphase : p.phase = 1)
    (hm : MovesHere x s p) (hw : s.walk (pageHome x s p) p.ctx ((p.scalar x.a.toNat).toNat % 2 ^ 43) = .stop bits bad) :
    exec (.pmig x) s = .next (s.after ePmig x p fun q => q.wrOp x.d.toNat 0) := by
  refine settle_ret_ready h ?_
  have ha : (envOf ePmig x s s.cur p).a = p.scalar x.a.toNat := rfl
  simp only [envOf_p, hv, pmig_checked hm hi, Env.asked, hphase, if_true]
  simp only [envOf_s0, Bool.and_assoc, find_migrating hm, ha, inWindows_page hm, hw, Bool.false_eq_true, if_false]

/-- What the page service of a die keeps of a migration until it ends. -/
def heldPage (g : Migr) (va : Word) : Miss :=
  { ticket := g.ticket, ctx := g.ctx, base := g.base, bits := g.bits, st := .migrating, va := va, write := false, fetch := false, reqs := [] }

/-- The machine in which a page of the process's context has begun to move to new frames. -/
def migrating (s : State) (home : Nat) (g : Migr) (va : Word) : State :=
  { s with seq := s.seq + 1 }.modDie home fun d => { d with migrs := d.migrs ++ [g], misses := d.misses ++ [heldPage g va] }

theorem migrs_migrating (s : State) (home : Nat) (g : Migr) (va : Word) :
    ((migrating s home g va).die home).migrs = (s.die home).migrs ++ [g] := by
  rw [migrating, die_modDie_self]
  rfl

/-- The migration that PMIG begins. -/
def migration (x : Args) (s : State) (p : Proc) (bits at_ : Nat) (leaf : Word) : Migr :=
  { pid := s.cur, ctx := p.ctx, base := (p.scalar x.a.toNat).toNat % 2 ^ 43 / 2 ^ bits * 2 ^ bits, bits := bits, leafAt := at_,
    leaf := leaf, newLeaf := moveLeaf leaf (p.scalar x.b.toNat), ticket := s.seq }

theorem pmig_moves {bits at_ : Nat} {leaf : Word} (h : Ready ePmig x s p) (hi : x.i = false) (hv : p.wakeVal = none)
    (hphase : p.phase = 1) (hk : p.packet = none) (hm : MovesHere x s p)
    (hw : s.walk (pageHome x s p) p.ctx ((p.scalar x.a.toNat).toNat % 2 ^ 43) = .leaf bits at_ leaf)
    (haligned : leafFrame (p.scalar x.b.toNat) % 2 ^ (bits - 16) = 0)
    (hapart : framesOverlap (leafFrame (p.scalar x.b.toNat)) (leafFrame leaf) bits = false)
    (howns : s.ownsFrames (pageHome x s p) p.ctx (leafFrame (p.scalar x.b.toNat)) bits = true) :
    exec (.pmig x) s = .next ((migrating s (pageHome x s p) (migration x s p bits at_ leaf) (p.scalar x.a.toNat)).park s.cur
      .memoryServer (.answer s.seq)) := by
  have ha : (envOf ePmig x s s.cur p).a = p.scalar x.a.toNat := rfl
  have hb : (envOf ePmig x s s.cur p).b = p.scalar x.b.toNat := envOf_b_reg hi rfl
  show perform ePmig x s _ = _
  rw [perform_ready h]
  simp only [envOf_p, hv, pmig_checked hm hi, Env.asked, hphase, if_true]
  simp only [envOf_s0, Bool.and_assoc, find_migrating hm, ha, hb, inWindows_page hm, hw, haligned, hapart, howns,
    bne_self_eq_false, Bool.not_true, Bool.or_false, Bool.false_eq_true, if_false, settle, hk, Option.isSome_none]
  rfl

/-! ### RMV and RMACK (R192) -/

theorem exec_rmv (h : Ready eRmv x s p) (ha : (p.scalar x.a.toNat).toNat < 512) : exec (.rmv x) s =
    .next (s.after eRmv x p fun q => q.wrOp x.d.toNat (tblGetD (s.die p.die).map (p.scalar x.a.toNat).toNat 0)) := by
  refine settle_ret_ready h ?_
  have hv : (envOf eRmv x s s.cur p).a = p.scalar x.a.toNat := rfl
  simp only [hv, if_neg (not_le.2 ha), envOf_p, envOf_s h.proc, State.withCur_at_die]

theorem curVersion_envOf {e : Entry} (h : s.proc s.cur = some p) (d : Nat) : (envOf e x s s.cur p).s.curVersion d = s.curVersion d := by
  rw [envOf_s h]; rfl

theorem acked_envOf {e : Entry} (h : s.proc s.cur = some p) (ctx v : Nat) : (envOf e x s s.cur p).s.acked ctx v = s.acked ctx v := by
  rw [envOf_s h]; rfl

theorem rmack_done (h : Ready eRmack x s p) (hphase : p.phase = 1) :
    exec (.rmack x) s = .next (s.after eRmack x p fun q => q.wrOp x.d.toNat 1) :=
  settle_ret_ready h (by simp only [envOf_p, hphase, if_true])

theorem rmack_stale (h : Ready eRmack x s p) (hphase : p.phase = 0) (ha : (p.scalar x.a.toNat).toNat ≠ s.curVersion p.die) :
    exec (.rmack x) s = .next (s.after eRmack x p fun q => q.wrOp x.d.toNat 0) := by
  refine settle_ret_ready h ?_
  have hv : (envOf eRmack x s s.cur p).a = p.scalar x.a.toNat := rfl
  simp [hphase, curVersion_envOf h.proc, hv, ha]

theorem rmack_acked (h : Ready eRmack x s p) (hphase : p.phase = 0) (ha : (p.scalar x.a.toNat).toNat = s.curVersion p.die)
    (hack : s.acked p.ctx (p.scalar x.a.toNat).toNat = true) :
    exec (.rmack x) s = .next (s.after eRmack x p fun q => q.wrOp x.d.toNat 1) := by
  refine settle_ret_ready h ?_
  have hv : (envOf eRmack x s s.cur p).a = p.scalar x.a.toNat := rfl
  simp [hphase, curVersion_envOf h.proc, acked_envOf h.proc, hv, ha, ha ▸ hack]

/-- The machine in which the process's acknowledgement is on its way to every live die. -/
def acking (x : Args) (s : State) (p : Proc) : State :=
  { s with rmacks := s.rmacks ++ s.liveDies.map fun d => (d, p.ctx, (p.scalar x.a.toNat).toNat) }.modProc s.cur fun q => { q with phase := 1 }

theorem rmack_waits (h : Ready eRmack x s p) (hphase : p.phase = 0) (ha : (p.scalar x.a.toNat).toNat = s.curVersion p.die)
    (hack : s.acked p.ctx (p.scalar x.a.toNat).toNat = false) (hk : p.packet = none) :
    exec (.rmack x) s = .next ((acking x s p).park s.cur .memoryServer (.rmack (p.scalar x.a.toNat).toNat)) := by
  show perform eRmack x s _ = _
  rw [perform_ready h]
  have hv : (envOf eRmack x s s.cur p).a = p.scalar x.a.toNat := rfl
  have hne : ((p.scalar x.a.toNat).toNat != s.curVersion p.die) = false := by simp [ha]
  simp only [envOf_p, hphase, curVersion_envOf h.proc, acked_envOf h.proc, hv, hne, hack, Bool.false_eq_true, if_false, settle, hk,
    Option.isSome_none, envOf_s0, envOf_pid, zero_ne_one]
  rfl

/-! ### OMARK (R190, R193) -/

/-- The process after an event of the order log (R190). -/
def counted (q : Proc) : Proc := { q with ordinal := (q.ordinal + 1) % 2 ^ 32 }

theorem modCtx_modCtx (s : State) (n : Nat) (f g : Ctx → Ctx) : (s.modCtx n f).modCtx n g = s.modCtx n fun c => g (f c) := by
  rw [State.modCtx, ctx_modCtx_self]
  simp only [State.modCtx, tblSet_set]

/-- An effect on a context and the process, beside the marks. -/
theorem settle_modCtx_upd {e : Entry} (h : s.proc s.cur = some p) (n : Nat) (f : Ctx → Ctx) (g : Proc → Proc) :
    settle s s.cur p x (.next (((envOf e x s s.cur p).s.modCtx n f).modProc s.cur g)) = (s.after e x p g).modCtx n f := by
  rw [← settle_upd h g]
  rfl

/-- An effect on a context alone, beside the marks. -/
theorem settle_modCtx {e : Entry} (h : s.proc s.cur = some p) (n : Nat) (f : Ctx → Ctx) :
    settle s s.cur p x (.next ((envOf e x s s.cur p).s.modCtx n f)) = (s.after e x p fun q => q).modCtx n f := by
  rw [← settle_next h]
  rfl

theorem ctx_envOf {e : Entry} (h : s.proc s.cur = some p) (n : Nat) : (envOf e x s s.cur p).s.ctx n = s.ctx n := by
  rw [envOf_s h]; rfl

/-- The entry that OMARK records (R190). -/
def markEntry (x : Args) (p : Proc) : LogEntry := ⟨p.rank, p.ordinal, 3, 0, p.scalar x.a.toNat, 0⟩

/-- An entry of the log has been appended or consumed on a die (R191). -/
def entryUsed (die : Nat) (c : Ctx) : Ctx := { c with logEnt := tblSet c.logEnt die (tblGetD c.logEnt die 0 + 1) }

theorem omark_off (h : Ready eOmark x s p) (hd : (s.ctx p.ctx).dmode = 0) : exec (.omark x) s = .next (s.after eOmark x p counted) := by
  show perform eOmark x s _ = _
  rw [perform_ready h]
  simp only [envOf_p, State.logSays, State.logEvent, ctx_envOf h.proc, hd]
  exact congrArg _ (settle_upd h.proc counted)

theorem omark_records (h : Ready eOmark x s p) (hd : (s.ctx p.ctx).dmode = 1) (hroom : (s.ctx p.ctx).log.length < (s.ctx p.ctx).logCap) :
    exec (.omark x) s = .next ((s.after eOmark x p counted).modCtx p.ctx fun c => entryUsed p.die { c with log := c.log ++ [markEntry x p] }) := by
  show perform eOmark x s _ = _
  rw [perform_ready h]
  simp only [envOf_p, State.logSays, State.logEvent, ctx_envOf h.proc, hd, if_neg (not_le.2 hroom), if_true, decide_true, Bool.true_or,
    modCtx_modCtx]
  exact congrArg _ (settle_modCtx_upd h.proc p.ctx _ counted)

theorem omark_replays {l : LogEntry} (h : Ready eOmark x s p) (hd : (s.ctx p.ctx).dmode = 2)
    (hl : (s.ctx p.ctx).log.find? (fun l => l.rank == p.rank && l.ord == p.ordinal) = some l) (hkind : l.kind = 3)
    (hvalue : l.value = p.scalar x.a.toNat) :
    exec (.omark x) s = .next ((s.after eOmark x p counted).modCtx p.ctx (entryUsed p.die)) := by
  show perform eOmark x s _ = _
  rw [perform_ready h]
  have ha : (envOf eOmark x s s.cur p).a = p.scalar x.a.toNat := rfl
  simp only [envOf_p, State.logSays, State.logEvent, ctx_envOf h.proc, hd, hl, hkind, ha, hvalue, bne_self_eq_false, List.contains_cons,
    beq_self_eq_true, Bool.true_or, Nat.reduceEqDiff, decide_true, Bool.or_true, if_true, if_false, Bool.false_eq_true]
  exact congrArg _ (settle_modCtx_upd h.proc p.ctx _ counted)

/-! ### WDOG (R193) -/

theorem kickDie_within {die ctx : Nat} (h : ∀ c, c / 256 = die → ¬ OverLimit s c ctx) : s.kickDie die ctx = s.zeroWatch die ctx := by
  have key (l : List Nat) (hl : ∀ c ∈ l, c / 256 = die) : l.foldl (fun s c => s.overWatch c ctx) s = s := by
    induction l with
    | nil => rfl
    | cons a l ih =>
      rw [List.foldl_cons, overWatch_within (h a (hl a List.mem_cons_self))]
      exact ih fun c hc => hl c (List.mem_cons_of_mem _ hc)
  rw [State.kickDie, key _ fun c hc => by simpa using (List.mem_filter.1 hc).2]

/-- The machine after a kick of the process's context on its die, on its way to the other live dies. -/
def kicked (s : State) (p : Proc) : State :=
  { s.zeroWatch p.die p.ctx with kicks := s.kicks ++ (s.liveDies.filter (· != p.die)).map fun d => (d, p.ctx) }

theorem exec_wdogKick (h : Ready eWdog x s p) (hw : ∀ c, c / 256 = p.die → ¬ OverLimit s c p.ctx) :
    exec (.wdogKick x) s = .next (kicked (s.after eWdog x p fun q => q) p) := by
  show perform eWdog x s _ = _
  have hkick : (envOf eWdog x s s.cur p).s.kickDie p.die p.ctx = (envOf eWdog x s s.cur p).s.zeroWatch p.die p.ctx := by
    rw [envOf_s h.proc]
    exact kickDie_within hw
  rw [perform_ready h]
  simp only [envOf_p, hkick]
  rw [← settle_next h.proc]
  rfl

theorem exec_wdogLim (h : Ready eWdog x s p) (hm : mN x ≠ 0) : exec (.wdogLim x) s = .next ((s.after eWdog x p fun q => q).modCtx p.ctx
    fun c => { c with wdLimit := wdogLimit (p.scalar x.a.toNat) c.wdCeil }) := by
  show perform eWdog x s _ = _
  rw [perform_ready h]
  have ha : (envOf eWdog x s s.cur p).a = p.scalar x.a.toNat := by simp only [envOf, eWdog, if_neg hm, Use.value]
  simp only [envOf_p, ha]
  exact congrArg _ (settle_modCtx h.proc p.ctx _)

end

/-- Settles O31: PMIG by what stands at the page's owner, RMACK by the versions acknowledged, OMARK by the mode, WDOG by the counts. -/
theorem placementInstructions : Obligations.PlacementInstructions := by
  intro x s p hi a b home here
  have moves (hm : here) : MovesHere x s p := by
    obtain ⟨hdevice, hlive, hframes, hpage, hquiet, hstill⟩ := hm
    exact ⟨hdevice, hlive, hframes, hpage, hquiet, hstill⟩
  refine ⟨fun h hv hphase hk hm => ?asks, fun h hv hphase hm => ⟨fun bits bad => pmig_absent h hi hv hphase (moves hm),
      fun bits at_ leaf hw hk ha hf ho => ?moves⟩, fun v => pmig_woken, exec_rmv,
    fun h hphase => ⟨rmack_stale h hphase, rmack_acked h hphase, fun ha hack hk => ?waits⟩, rmack_done, omark_off,
    fun h hd hroom => ⟨_, omark_records h hd hroom, ?records, after_proc _, sameMemory_of_eq rfl rfl rfl⟩,
    fun l h hd hl hkind hvalue => ⟨_, omark_replays h hd hl hkind hvalue, sameMemory_of_eq rfl rfl rfl, after_proc _⟩,
    fun h hs hw => ?kick,
    fun h hm => ⟨_, exec_wdogLim h hm, ?lim, after_proc (s := s) fun q => q, sameMemory_of_eq rfl rfl rfl,
      after_otherProcs s eWdog x p fun q => q⟩⟩
  case asks =>
    exact ⟨_, _, _, pmig_asks h hi hv hphase hk (moves hm), park_proc_self h.proc _ _, rfl, rfl, park_sameMemory h.proc _ _,
      fun n hn => park_proc_ne h.proc (by simpa using hn) _ _⟩
  case moves =>
    have hproc : (migrating s (pageHome x s p) (migration x s p bits at_ leaf) (p.scalar x.a.toNat)).proc s.cur = some p := h.proc
    refine ⟨_, _, migration x s p bits at_ leaf, _, pmig_moves h hi hv hphase hk (moves hm) hw ha hf ho, ?_, rfl, rfl, rfl, rfl,
      park_proc_self hproc _ _, rfl, rfl, ?_⟩
    · rw [park_eq hproc]
      exact migrs_migrating s (pageHome x s p) (migration x s p bits at_ leaf) (p.scalar x.a.toNat)
    · rw [park_eq hproc]
      exact sameMemory_of_eq rfl rfl rfl
  case waits =>
    have hproc : (acking x s p).proc s.cur = some { p with phase := 1 } :=
      proc_modProc_self (s := { s with rmacks := s.rmacks ++ s.liveDies.map fun d => (d, p.ctx, a.toNat) }) h.proc _
    refine ⟨_, _, _, rmack_waits h hphase ha hack hk, ?_, park_proc_self hproc _ _, rfl, ?_⟩
    · rw [park_eq hproc]
      rfl
    · rw [park_eq hproc]
      exact sameMemory_of_eq rfl rfl rfl
  case records =>
    rw [ctx_modCtx_self]
    rfl
  case kick =>
    have hwithin (c : Nat) (hc : c / 256 = p.die) : ¬ OverLimit s c p.ctx := fun ⟨h0, hlt⟩ =>
      hw.elim h0 fun hle => absurd (hle c hc) (not_le.2 hlt)
    exact ⟨_, exec_wdogKick h hwithin, fun c hc => watch_zeroWatch (s := s.after eWdog x p fun q => q) hc (hs c hc), rfl,
      after_proc (s := s) fun q => q, sameMemory_of_eq rfl rfl rfl, after_otherProcs s eWdog x p fun q => q⟩
  case lim =>
    rw [ctx_modCtx_self]
    rfl

end Sys2Proof.Proofs.Context
end

section
/-! The family of contexts, fourth part: the answer to a command, and the commands that change the state of a context (R180, R181,
R202, R204). -/

namespace Sys2Proof.Proofs.Context

open Sys2Proof Sys2Proof.Machine Sys2Proof.Proofs.Arithmetic Sys2Proof.Proofs.Encoding

/-! ### The answer to a command (R200, R202) -/

/-- Queue 0 once its oldest command is done. -/
def HQueue.answered (q : HQueue) (w : List Word) (seq : Option Nat) (cause : Nat) : HQueue :=
  { q with recs := q.recs.tail, waiting := q.waiting ++ [(w.getD 3 0,
      BitVec.ofNat 64 (seq.getD q.accepted % 2 ^ 32 * 2 ^ 32 + (if cause = 0 then 3 else 4) * 256 + cause))] }

theorem queue_modQueue_self (s : State) (n : Nat) (f : HQueue → HQueue) : (s.modQueue n f).queue n = f (s.queue n) :=
  tblGetD_set_self _ _ _ _

theorem queue_modQueue_ne (s : State) {n m : Nat} (f : HQueue → HQueue) (h : m ≠ n) : (s.modQueue n f).queue m = s.queue m :=
  (tblGetD_set _ _ _ _ _).trans (if_neg h)

/-- An answer touches queue 0 alone: no channel of that queue takes fault records. -/
theorem answer_eq (s : State) (w : List Word) (seq : Option Nat) (cause : Nat) :
    s.answer w seq cause = s.modQueue 0 fun q => HQueue.answered q w seq cause := by
  have hsink (t : State) : t.faultSink 0 = false := rfl
  simp only [State.answer, State.complete, hsink, Bool.false_eq_true, if_false, queue_modQueue_self]
  rw [State.modQueue, queue_modQueue_self]
  simp only [State.modQueue, tblSet_set]
  rfl

theorem answer_queue_ne (s : State) (w : List Word) (seq : Option Nat) (cause : Nat) {n : Nat} (h : n ≠ 0) :
    (s.answer w seq cause).queue n = s.queue n := by
  rw [answer_eq, queue_modQueue_ne _ _ h]

@[simp] theorem answer_ctx (s : State) (w : List Word) (seq : Option Nat) (cause n : Nat) : (s.answer w seq cause).ctx n = s.ctx n := by
  rw [answer_eq]; rfl

@[simp] theorem answer_proc (s : State) (w : List Word) (seq : Option Nat) (cause n : Nat) : (s.answer w seq cause).proc n = s.proc n := by
  rw [answer_eq]; rfl

@[simp] theorem answer_mem (s : State) (w : List Word) (seq : Option Nat) (cause : Nat) : (s.answer w seq cause).mem = s.mem := by
  rw [answer_eq]; rfl

@[simp] theorem answer_images (s : State) (w : List Word) (seq : Option Nat) (cause : Nat) :
    (s.answer w seq cause).images = s.images := by
  rw [answer_eq]; rfl

theorem answer_sameMemory {s t : State} (h : SameMemory s t) (w : List Word) (seq : Option Nat) (cause : Nat) :
    SameMemory s (t.answer w seq cause) := by
  rw [answer_eq]; exact h

/-- A command that has left queue 0 alone is answered with the SEQ given, or the queue's own. -/
theorem answered_of_queue {s t : State} (h : t.queue 0 = s.queue 0) (w : List Word) (seq : Option Nat) (cause : Nat) :
    Spec.Answered s (t.answer w seq cause) w (seq.getD (s.queue 0).accepted) (if cause = 0 then 3 else 4) cause := by
  rw [answer_eq, Spec.Answered, queue_modQueue_self, h]
  exact ⟨rfl, rfl⟩

theorem answered_of_queues {s t : State} (h : t.queues = s.queues) (w : List Word) (seq : Option Nat) (cause : Nat) :
    Spec.Answered s (t.answer w seq cause) w (seq.getD (s.queue 0).accepted) (if cause = 0 then 3 else 4) cause :=
  answered_of_queue (by rw [State.queue, h, State.queue]) w seq cause

/-! ### CREATE (R180) -/

/-- The machine in which the context of a number has been created. -/
def created (s : State) (n : Nat) : State :=
  { s with ctxs := tblSet s.ctxs n { st := .loading, tag := n, chans := [(0, { assigned := true, type := 4 })] } }

theorem create_answered {s : State} {w : List Word} {n : Nat} (h : s.command 0x10 = some w) (hn : n < 64)
    (hfree : Spec.ctxSt s n = .empty) (hlow : ∀ m < n, Spec.ctxSt s m ≠ .empty) : ∃ t, exec .create s = .next t ∧
      Spec.ctxSt t n = .loading ∧ Spec.Answered s t w n 3 0 ∧ SameMemory s t := by
  have hfind : ((List.range 64).find? fun n => (s.ctx n).st == .empty) = some n :=
    List.find?_range_eq_some.2 ⟨by simpa using hfree, List.mem_range.2 hn, fun m hm => by simpa using hlow m hm⟩
  refine ⟨(created s n).answer w (some n) 0, ?_, ?_, answered_of_queues rfl w (some n) 0,
    answer_sameMemory (sameMemory_of_eq rfl rfl rfl) w _ _⟩
  · show execCreate s = _
    simp only [execCreate, h, hfind]
    rfl
  · rw [Spec.ctxSt, answer_ctx]
    exact congrArg Ctx.st (tblGetD_set_self _ _ _ _)

theorem create_full {s : State} {w : List Word} (h : s.command 0x10 = some w) (hfull : ∀ n < 64, Spec.ctxSt s n ≠ .empty) :
    ∃ t, exec .create s = .next t ∧ Spec.Answered s t w (s.queue 0).accepted 4 51 := by
  have hfind : ((List.range 64).find? fun n => (s.ctx n).st == .empty) = none :=
    List.find?_range_eq_none.2 fun n hn => by simpa using hfull n hn
  refine ⟨_, ?_, answered_of_queues rfl w none 51⟩
  show execCreate s = _
  simp only [execCreate, h, hfind]

/-! ### Folds over processes -/

/-- An element of the list brings about what the other elements, and itself once more, keep. -/
theorem foldl_reaches {α : Type} {f : State → α → State} {I P : State → Prop} {a : α} (hinv : ∀ t b, b ≠ a → I t → I (f t b))
    (hreach : ∀ t, I t → P (f t a)) (hkeep : ∀ t b, P t → P (f t b)) {l : List α} (ha : a ∈ l) {s : State} (hs : I s) :
    P (l.foldl f s) := by
  have keep (l : List α) (t : State) (ht : P t) : P (l.foldl f t) := by
    induction l generalizing t with
    | nil => exact ht
    | cons b l ih => exact ih _ (hkeep t b ht)
  induction l generalizing s with
  | nil => cases ha
  | cons b l ih =>
    by_cases hb : b = a
    · exact keep l _ (hb ▸ hreach s hs)
    · exact ih ((List.mem_cons.1 ha).resolve_left (Ne.symm hb)) (hinv s b hb hs)

/-- A process of the table is among those that a filter which it passes leaves. -/
theorem mem_pids {s : State} {pid : Nat} {p : Proc} (h : s.proc pid = some p) {f : Nat × Proc → Bool} (hf : f (pid, p) = true) :
    pid ∈ (s.procs.filter f).map (·.1) :=
  List.mem_map.2 ⟨(pid, p), List.mem_filter.2 ⟨tblGet_mem h, hf⟩, rfl⟩

/-! ### SUSPEND (R180, R181) -/

theorem suspendProc_ne (s : State) {pid n : Nat} (h : n ≠ pid) : (s.suspendProc pid).proc n = s.proc n := by
  unfold State.suspendProc
  split
  · rfl
  · split
    · rfl
    · split
      · exact enter_proc_ne h .suspended
      · rfl

theorem suspendProc_self {s : State} {pid : Nat} {p : Proc} (hp : s.proc pid = some p) (hst : p.st = .running ∨ p.st = .ready)
    (hk : p.packet = none) : (s.suspendProc pid).proc pid = some { p with st := .suspended, stateSeq := s.seq } := by
  have hgo : (p.st == .running || p.st == .ready) = true := by rcases hst with h | h <;> simp [h]
  have hgoes : s.suspendProc pid = ((s.leaveSlot pid p.core).unready pid p.core).enter pid .suspended := by
    simp only [State.suspendProc, hp, hk, Option.isSome_none, Bool.false_eq_true, if_false, hgo, if_true]
  rw [hgoes]
  exact enter_proc_self (s := (s.leaveSlot pid p.core).unready pid p.core) hp .suspended

theorem suspendProc_suspended {s : State} {pid : Nat} {p : Proc} (hp : s.proc pid = some p) (hst : p.st = .suspended) :
    s.suspendProc pid = s := by
  simp [State.suspendProc, hp, hst]

/-- The process stands suspended at its next instruction. -/
def SuspendedAt (pid : Nat) (pc : Word) (t : State) : Prop := ∃ q, t.proc pid = some q ∧ q.st = .suspended ∧ q.pc = pc

theorem suspendCtx_procs {s : State} {ctx pid : Nat} {p : Proc} (hctx : (s.ctx ctx).st = .bound ∨ (s.ctx ctx).st = .running)
    (hp : s.proc pid = some p) (hpc : p.ctx = ctx) (hst : p.st = .running ∨ p.st = .ready) (hk : p.packet = none) (cause : Nat) :
    SuspendedAt pid p.pc (s.suspendCtx ctx cause) := by
  rw [suspendCtx_active hctx, ← List.foldl_map (f := fun e : Nat × Proc => e.1) (g := State.suspendProc)]
  refine foldl_reaches (I := fun t => t.proc pid = some p) (fun t b hb ht => (suspendProc_ne t hb.symm).trans ht)
    (fun t ht => ⟨_, suspendProc_self ht hst hk, rfl, rfl⟩) (fun t b ht => ?_) (mem_pids hp (by simpa using hpc))
    (show (suspendedCtx s ctx cause).proc pid = some p from hp)
  obtain ⟨q, hq, hqst, hqpc⟩ := ht
  by_cases hb : b = pid
  · exact ⟨q, by rw [hb, suspendProc_suspended hq hqst, hq], hqst, hqpc⟩
  · exact ⟨q, (suspendProc_ne t (Ne.symm hb)).trans hq, hqst, hqpc⟩

theorem suspend_answered {s : State} {w : List Word} (h : s.command 0x13 = some w)
    (hctx : Spec.ctxSt s (commandCtx w) = .bound ∨ Spec.ctxSt s (commandCtx w) = .running) :
    ∃ t, exec .suspend s = .next t ∧ Spec.ctxSt t (commandCtx w) = .suspended ∧
      (∀ pid p, s.proc pid = some p → p.ctx = commandCtx w → p.st = .running ∨ p.st = .ready → p.packet = none → ∃ q,
        t.proc pid = some q ∧ q.st = .suspended ∧ q.pc = p.pc) ∧ Spec.Answered s t w (s.queue 0).accepted 3 0 ∧ SameMemory s t := by
  have hgo : ((s.ctx (commandCtx w)).st == .bound || (s.ctx (commandCtx w)).st == .running) = true := by
    rcases hctx with h | h <;> simp [h]
  have hrest := rescheduled_suspendCtx hctx 0
  refine ⟨_, ?_, ?_, fun pid p hp hpc hst hk => ?_, answered_of_queues hrest.queues w none 0,
    answer_sameMemory hrest.woken.sameMemory w _ _⟩
  · show execSuspend s = _
    simp only [execSuspend, h, hgo, if_true]
  · rw [Spec.ctxSt, answer_ctx, st_suspendCtx hctx]
  · rw [answer_proc]
    exact suspendCtx_procs hctx hp hpc hst hk 0

theorem suspend_refused {s : State} {w : List Word} (h : s.command 0x13 = some w) (hb : Spec.ctxSt s (commandCtx w) ≠ .bound)
    (hr : Spec.ctxSt s (commandCtx w) ≠ .running) :
    ∃ t, exec .suspend s = .next t ∧ Spec.Answered s t w (s.queue 0).accepted 4 2 := by
  have hgo : ((s.ctx (commandCtx w)).st == .bound || (s.ctx (commandCtx w)).st == .running) = false := by simp [hb, hr]
  refine ⟨_, ?_, answered_of_queues rfl w none 2⟩
  show execSuspend s = _
  simp only [execSuspend, h, hgo, Bool.false_eq_true, if_false]

/-! ### RESUME (R180, R181, R188) -/

theorem makeReady_ne (s : State) {pid n : Nat} (h : n ≠ pid) : (s.makeReady pid).proc n = s.proc n := by
  unfold State.makeReady
  split
  · rfl
  · split
    · split
      · rfl
      · exact enter_proc_ne h .suspended
    · exact (proc_modProc_ne _ _ h).trans (enter_proc_ne h .ready)

theorem makeReady_self {s : State} {pid : Nat} {p : Proc} (hp : s.proc pid = some p) (hfree : s.heldBack p = false) :
    (s.makeReady pid).proc pid = some { p with st := .ready, stateSeq := s.seq, quantum := 0 } := by
  simp only [State.makeReady, hp, hfree, Bool.false_eq_true, if_false]
  exact proc_modProc_self (enter_proc_self hp .ready) _

/-- The process is READY at its next instruction, and nothing holds it. -/
def ReadyAt (pid : Nat) (pc : Word) (t : State) : Prop :=
  ∃ q, t.proc pid = some q ∧ q.st = .ready ∧ q.pc = pc ∧ t.heldBack q = false

/-- The context of `s` with the state of its resumption. -/
def resumedCtx (s : State) (ctx : Nat) : State :=
  s.modCtx ctx fun c => { c with st := if c.resumeBound then .bound else .running, causes := [] }

/-- The suspended processes of a context without a debug halt, made READY in turn. -/
def resumedProcs (s : State) (ctx : Nat) : State :=
  (s.procs.filter fun e => e.2.ctx == ctx && e.2.st == .suspended && e.2.halt.isNone).foldl (fun s e => s.makeReady e.1)
    (resumedCtx s ctx)

theorem rescheduled_resumedProcs (s : State) (ctx : Nat) : Rescheduled (resumedCtx s ctx) (resumedProcs s ctx) :=
  .foldl (f := fun t (e : Nat × Proc) => t.makeReady e.1) (fun t e => rescheduled_makeReady t e.1) _ _

theorem st_resumedCtx (s : State) (ctx : Nat) :
    ((resumedCtx s ctx).ctx ctx).st = if (s.ctx ctx).resumeBound then .bound else .running := by
  rw [resumedCtx, ctx_modCtx_self]

theorem heldBack_resumedCtx {s : State} {p : Proc} (h : p.halt = none) : (resumedCtx s p.ctx).heldBack p = false := by
  rw [State.heldBack, st_resumedCtx, h]
  cases (s.ctx p.ctx).resumeBound <;> rfl

theorem resumedProcs_ready {s : State} {pid : Nat} {p : Proc} (hp : s.proc pid = some p) (hst : p.st = .suspended)
    (hh : p.halt = none) : ReadyAt pid p.pc (resumedProcs s p.ctx) := by
  rw [resumedProcs, ← List.foldl_map (f := fun e : Nat × Proc => e.1) (g := State.makeReady)]
  refine foldl_reaches (I := fun t => t.proc pid = some p ∧ t.heldBack p = false) (fun t b hb ht => ⟨?_, ?_⟩) (fun t ht => ?_)
    (fun t b ht => ?_) (mem_pids hp (by simp [hst, hh])) ⟨hp, heldBack_resumedCtx hh⟩
  · exact (makeReady_ne t hb.symm).trans ht.1
  · rw [(woken_makeReady t b).heldBack, ht.2]
  · have hfree (q : Proc) (hc : q.ctx = p.ctx) (hq : q.halt = p.halt) : (t.makeReady pid).heldBack q = false := by
      rw [(woken_makeReady t pid).heldBack, ← ht.2, State.heldBack, hc, hq, State.heldBack]
    exact ⟨_, makeReady_self ht.1 ht.2, rfl, rfl, hfree _ rfl rfl⟩
  · obtain ⟨q, hq, hqst, hqpc, hqfree⟩ := ht
    have hfree (r : Proc) (hc : r.ctx = q.ctx) (hr : r.halt = q.halt) : (t.makeReady b).heldBack r = false := by
      rw [(woken_makeReady t b).heldBack, ← hqfree, State.heldBack, hc, hr, State.heldBack]
    by_cases hb : b = pid
    · subst b
      exact ⟨_, makeReady_self hq hqfree, rfl, hqpc, hfree _ rfl rfl⟩
    · exact ⟨q, (makeReady_ne t (Ne.symm hb)).trans hq, hqst, hqpc, hfree q rfl rfl⟩

/-- Fresh windows change dies alone. -/
theorem freshWindows_eq (s : State) (ctx : Nat) : ∃ dies, s.freshWindows ctx = { s with dies := dies } := by
  unfold State.freshWindows
  generalize s.liveDies = l
  induction l generalizing s with
  | nil => exact ⟨_, rfl⟩
  | cons d l ih =>
    obtain ⟨dies, h⟩ := ih (s.modDie d fun x => { x with windows := (x.windows.filter fun w => w.1 != ctx) ++
      (List.range (s.curVersion d - tblGetD (s.ctx ctx).ack d 0)).map fun i => (ctx, tblGetD (s.ctx ctx).ack d 0 + 1 + i, ackWindow) })
    exact ⟨dies, h⟩

theorem resume_answered {s : State} {w : List Word} (h : s.command 0x14 = some w)
    (hctx : Spec.ctxSt s (commandCtx w) = .suspended) : ∃ t, exec .resume s = .next t ∧
      Spec.ctxSt t (commandCtx w) = (if (s.ctx (commandCtx w)).resumeBound then .bound else .running) ∧
      (∀ pid p, s.proc pid = some p → p.ctx = commandCtx w → p.st = .suspended → p.halt = none → ∃ q,
        t.proc pid = some q ∧ q.st = .ready ∧ q.pc = p.pc) ∧ Spec.Answered s t w (s.queue 0).accepted 3 0 ∧ SameMemory s t := by
  have hrest := rescheduled_resumedProcs s (commandCtx w)
  obtain ⟨dies, hdies⟩ := freshWindows_eq (resumedProcs s (commandCtx w)) (commandCtx w)
  have hexec : exec .resume s = .next ({ resumedProcs s (commandCtx w) with dies := dies }.answer w none 0) := by
    show execResume s = _
    rw [← hdies]
    simp only [execResume, h, hctx, beq_self_eq_true, if_true]
    rfl
  refine ⟨_, hexec, ?_, fun pid p hp hpc hst hh => ?_, answered_of_queues (s := s) hrest.queues w none 0,
    answer_sameMemory (t := { resumedProcs s (commandCtx w) with dies := dies }) hrest.woken.sameMemory w none 0⟩
  · rw [Spec.ctxSt, answer_ctx]
    exact (hrest.st _).trans (st_resumedCtx s _)
  · rw [answer_proc, ← hpc]
    obtain ⟨q, hq, hqst, hqpc, -⟩ := resumedProcs_ready hp hst hh
    exact ⟨q, hq, hqst, hqpc⟩

/-! ### SAVE (R182, R204) -/

theorem save_waits {s : State} {w : List Word} (h : s.command 0x15 = some w) (hctx : Spec.ctxSt s (commandCtx w) = .suspended) :
    ∃ t, exec .save s = .next t ∧ (t.ctx (commandCtx w)).saveTo = some ((w.getD 1 0).toNat, (w.getD 2 0).toNat) ∧
      t.queue 0 = s.queue 0 ∧ SameMemory s t := by
  refine ⟨s.modCtx (commandCtx w) fun c => { c with saveTo := some ((w.getD 1 0).toNat, (w.getD 2 0).toNat) }, ?_, ?_, rfl,
    sameMemory_of_eq rfl rfl rfl⟩
  · show execSave s = _
    simp only [execSave, h, hctx, bne_self_eq_false, Bool.false_eq_true, if_false]
  · rw [ctx_modCtx_self]

/-- Words written to host memory change it alone. -/
theorem putHostWords_eq (l : List (Word × Nat)) (a : Nat) (s : State) :
    ∃ m, l.foldl (fun t x => t.putHostWord (a + 8 * x.2) x.1) s = { s with hostMem := m } := by
  have bytes (l : List (Byte × Nat)) (a : Nat) (s : State) :
      ∃ m, l.foldl (fun s x => s.putHostByte (a + x.2) x.1) s = { s with hostMem := m } := by
    induction l generalizing s with
    | nil => exact ⟨_, rfl⟩
    | cons x l ih =>
      obtain ⟨m, hm⟩ := ih (s.putHostByte (a + x.2) x.1)
      exact ⟨m, hm⟩
  induction l generalizing s with
  | nil => exact ⟨_, rfl⟩
  | cons x l ih =>
    obtain ⟨m, hm⟩ : ∃ m, s.putHostWord (a + 8 * x.2) x.1 = { s with hostMem := m } := bytes _ _ s
    rw [List.foldl_cons, hm]
    exact ih _

/-- The lengths that firmware chooses for the sections of an image. -/
def sectionLens (s : State) : List Nat := (List.range 7).map fun i => (Config.freeWord (s.fresh + i)).toNat % 2 ^ 28

/-- The context is no longer to be saved. -/
def savedCtx (s : State) (ctx : Nat) : State := { s with fresh := s.fresh + 7 }.modCtx ctx fun c => { c with saveTo := none }

theorem exec_imageWrite {s : State} {w : List Word} {addr len : Nat} (h : s.command 0x15 = some w)
    (hsave : (s.ctx (commandCtx w)).saveTo = some (addr, len)) (hquiet : s.ctxBusy (commandCtx w) = false) :
    ∃ hostMem, exec (.contextImageWrite (commandCtx w)) s = .next (if len < 64 * (3 + (sectionLens s).sum) then
      (savedCtx s (commandCtx w)).answer w none 14 else
        { savedCtx s (commandCtx w) with
            hostMem := hostMem, images := tblSet s.images addr (s.imageOf (commandCtx w)) }.answer w none 0) := by
  let m := s.imageOf (commandCtx w)
  obtain ⟨hostMem, hmem⟩ := putHostWords_eq (headerOf m.fwrev m.mrev m.dies (sectionLens s)).zipIdx addr (savedCtx s (commandCtx w))
  refine ⟨hostMem, ?_⟩
  show execContextImageWrite _ s = _
  simp only [execContextImageWrite, hsave, h, hquiet, bne_self_eq_false, Bool.or_self, Bool.false_eq_true, if_false]
  simp only [sectionLens, savedCtx, m] at hmem
  rw [hmem]
  rfl

theorem imageWrite_answered {s : State} {w : List Word} {addr len : Nat} (h : s.command 0x15 = some w)
    (hsave : (s.ctx (commandCtx w)).saveTo = some (addr, len)) (hquiet : s.ctxBusy (commandCtx w) = false) :
    ∃ t, exec (.contextImageWrite (commandCtx w)) s = .next t ∧ if len < 64 * (3 + (sectionLens s).sum) then
      Spec.Answered s t w (s.queue 0).accepted 4 14
    else
      Spec.Answered s t w (s.queue 0).accepted 3 0 ∧ SameMemory s t ∧ ∃ m, tblGet t.images addr = some m ∧
        m.ctx.tlen = (s.ctx (commandCtx w)).tlen ∧ m.procs = (s.procs.filter fun e => e.2.ctx == commandCtx w) ∧
        m.dies = s.liveDies := by
  obtain ⟨hostMem, hexec⟩ := exec_imageWrite h hsave hquiet
  refine ⟨_, hexec, ?_⟩
  split
  · exact answered_of_queues rfl w none 14
  · refine ⟨answered_of_queues rfl w none 0, answer_sameMemory (sameMemory_of_eq rfl rfl rfl) w _ _, s.imageOf (commandCtx w), ?_, rfl,
      rfl, rfl⟩
    rw [answer_images]
    exact tblGet_set_self _ _ _

/-! ### QUEUE_ASSIGN (R202) -/

/-- The queue that the command names has been given to its context. -/
def assignedQueue (s : State) (w : List Word) : State :=
  s.modQueue (w.getD 1 0).toNat fun q =>
    { q with en := true, priv := (w.getD 2 0).getLsbD 0, ctx := commandCtx w, closed := false, recs := [] }

theorem queueAssign_answered {s : State} {w : List Word} (h : s.command 0x18 = some w) (h0 : 0 < (w.getD 1 0).toNat)
    (hn : (w.getD 1 0).toNat < 4096) (hen : (s.queue (w.getD 1 0).toNat).en = false)
    (hclosed : (s.queue (w.getD 1 0).toNat).closed = false) (hempty : Spec.ctxSt s (commandCtx w) ≠ .empty)
    (hdrain : Spec.ctxSt s (commandCtx w) ≠ .draining) : ∃ t, exec .queueAssign s = .next t ∧
      t.queue (w.getD 1 0).toNat = { s.queue (w.getD 1 0).toNat with
        en := true, priv := (w.getD 2 0).getLsbD 0, ctx := commandCtx w, closed := false, recs := [] } ∧
      Spec.Answered s t w (s.queue 0).accepted 3 0 ∧ SameMemory s t := by
  have hgo : (((w.getD 1 0).toNat = 0 || 4096 ≤ (w.getD 1 0).toNat || (s.queue (w.getD 1 0).toNat).en ||
      (s.queue (w.getD 1 0).toNat).closed || (s.ctx (commandCtx w)).st == .empty || (s.ctx (commandCtx w)).st == .draining) : Bool) = false := by
    generalize (w.getD 1 0).toNat = n at *
    simp [h0.ne', hn, hen, hclosed, hempty, hdrain]
  refine ⟨(assignedQueue s w).answer w none 0, ?_, ?_, answered_of_queue (queue_modQueue_ne s _ h0.ne) w none 0,
    answer_sameMemory (sameMemory_of_eq rfl rfl rfl) w _ _⟩
  · show execQueueAssign s = _
    simp only [execQueueAssign, h, hgo, Bool.false_eq_true, if_false]
    rfl
  · rw [answer_queue_ne _ _ _ _ h0.ne', assignedQueue, queue_modQueue_self]

end Sys2Proof.Proofs.Context
end

section
/-! The family of contexts, fifth part: memory that firmware prepares, BIND and KERNEL_LOAD (R136, R203, R207, R341). -/

namespace Sys2Proof.Proofs.Context

open Sys2Proof Sys2Proof.Machine Sys2Proof.Proofs.Arithmetic Sys2Proof.Proofs.Encoding Sys2Proof.Proofs.Consistency

/-! ### Memory alone changes -/

/-- `t` is `s` but for memory and what the dies and cores hold: contexts, queues, processes and the device's number are the same. -/
structure Prepared (s t : State) : Prop where
  ctxs : t.ctxs = s.ctxs
  queues : t.queues = s.queues
  procs : t.procs = s.procs
  devId : t.devId = s.devId

namespace Prepared

theorem refl (s : State) : Prepared s s := ⟨rfl, rfl, rfl, rfl⟩

theorem trans {s t u : State} (h : Prepared s t) (h' : Prepared t u) : Prepared s u :=
  ⟨h'.ctxs.trans h.ctxs, h'.queues.trans h.queues, h'.procs.trans h.procs, h'.devId.trans h.devId⟩

theorem foldl {α : Type} {f : State → α → State} (hf : ∀ s a, Prepared s (f s a)) (l : List α) (s : State) :
    Prepared s (l.foldl f s) := by
  induction l generalizing s with
  | nil => exact refl s
  | cons a l ih => exact (hf s a).trans (ih _)

theorem ctx {s t : State} (h : Prepared s t) (n : Nat) : t.ctx n = s.ctx n := by rw [State.ctx, h.ctxs, State.ctx]

end Prepared

theorem prepared_cacheDrop (s : State) (die l : Nat) : Prepared s (s.cacheDrop die l) := by
  unfold State.cacheDrop
  split
  · exact .refl s
  · dsimp only
    split <;> exact ⟨rfl, rfl, rfl, rfl⟩

theorem prepared_cacheFill (s : State) (die slice l : Nat) : Prepared s (s.cacheFill die slice l) := by
  unfold State.cacheFill
  dsimp only
  split
  · exact .refl s
  · split
    · exact ⟨rfl, rfl, rfl, rfl⟩
    · obtain ⟨hctxs, hqueues, hprocs, hdev⟩ := prepared_cacheDrop { s with fresh := s.fresh + 1 } die
        ((((((s.die die).cache.filter fun c => c.2.slice == slice && c.1 % 4096 == l % 4096).map (·.1))[(Config.freeWord
          s.fresh).toNat % (((s.die die).cache.filter fun c => c.2.slice == slice && c.1 % 4096 == l % 4096).map
            (·.1)).length]?).getD 0))
      exact ⟨hctxs, hqueues, hprocs, hdev⟩

theorem prepared_dirtyLine (s : State) (l : Nat) (home : Option Nat) : Prepared s (s.dirtyLine l home) := by
  have hfill : Prepared s (match home with
      | some k => s.cacheFill (lineDie l) k l
      | none => s) := by
    cases home with
    | none => exact .refl s
    | some k => exact prepared_cacheFill s _ k l
  unfold State.dirtyLine
  dsimp only
  split
  · exact hfill.trans ⟨rfl, rfl, rfl, rfl⟩
  · exact hfill

theorem prepared_write (s : State) (a : Nat) (bs : List Byte) (home : Option Nat) : Prepared s (s.write a bs home) := by
  have hlines : Prepared s (if a < 2 ^ 40 then (unitsOf 64 a bs.length).foldl (fun s l => s.dirtyLine l home) s else s) := by
    split
    · exact .foldl (fun t l => prepared_dirtyLine t l home) _ s
    · exact .refl s
  exact hlines.trans ⟨rfl, rfl, rfl, rfl⟩

theorem prepared_clearRange (s : State) (a n : Nat) : Prepared s (s.clearRange a n) := ⟨rfl, rfl, rfl, rfl⟩

theorem prepared_giveFrames (s : State) (ctx die f n : Nat) : Prepared s (s.giveFrames ctx die f n) := ⟨rfl, rfl, rfl, rfl⟩

theorem prepared_nodeAt (s : State) (die tab top at_ size : Nat) : Prepared s (s.nodeAt die tab top at_ size).2.2 := by
  unfold State.nodeAt
  dsimp only
  split
  · exact .refl s
  · exact prepared_write s _ _ none

theorem prepared_mapPage (s : State) (die tab top off leaf : Nat) : Prepared s (s.mapPage die tab top off leaf).2 :=
  ((prepared_nodeAt s ..).trans (prepared_nodeAt _ ..)).trans (prepared_write _ _ _ none)

/-- Folds that carry a number beside the machine. -/
theorem prepared_foldl_snd {α : Type} {f : Nat × State → α → Nat × State} (hf : ∀ a x, Prepared a.2 (f a x).2) (l : List α)
    (a : Nat × State) : Prepared a.2 (l.foldl f a).2 := by
  induction l generalizing a with
  | nil => exact .refl _
  | cons x l ih => exact (hf a x).trans (ih _)

theorem prepared_mapSection (s : State) (die tab top off len frame perm slice : Nat) :
    Prepared s (s.mapSection die tab top off len frame perm slice).2 :=
  prepared_foldl_snd (fun a _ => prepared_mapPage a.2 ..) _ (top, s)

theorem prepared_mapKernels (s : State) (ctx die tab len : Nat) : Prepared s (s.mapKernels ctx die tab len) :=
  prepared_foldl_snd (fun a _ => ((prepared_mapSection a.2 ..).trans (prepared_mapSection _ ..)).trans (prepared_mapSection _ ..)) _
    (len, s)

theorem prepared_grant {ctx : Nat} {grants : List (Nat × Nat × Nat)} {s t : State} (h : s.grant ctx grants = some t) :
    Prepared s t := by
  induction grants generalizing s with
  | nil =>
    rw [State.grant, Option.some.injEq] at h
    exact h ▸ .refl s
  | cons g grants ih =>
    rw [State.grant] at h
    split at h
    · exact (prepared_giveFrames s ..).trans (ih h)
    · cases h

/-! ### BIND (R203) -/

theorem extractLsb'_toNat_eq (v : Word) (at_ n : Nat) : (v.extractLsb' at_ n).toNat = v.toNat / 2 ^ at_ % 2 ^ n := by
  rw [BitVec.extractLsb'_toNat, Nat.shiftRight_eq_div_pow]

/-- The context bound, with its table areas cleared and its kernels mapped on every live die. -/
def boundState (s : State) (ctx tab : Nat) (n : Ctx) : State :=
  let t : State := { s with ctxs := tblSet s.ctxs ctx n }
  t.liveDies.foldl (fun t d => (t.clearRange (hbmPA d tab) n.tabLen).mapKernels ctx d tab n.tabLen) t

theorem prepared_boundState (s : State) (ctx tab : Nat) (n : Ctx) :
    Prepared { s with ctxs := tblSet s.ctxs ctx n } (boundState s ctx tab n) :=
  .foldl (fun t d => (prepared_clearRange t (hbmPA d tab) n.tabLen).trans (prepared_mapKernels _ ctx d tab n.tabLen)) _ _

theorem exec_bind {s : State} {w : List Word} {tb sb tab : Nat} {grants : List (Nat × Nat × Nat)} (h : s.command 0x12 = some w)
    (hb : Spec.Bindable s (commandCtx w) (s.bindBlock (w.getD 1 0).toNat) tb sb tab) :
    exec (.bind [tb, sb, tab] grants) s =
      match (boundState s (commandCtx w) tab
        (s.bound (s.ctx (commandCtx w)) (s.bindBlock (w.getD 1 0).toNat) tb sb tab)).grant (commandCtx w) grants with
      | some t => .next (t.answer w none 0)
      | none => .next s := by
  obtain ⟨hst, hshape, hplanned, hscratch, hsink, hgapt, hgaps, htb, hsb, htab, hfitt, hfits, hfree⟩ := hb
  have hst' : (s.ctx (commandCtx w)).st = .loading := hst
  have hsinkOk : ((((s.bindBlock (w.getD 1 0).toNat).getD 41 0).extractLsb' 61 3).toNat != 4 ||
      ((s.queue (((s.bindBlock (w.getD 1 0).toNat).getD 41 0).extractLsb' 17 40).toNat).en &&
        (s.queue (((s.bindBlock (w.getD 1 0).toNat).getD 41 0).extractLsb' 17 40).toNat).ctx == commandCtx w)) = true := by
    by_cases hk : (((s.bindBlock (w.getD 1 0).toNat).getD 41 0).extractLsb' 61 3).toNat = 4
    · rw [(hsink hk).1, (hsink hk).2, beq_self_eq_true, Bool.and_self, Bool.or_true]
    · rw [bne_iff_ne.2 hk, Bool.true_or]
  have hall : (s.liveDies.all fun d => s.framesFree d (tab / 65536)
      ((s.bound (s.ctx (commandCtx w)) (s.bindBlock (w.getD 1 0).toNat) tb sb tab).tabLen / 65536)) = true :=
    List.all_eq_true.2 hfree
  show execBind _ grants s = _
  simp only [execBind, h, hst', bne_self_eq_false, hshape, hplanned, List.getD_cons_zero, List.getD_cons_succ,
    hscratch, hsinkOk, hgapt, hgaps, htb, hsb, htab, hfitt, hfits, hall, Bool.not_true, Bool.or_self, Bool.and_self, Bool.false_eq_true, if_false, if_true, decide_true]
  rfl

theorem bind_answered {s : State} {w : List Word} {tb sb tab : Nat} {grants : List (Nat × Nat × Nat)} (h : s.command 0x12 = some w) :
    let b := s.bindBlock (w.getD 1 0).toNat
    let ctx := commandCtx w
    Spec.Bindable s ctx b tb sb tab → ∃ t, exec (.bind [tb, sb, tab] grants) s = .next t ∧
      ((grants ≠ [] ∧ t = s) ∨ t.ctx ctx = s.bound (s.ctx ctx) b tb sb tab ∧ Spec.ctxSt t ctx = .bound ∧
      (t.ctx ctx).tlen = 4096 * ((b.getD 1 0).extractLsb' 48 16).toNat ∧
      (t.ctx ctx).slen = 4096 * ((b.getD 1 0).extractLsb' 0 16).toNat ∧
      (t.ctx ctx).waitlim = ((b.getD 2 0).extractLsb' 0 32).toNat ∧ Spec.Answered s t w (s.queue 0).accepted 3 0) := by
  intro b ctx hb
  have hexec := exec_bind (grants := grants) h hb
  have hbound := prepared_boundState s ctx tab (s.bound (s.ctx ctx) b tb sb tab)
  cases hg : (boundState s ctx tab (s.bound (s.ctx ctx) b tb sb tab)).grant ctx grants with
  | none =>
    rw [hg] at hexec
    exact ⟨s, hexec, .inl ⟨fun hnil => by simp [hnil, State.grant] at hg, rfl⟩⟩
  | some u =>
    rw [hg] at hexec
    have hrest := hbound.trans (prepared_grant hg)
    have hctx : (u.answer w none 0).ctx ctx = s.bound (s.ctx ctx) b tb sb tab := by
      rw [answer_ctx, hrest.ctx]
      exact tblGetD_set_self _ _ _ _
    refine ⟨_, hexec, .inr ⟨hctx, ?_, ?_, ?_, ?_, answered_of_queues hrest.queues w none 0⟩⟩
    · rw [Spec.ctxSt, hctx]; rfl
    · rw [hctx, extractLsb'_toNat_eq]; rfl
    · rw [hctx, extractLsb'_toNat_eq]; rfl
    · rw [hctx, extractLsb'_toNat_eq]; rfl

/-! ### Ranges of memory that change -/

/-- From a memory in canonical form to one in canonical form, bytes in [a, a + n) alone change. -/
def Fills (s t : State) (a n : Nat) : Prop := s.wf = true → t.wf = true ∧ OnlyBytes s t a n

namespace Fills

theorem refl (s : State) (a n : Nat) : Fills s s a n := fun h => ⟨h, fun _ _ => rfl⟩

theorem trans {s t u : State} {a n : Nat} (h : Fills s t a n) (h' : Fills t u a n) : Fills s u a n := fun hs =>
  have ⟨ht, hst⟩ := h hs
  have ⟨hu, htu⟩ := h' ht
  ⟨hu, fun c hc => (htu c hc).trans (hst c hc)⟩

theorem mono {s t : State} {a n a' n' : Nat} (h : Fills s t a n) (hsub : n = 0 ∨ a' ≤ a ∧ a + n ≤ a' + n') : Fills s t a' n' :=
  fun hs => have ⟨ht, hst⟩ := h hs; ⟨ht, fun c hc => hst c (by omega)⟩

theorem foldl {α : Type} {f : State → α → State} {a n : Nat} {l : List α} (hf : ∀ s, ∀ x ∈ l, Fills s (f s x) a n) (s : State) :
    Fills s (l.foldl f s) a n := by
  induction l generalizing s with
  | nil => exact refl s a n
  | cons x l ih => exact (hf s x List.mem_cons_self).trans (ih (fun t y hy => hf t y (List.mem_cons_of_mem _ hy)) _)

/-- What lies apart from the range reads as before. -/
theorem read {s t : State} {a n c k : Nat} (h : Fills s t a n) (hs : s.wf = true) (hd : n = 0 ∨ c + k ≤ a ∨ a + n ≤ c) :
    t.read c k = s.read c k :=
  memRead_congr fun x hx hx' => (h hs).2 x (by omega)

end Fills

theorem tblGet_filter {α : Type} {t : Tbl α} (hs : tblSorted t = true) {q : Nat × α → Bool} {n : Nat} (hq : ∀ v, q (n, v) = true) :
    tblGet (t.filter q) n = tblGet t n := by
  induction t with
  | nil => rfl
  | cons e t ih =>
    obtain ⟨k, v⟩ := e
    obtain ⟨habove, hsorted⟩ := (tblSorted_cons _ _ _).1 hs
    by_cases hk : q (k, v) = true
    · rw [List.filter_cons_of_pos hk]
      simp only [tblGet, ih hsorted]
    · have hne : n ≠ k := fun heq => hk (heq ▸ hq v)
      rw [List.filter_cons_of_neg hk, ih hsorted, tblGet, if_neg hne]
      split
      · next hlt => exact tblGet_above habove hlt.le
      · rfl

theorem fills_clearRange (s : State) (a n : Nat) : Fills s (s.clearRange a n) a n := fun hs =>
  ⟨clearRange_wf a n hs, fun c hc => congrArg (·.getD 0) (tblGet_filter ((Memory.wf_iff _).1 hs).1 fun _ => by simpa using hc)⟩

theorem fills_giveFrames (s : State) (ctx die f n : Nat) : Fills s (s.giveFrames ctx die f n) (hbmPA die (65536 * f)) (65536 * n) :=
  fills_clearRange s _ _

theorem fills_write (s : State) (a : Nat) (bs : List Byte) : Fills s (s.write a bs) a bs.length := fun hs => by
  have hmem := (stored_write s a bs none).mem
  exact ⟨(congrArg Memory.wf hmem).trans (memWrite_wf a bs hs), fun c hc => by rw [hmem, memByte_write a c bs hs, if_neg (by omega)]⟩

theorem read_write_self {s : State} (hs : s.wf = true) (a : Nat) (bs : List Byte) : (s.write a bs).read a bs.length = bs := by
  rw [State.read, (stored_write s a bs none).mem, memRead_write_self a bs hs]

theorem read_zero (s : State) (a : Nat) : s.read a 0 = [] := rfl

/-! ### The sections of a kernel (R207) -/

theorem length_le_sectionFrames (len : Nat) : len ≤ 65536 * sectionFrames len := by unfold sectionFrames; omega

/-- A section's frames lie in the HBM of a die. -/
def SectionFits (frame len : Nat) : Prop := sectionFrames len = 0 ∨ frame + sectionFrames len ≤ 2 ^ 21

/-- The frames of two sections do not meet. -/
def SectionsApart (f len g len' : Nat) : Prop :=
  sectionFrames len = 0 ∨ sectionFrames len' = 0 ∨ f + sectionFrames len ≤ g ∨ g + sectionFrames len' ≤ f

/-- The frames of a kernel lie on a die, and code apart from constants and data. -/
structure FramesFit (k : Kernel) : Prop where
  code : SectionFits k.codeFrame k.codeLen
  const : SectionFits k.constFrame k.constLen
  data : SectionFits k.dataFrame k.dataLen
  codeConst : SectionsApart k.codeFrame k.codeLen k.constFrame k.constLen
  codeData : SectionsApart k.codeFrame k.codeLen k.dataFrame k.dataLen

theorem framesFit_of_placeOk {s : State} {ctx d : Nat} {k : Kernel} (h : s.placeOk ctx k = true) (hd : d ∈ s.liveDies) : FramesFit k := by
  have hframes (f n : Nat) (hf : n = 0 ∨ s.framesFree d f n = true) : n = 0 ∨ f + n ≤ 2 ^ 21 :=
    hf.imp_right fun hf => by
      simp only [State.framesFree, Bool.and_eq_true, decide_eq_true_eq] at hf
      exact hf.1.1
  have hall : (k.framesOf.zipIdx.all fun x => (s.liveDies.all fun d => x.1.2 == 0 || s.framesFree d x.1.1 x.1.2)
      && k.framesOf.zipIdx.all fun y => x.2 == y.2 || apart x.1.1 x.1.2 y.1.1 y.1.2) = true := by
    simp only [State.placeOk, Bool.and_eq_true] at h
    simpa only [Bool.and_eq_true] using h.2
  simp only [Kernel.framesOf, List.zipIdx_cons, List.zipIdx_nil, List.all_cons, List.all_nil, Bool.and_eq_true, List.all_eq_true,
    Bool.or_eq_true, beq_iff_eq, apart, decide_eq_true_eq, Bool.and_true] at hall
  obtain ⟨⟨hcode, -, hcc, hcd⟩, ⟨hconst, -⟩, hdata, -⟩ := hall
  refine ⟨hframes _ _ (hcode d hd), hframes _ _ (hconst d hd), hframes _ _ (hdata d hd), ?_, ?_⟩
  · simpa [SectionsApart, or_assoc] using hcc
  · simpa [SectionsApart, or_assoc] using hcd

/-- A kernel's sections are placed on a die: frames for each, then their bytes. -/
def placeKernel (ctx : Nat) (k : Kernel) (code const data : List Byte) (s : State) (d : Nat) : State :=
  (((k.framesOf.foldl (fun s f => s.giveFrames ctx d f.1 f.2) s).write (hbmPA d (65536 * k.codeFrame)) code).write
    (hbmPA d (65536 * k.constFrame)) const).write (hbmPA d (65536 * k.dataFrame)) data

theorem prepared_placeKernel (ctx : Nat) (k : Kernel) (code const data : List Byte) (s : State) (d : Nat) :
    Prepared s (placeKernel ctx k code const data s d) :=
  (((Prepared.foldl (fun s (f : Nat × Nat) => prepared_giveFrames s ctx d f.1 f.2) k.framesOf s).trans
    (prepared_write _ _ code none)).trans (prepared_write _ _ const none)).trans (prepared_write _ _ data none)

section Placed

variable {ctx d : Nat} {k : Kernel} {code const data : List Byte}
  (hk : FramesFit k) (hcode : code.length = k.codeLen) (hconst : const.length = k.constLen) (hdata : data.length = k.dataLen)

theorem fills_section (s : State) {frame : Nat} {bs : List Byte} (h : SectionFits frame bs.length) :
    Fills s (s.write (hbmPA d (65536 * frame)) bs) (hbmPA d 0) (2 ^ 37) := by
  have hle := length_le_sectionFrames bs.length
  refine (fills_write s _ bs).mono ?_
  rcases h with h | h <;> simp only [hbmPA] <;> omega

theorem fills_frames (s : State) {frame len : Nat} (h : SectionFits frame len) :
    Fills s (s.giveFrames ctx d frame (sectionFrames len)) (hbmPA d 0) (2 ^ 37) := by
  refine (fills_giveFrames s ctx d _ _).mono ?_
  rcases h with h | h <;> simp only [hbmPA] <;> omega

include hk in
theorem fills_allFrames (s : State) :
    Fills s (k.framesOf.foldl (fun s f => s.giveFrames ctx d f.1 f.2) s) (hbmPA d 0) (2 ^ 37) :=
  ((fills_frames s hk.code).trans (fills_frames _ hk.const)).trans (fills_frames _ hk.data)

include hk hcode hconst hdata in
theorem fills_placeKernel (s : State) : Fills s (placeKernel ctx k code const data s d) (hbmPA d 0) (2 ^ 37) :=
  (((fills_allFrames hk s).trans (fills_section _ (hcode ▸ hk.code))).trans (fills_section _ (hconst ▸ hk.const))).trans
    (fills_section _ (hdata ▸ hk.data))

/-- A section apart from the one that is written reads as before. -/
theorem read_section_apart {s : State} (hs : s.wf = true) {f g len : Nat} {bs : List Byte} (h : SectionsApart f len g bs.length) :
    (s.write (hbmPA d (65536 * g)) bs).read (hbmPA d (65536 * f)) len = s.read (hbmPA d (65536 * f)) len := by
  have hle := length_le_sectionFrames bs.length
  have hle' := length_le_sectionFrames len
  rcases h with h | h
  · rw [show len = 0 by omega, read_zero, read_zero]
  · refine (fills_write s _ bs).read hs ?_
    rcases h with h | h | h <;> simp only [hbmPA] <;> omega

include hk hcode hconst hdata in
theorem read_placeKernel {s : State} (hs : s.wf = true) :
    (placeKernel ctx k code const data s d).read (hbmPA d (65536 * k.codeFrame)) code.length = code := by
  have h0 := (fills_allFrames (ctx := ctx) (d := d) hk s hs).1
  have h1 := (fills_write (k.framesOf.foldl (fun s f => s.giveFrames ctx d f.1 f.2) s) (hbmPA d (65536 * k.codeFrame)) code h0).1
  have h2 := (fills_write _ (hbmPA d (65536 * k.constFrame)) const h1).1
  rw [placeKernel, read_section_apart h2 (by rw [hcode, hdata]; exact hk.codeData),
    read_section_apart h1 (by rw [hcode, hconst]; exact hk.codeConst), read_write_self h0]

end Placed

/-- Dies of HBM do not meet. -/
theorem hbm_apart {d e c n : Nat} (h : d ≠ e) (hc : c + n ≤ 2 ^ 37) :
    hbmPA d c + n ≤ hbmPA e 0 ∨ hbmPA e 0 + 2 ^ 37 ≤ hbmPA d c := by
  unfold hbmPA
  rcases Nat.lt_or_gt_of_ne h with h | h
  · left; omega
  · right; omega

/-- Once a kernel's sections are placed on each die of a list, its code stands on each. -/
theorem read_placeKernels {ctx d : Nat} {k : Kernel} {code const data : List Byte} (hk : FramesFit k) (hcode : code.length = k.codeLen)
    (hconst : const.length = k.constLen) (hdata : data.length = k.dataLen) {l : List Nat} (hd : d ∈ l) {s : State} (hs : s.wf = true) :
    (l.foldl (placeKernel ctx k code const data) s).read (hbmPA d (65536 * k.codeFrame)) code.length = code := by
  have hfills (t : State) (e : Nat) := fills_placeKernel (ctx := ctx) (d := e) hk hcode hconst hdata t
  have hbound : 65536 * k.codeFrame + code.length ≤ 2 ^ 37 ∨ code.length = 0 := by
    have := length_le_sectionFrames k.codeLen
    rcases hk.code with h | h <;> omega
  refine (foldl_reaches (I := fun t => t.wf = true)
    (P := fun t => t.wf = true ∧ t.read (hbmPA d (65536 * k.codeFrame)) code.length = code) (fun t e _ ht => (hfills t e ht).1)
    (fun t ht => ⟨(hfills t d ht).1, read_placeKernel hk hcode hconst hdata ht⟩) (fun t e ht => ⟨(hfills t e ht.1).1, ?_⟩) hd hs).2
  by_cases he : d = e
  · exact he ▸ read_placeKernel hk hcode hconst hdata ht.1
  · rcases hbound with hb | hb
    · rw [(hfills t e).read ht.1 (.inr (hbm_apart he hb)), ht.2]
    · rw [List.length_eq_zero_iff.1 hb, List.length_nil, read_zero]

/-! ### KERNEL_LOAD (R207) -/

theorem patch_length (b : List Byte) (off : Nat) (v : List Byte) : (patch b off v).length = b.length := by
  unfold patch
  split
  · simp only [List.length_append, List.length_take, List.length_drop]; omega
  · rfl

theorem patches_length {α : Type} (f : α → Nat) (g : α → List Byte) (l : List α) (b : List Byte) :
    (l.foldl (fun b x => patch b (f x) (g x)) b).length = b.length := by
  induction l generalizing b with
  | nil => rfl
  | cons x l ih => rw [List.foldl_cons, ih, patch_length]

/-- Channels that the loader assigns change the contexts alone. -/
theorem assignChans_eq (ctx : Nat) (l : List ((Nat × Nat × Nat) × Nat)) (s : State) :
    ∃ ctxs, l.foldl (fun s x => s.assignChan ctx x.2 x.1.2.1 x.1.2.2) s = { s with ctxs := ctxs } := by
  induction l generalizing s with
  | nil => exact ⟨_, rfl⟩
  | cons x l ih =>
    obtain ⟨ctxs, h⟩ := ih (s.assignChan ctx x.2 x.1.2.1 x.1.2.2)
    exact ⟨ctxs, h⟩

/-- What an installation comes to: channels in the contexts, sections on every live die, and the kernel in its slot. -/
theorem install_eq (s : State) (ctx slot : Nat) (m : KImage) (k : Kernel) (idx : List Nat) :
    ∃ ctxs const, const.length = m.const.length ∧ s.install ctx slot m k idx =
      (s.liveDies.foldl (placeKernel ctx k m.code const m.data) { s with ctxs := ctxs }).modCtx ctx fun c =>
        { c with kernels := tblSet c.kernels slot k } := by
  obtain ⟨ctxs, h⟩ := assignChans_eq ctx (m.chans.zip idx) s
  refine ⟨ctxs, (m.chans.zip idx).foldl (fun b (x : (Nat × Nat × Nat) × Nat) =>
    patch b x.1.1 (natBytes 8 (({ s with ctxs := ctxs } : State).handleOf ctx x.2 x.2).toNat)) m.const, patches_length _ _ _ _, ?_⟩
  rw [State.install, h]
  rfl

theorem exec_kernelLoad {s : State} {w : List Word} {offsets frames idx : List Nat} {m : KImage} {slot : Nat}
    (h : s.command 0x11 = some w) (hst : Spec.ctxSt s (commandCtx w) = .loading)
    (hparse : parseImage (s.mrev.toNat % 256) (s.hostBytes (w.getD 1 0).toNat (w.getD 2 0).toNat) = some m) (hgroups : m.groups = [])
    (hidx : freeChans (s.ctx (commandCtx w)).chans m.chans.length = some idx) (hslot : slot < 64)
    (hfree : tblGet (s.ctx (commandCtx w)).kernels slot = none)
    (hlow : ∀ j < slot, tblGet (s.ctx (commandCtx w)).kernels j ≠ none)
    (hplace : s.placeOk (commandCtx w) (kernelOf m offsets frames) = true) :
    exec (.kernelLoad offsets frames) s =
      .next ((s.install (commandCtx w) slot m (kernelOf m offsets frames) idx).answer w (some slot) 0) := by
  have hst' : (s.ctx (commandCtx w)).st = .loading := hst
  have hfind : ((List.range 64).find? fun n => (tblGet (s.ctx (commandCtx w)).kernels n).isNone) = some slot :=
    List.find?_range_eq_some.2 ⟨by rw [hfree]; rfl, List.mem_range.2 hslot, fun j hj => by simpa [Option.ne_none_iff_isSome] using hlow j hj⟩
  have hrun : s.groupRun (commandCtx w) 0 = some 0 := rfl
  show execKernelLoad offsets frames s = _
  simp only [execKernelLoad, h, hst', bne_self_eq_false, Bool.false_eq_true, if_false, hparse, hfind, hidx, hgroups, List.length_nil, hrun,
    State.addGroups, hplace, if_true]

theorem kernelLoad_answered {s : State} {w : List Word} {offsets frames idx : List Nat} {m : KImage} {slot : Nat}
    (h : s.command 0x11 = some w) (hst : Spec.ctxSt s (commandCtx w) = .loading)
    (hparse : parseImage (s.mrev.toNat % 256) (s.hostBytes (w.getD 1 0).toNat (w.getD 2 0).toNat) = some m) (hgroups : m.groups = [])
    (hidx : freeChans (s.ctx (commandCtx w)).chans m.chans.length = some idx) (hslot : slot < 64)
    (hfree : tblGet (s.ctx (commandCtx w)).kernels slot = none)
    (hlow : ∀ j < slot, tblGet (s.ctx (commandCtx w)).kernels j ≠ none)
    (hplace : s.placeOk (commandCtx w) (kernelOf m offsets frames) = true) (hwf : s.wf = true) :
    ∃ t, exec (.kernelLoad offsets frames) s = .next t ∧
      tblGet (t.ctx (commandCtx w)).kernels slot = some (kernelOf m offsets frames) ∧ Spec.Answered s t w slot 3 0 ∧
      ∀ d ∈ s.liveDies, t.read (hbmPA d (65536 * (kernelOf m offsets frames).codeFrame)) m.code.length = m.code := by
  obtain ⟨ctxs, const, hconst, hinstall⟩ := install_eq s (commandCtx w) slot m (kernelOf m offsets frames) idx
  have hrest := Prepared.foldl (prepared_placeKernel (commandCtx w) (kernelOf m offsets frames) m.code const m.data) s.liveDies
    { s with ctxs := ctxs }
  refine ⟨_, exec_kernelLoad h hst hparse hgroups hidx hslot hfree hlow hplace, ?_, ?_, fun d hd => ?_⟩
  · rw [answer_ctx, hinstall, ctx_modCtx_self]
    exact tblGet_set_self _ _ _
  · rw [hinstall]
    exact answered_of_queues hrest.queues w (some slot) 0
  · rw [State.read, answer_mem, hinstall]
    exact read_placeKernels (s := { s with ctxs := ctxs }) (framesFit_of_placeOk hplace hd) rfl hconst rfl hd hwf

theorem kernelLoad_refused {s : State} {w : List Word} {offsets frames : List Nat} (h : s.command 0x11 = some w)
    (hst : Spec.ctxSt s (commandCtx w) = .loading)
    (hparse : parseImage (s.mrev.toNat % 256) (s.hostBytes (w.getD 1 0).toNat (w.getD 2 0).toNat) = none) :
    ∃ t, exec (.kernelLoad offsets frames) s = .next t ∧ Spec.Answered s t w (s.queue 0).accepted 4 28 := by
  have hst' : (s.ctx (commandCtx w)).st = .loading := hst
  refine ⟨_, ?_, answered_of_queues rfl w none 28⟩
  show execKernelLoad offsets frames s = _
  simp only [execKernelLoad, h, hst', bne_self_eq_false, Bool.false_eq_true, if_false, hparse]

theorem kernelLoad_not_loading {s : State} {w : List Word} {offsets frames : List Nat} (h : s.command 0x11 = some w)
    (hst : Spec.ctxSt s (commandCtx w) ≠ .loading) :
    ∃ t, exec (.kernelLoad offsets frames) s = .next t ∧ Spec.Answered s t w (s.queue 0).accepted 4 2 := by
  have hst' : ((s.ctx (commandCtx w)).st != .loading) = true := bne_iff_ne.2 hst
  refine ⟨_, ?_, answered_of_queues rfl w none 2⟩
  show execKernelLoad offsets frames s = _
  simp only [execKernelLoad, h, hst', if_true]

end Sys2Proof.Proofs.Context
end

section
/-! The family of contexts, sixth part: RESTORE (R183). -/

namespace Sys2Proof.Proofs.Context

open Sys2Proof Sys2Proof.Machine Sys2Proof.Proofs.Arithmetic

/-! ### The contents of an image at their places -/

theorem prepared_putRegion (s : State) (base n : Nat) (r : Region) : Prepared s (s.putRegion base n r) := ⟨rfl, rfl, rfl, rfl⟩

theorem prepared_shiftLeaves (die tab len k fuel : Nat) (s : State) (node count : Nat) :
    Prepared s (s.shiftLeaves die tab len k node count fuel) := by
  induction fuel generalizing s node count with
  | zero => exact .refl s
  | succ fuel ih =>
    rw [State.shiftLeaves]
    refine .foldl (fun t i => ?_) _ s
    dsimp only
    split
    · exact .refl t
    · split
      · exact prepared_write t _ _ none
      · exact ih t _ _

theorem prepared_moveSpill (s : State) (c : Ctx) (m : Image) (p q : Proc) : Prepared s (s.moveSpill c m p q) := by
  unfold State.moveSpill
  split
  · exact .refl s
  · exact prepared_putRegion s _ _ _

theorem prepared_modDie (s : State) (d : Nat) (f : Die → Die) : Prepared s (s.modDie d f) := ⟨rfl, rfl, rfl, rfl⟩

theorem prepared_modCore (s : State) (c : Nat) (f : Core → Core) : Prepared s (s.modCore c f) := ⟨rfl, rfl, rfl, rfl⟩

theorem prepared_modBar (s : State) (c b : Nat) (f : Barrier → Barrier) : Prepared s (s.modBar c b f) := prepared_modCore s c _

theorem prepared_installRest (s : State) (ctx k : Nat) (m : Image) (at_ : Nat → Nat) (kids : List Proc) :
    Prepared s (s.installRest ctx k m at_ kids) := by
  refine Prepared.trans ?_ (.foldl (fun t x => prepared_modCore t _ _) _ _)
  refine Prepared.trans ?_ (.foldl (fun t x => prepared_modCore t _ _) _ _)
  exact ⟨rfl, rfl, rfl, rfl⟩

/-- The processes of an image join the table, under numbers beyond those in use. -/
def seatProcs (k : Nat) (m : Image) (ps : List (Nat × Proc × Proc)) (u : State) : State :=
  (ps.filter fun x => x.1 < m.seq).foldl
    (fun s x => { s with procs := tblSet s.procs (moveId k x.1) (x.2.2.onDevice m.dev s.devId) }) u

theorem seatProcs_eq (k : Nat) (m : Image) (ps : List (Nat × Proc × Proc)) (u : State) :
    ∃ procs, seatProcs k m ps u = { u with procs := procs } := by
  unfold seatProcs
  generalize ps.filter _ = l
  induction l generalizing u with
  | nil => exact ⟨_, rfl⟩
  | cons x l ih =>
    obtain ⟨procs, h⟩ := ih { u with procs := tblSet u.procs (moveId k x.1) (x.2.2.onDevice m.dev u.devId) }
    exact ⟨procs, h⟩

theorem proc_seatProcs_one (k : Nat) (m : Image) {x : Nat × Proc × Proc} (h : x.1 < m.seq) (u : State) :
    (seatProcs k m [x] u).proc (moveId k x.1) = some (x.2.2.onDevice m.dev u.devId) := by
  rw [seatProcs, List.filter_cons_of_pos (by simpa using h)]
  exact tblGet_set_self _ _ _

/-- An image that is installed gives the context its values, prepares memory, and seats its processes. -/
theorem installImage_eq (s : State) (ctx : Nat) (m : Image) (table : List Nat) (tb sb : Nat) (sh : List (Nat × Nat))
    (tabs : List (Nat × Nat × Nat)) (ps : List (Nat × Proc × Proc)) : ∃ c u, (c.st = .suspended ∧ c.tbase = tb ∧ c.sbase = sb ∧
      c.tlen = m.ctx.tlen) ∧ Prepared { s with ctxs := tblSet s.ctxs ctx c } u ∧
      Prepared (seatProcs s.seq m ps u) (s.installImage ctx m table tb sb sh tabs ps) := by
  apply Exists.intro
  apply Exists.intro
  refine ⟨?values, ?prepared, prepared_installRest ..⟩
  case prepared =>
    refine Prepared.trans (Prepared.trans (Prepared.trans (Prepared.trans (Prepared.trans (Prepared.trans ?fresh
      (.foldl (fun t r => prepared_putRegion t _ _ _) _ _)) (.foldl (fun t x => ?leaves) _ _))
      (.foldl (fun t d => prepared_modDie t _ _) _ _)) (.foldl (fun t x => prepared_moveSpill t _ _ _ _) _ _))
      (.foldl (fun t b => prepared_modBar t _ _ _) _ _)) ⟨rfl, rfl, rfl, rfl⟩
    case fresh => exact ⟨rfl, rfl, rfl, rfl⟩
    case leaves =>
      split
      · exact prepared_shiftLeaves _ _ _ _ _ t _ _
      · exact .refl t
  case values => exact ⟨rfl, rfl, rfl, rfl⟩

/-! ### The command -/

/-- The context die table in host memory that word 2 of a command names. -/
def dieTableOf (s : State) (w : List Word) : List Nat := (s.hostBytes (w.getD 2 0).toNat 8).map (·.toNat)

theorem exec_restore {s : State} {w : List Word} {accepts : Bool} {tb sb : Nat} {m : Image} {sh : List (Nat × Nat)}
    {tabs : List (Nat × Nat × Nat)} {ps : List (Nat × Proc × Proc)} (h : s.command 0x16 = some w)
    (himage : tblGet s.images (w.getD 1 0).toNat = some m)
    (hr : Spec.Restorable s (commandCtx w) (w.getD 1 0).toNat accepts tb sb m (dieTableOf s w) sh tabs ps) :
    exec (.restore accepts [tb, sb]) s =
      .next ((s.installImage (commandCtx w) m (dieTableOf s w) tb sb sh tabs ps).answer w none 0) := by
  obtain ⟨hst, hctx, haccepts, hmrev, hheader, hscratch, hdies, hgapt, hgaps, htb, hsb, hfitt, hfits, htabs, hsh, hps, hbars, htasks⟩ := hr
  have hst' : (s.ctx (commandCtx w)).st = .empty := hst
  have hall : ((List.range 8).all fun i => if m.dies.contains i then s.dieLive ((dieTableOf s w).getD i 255) else
      (dieTableOf s w).getD i 255 == 255) = true := by
    refine List.all_eq_true.2 fun i hi => ?_
    have := hdies i (List.mem_range.1 hi)
    split at this
    · next hc => rw [if_pos hc]; exact this
    · next hc => rw [if_neg hc]; exact beq_iff_eq.2 this
  have haccept : (decide (m.fwrev = (tblGetD s.map 1 0).toNat / 2 ^ 32) || accepts) = true := by simpa using haccepts
  show execRestore accepts [tb, sb] s = _
  simp only [dieTableOf] at *
  simp only [execRestore, h, hst', himage, bne_self_eq_false, not_le.2 hctx, decide_false, Bool.or_self, Bool.false_eq_true, if_false,
    haccept, hheader, hmrev, hall, hscratch, hgapt, hgaps, List.getD_cons_zero, List.getD_cons_succ, htb, hsb, hfitt, hfits,
    Bool.not_true, htabs, hsh, hps, hbars, htasks]

theorem restore_answered {s : State} {w : List Word} {accepts : Bool} {tb sb : Nat} {m : Image} {sh : List (Nat × Nat)}
    {tabs : List (Nat × Nat × Nat)} {ps : List (Nat × Proc × Proc)} (h : s.command 0x16 = some w)
    (himage : tblGet s.images (w.getD 1 0).toNat = some m)
    (hr : Spec.Restorable s (commandCtx w) (w.getD 1 0).toNat accepts tb sb m (dieTableOf s w) sh tabs ps) :
    ∃ t, exec (.restore accepts [tb, sb]) s = .next t ∧ Spec.ctxSt t (commandCtx w) = .suspended ∧ (t.ctx (commandCtx w)).tbase = tb ∧
      (t.ctx (commandCtx w)).sbase = sb ∧ (t.ctx (commandCtx w)).tlen = m.ctx.tlen ∧ (∀ x, ps = [x] → x.1 < m.seq →
        t.proc (moveId s.seq x.1) = some (x.2.2.onDevice m.dev s.devId)) ∧ Spec.Answered s t w (s.queue 0).accepted 3 0 := by
  obtain ⟨c, u, ⟨hst, htb, hsb, htlen⟩, hu, hrest⟩ := installImage_eq s (commandCtx w) m (dieTableOf s w) tb sb sh tabs ps
  obtain ⟨procs, hseat⟩ := seatProcs_eq s.seq m ps u
  have hctx : ((s.installImage (commandCtx w) m (dieTableOf s w) tb sb sh tabs ps).answer w none 0).ctx (commandCtx w) = c := by
    rw [answer_ctx, hrest.ctx, hseat]
    exact (hu.ctx _).trans (tblGetD_set_self _ _ _ _)
  have hqueues : (s.installImage (commandCtx w) m (dieTableOf s w) tb sb sh tabs ps).queues = s.queues := by
    rw [hrest.queues, hseat]
    exact hu.queues
  refine ⟨_, exec_restore h himage hr, by rw [Spec.ctxSt, hctx, hst], by rw [hctx, htb], by rw [hctx, hsb], by rw [hctx, htlen],
    fun x hx hlt => ?_, answered_of_queues hqueues w none 0⟩
  rw [answer_proc, State.proc, hrest.procs, ← State.proc, hx, proc_seatProcs_one _ _ hlt, hu.devId]

theorem restore_without_image {s : State} {w : List Word} {accepts : Bool} {tb sb : Nat} (h : s.command 0x16 = some w)
    (hst : Spec.ctxSt s (commandCtx w) = .empty) (hctx : commandCtx w < 64) (himage : tblGet s.images (w.getD 1 0).toNat = none) :
    ∃ t, exec (.restore accepts [tb, sb]) s = .next t ∧ Spec.Answered s t w (s.queue 0).accepted 4 51 := by
  refine ⟨_, ?_, answered_of_queues rfl w none 51⟩
  show execRestore accepts [tb, sb] s = _
  have hst' : (s.ctx (commandCtx w)).st = .empty := hst
  simp only [execRestore, h, hst', himage, bne_self_eq_false, not_le.2 hctx, decide_false, Bool.or_self, Bool.false_eq_true, if_false]

end Sys2Proof.Proofs.Context
end

section
/-! The family of contexts, seventh part: what the end of a packet and the close of a channel leave of contexts, queues and
stopped processes (R242, R248). -/

namespace Sys2Proof.Proofs.Context

open Sys2Proof Sys2Proof.Machine Sys2Proof.Proofs.Arithmetic

/-! ### Effects that stop and start nothing of a context -/

/-- From `s` to `t` the host's queues and the states of contexts stay, and so does every process; one that is STOPPED stays so. -/
structure Calm (s t : State) : Prop where
  queues : t.queues = s.queues
  st : ∀ n, (t.ctx n).st = (s.ctx n).st
  proc : ∀ n p, s.proc n = some p → ∃ q, t.proc n = some q ∧ (p.st = .stopped → q.st = .stopped)

namespace Calm

theorem refl (s : State) : Calm s s := ⟨rfl, fun _ => rfl, fun _ p hp => ⟨p, hp, id⟩⟩

theorem trans {s t u : State} (h : Calm s t) (h' : Calm t u) : Calm s u where
  queues := h'.queues.trans h.queues
  st := fun n => (h'.st n).trans (h.st n)
  proc := fun n p hp => by
    obtain ⟨q, hq, hstop⟩ := h.proc n p hp
    obtain ⟨r, hr, hstop'⟩ := h'.proc n q hq
    exact ⟨r, hr, fun hst => hstop' (hstop hst)⟩

/-- The composition of `trans`, the later effect first. -/
theorem after {s t u : State} (h' : Calm t u) (h : Calm s t) : Calm s u := h.trans h'

theorem foldl {α : Type} {f : State → α → State} (hf : ∀ s a, Calm s (f s a)) (l : List α) (s : State) : Calm s (l.foldl f s) := by
  induction l generalizing s with
  | nil => exact refl s
  | cons a l ih => exact (hf s a).trans (ih _)

theorem ite {c : Prop} [Decidable c] {s t u : State} (ht : Calm s t) (hu : Calm s u) : Calm s (if c then t else u) := by
  split
  · exact ht
  · exact hu

end Calm

theorem calm_of_eq {s t : State} (hq : t.queues = s.queues) (hc : t.ctxs = s.ctxs) (hp : t.procs = s.procs) : Calm s t :=
  ⟨hq, fun n => by rw [State.ctx, hc, State.ctx], fun n p h => ⟨p, by rw [State.proc, hp]; exact h, id⟩⟩

theorem calm_modCtx (s : State) (n : Nat) {f : Ctx → Ctx} (hf : ∀ c, (f c).st = c.st) : Calm s (s.modCtx n f) :=
  ⟨rfl, fun m => by
    rw [ctx_modCtx]
    split
    · subst m; exact hf _
    · rfl, fun _ p hp => ⟨p, hp, id⟩⟩

theorem calm_modEnd (s : State) (n i : Nat) (f : ChanEnd → ChanEnd) : Calm s (s.modEnd n i f) := calm_modCtx s n fun _ => rfl

theorem calm_dirtyDie (s : State) (n die : Nat) : Calm s (s.dirtyDie n die) := calm_modCtx s n fun _ => rfl

theorem calm_modProc (s : State) (pid : Nat) {f : Proc → Proc} (hf : ∀ p, (f p).st = p.st) : Calm s (s.modProc pid f) :=
  ⟨rfl, fun _ => rfl, fun n p hp => by
    by_cases hn : n = pid
    · subst n; exact ⟨_, proc_modProc_self hp f, fun h => (hf p).trans h⟩
    · exact ⟨p, (proc_modProc_ne s f hn).trans hp, id⟩⟩

theorem calm_modDie (s : State) (die : Nat) (f : Die → Die) : Calm s (s.modDie die f) := calm_of_eq rfl rfl rfl

/-! ### Processes that wake -/

theorem calm_wake (s : State) (pid : Nat) : Calm s (s.wake pid) where
  queues := (rescheduled_wake s pid).queues
  st := (rescheduled_wake s pid).st
  proc := fun n p hp => by
    by_cases hn : n = pid
    · subst n
      by_cases hst : p.st.isParked = true
      · obtain ⟨q, hq, -⟩ := (woken_wake s pid).some hp
        exact ⟨q, hq, fun h => by rw [h] at hst; cases hst⟩
      · exact ⟨p, by simp only [State.wake, hp, hst, Bool.false_eq_true, if_false], id⟩
    · exact ⟨p, (proc_wake_ne s hn).trans hp, id⟩

theorem calm_wakeWith (s : State) (pid : Nat) (f : FaultInfo) : Calm s (s.wakeWith pid f) :=
  (calm_wake _ pid).after (calm_modProc s pid fun _ => rfl)

theorem calm_recheck (s : State) (pid : Nat) : Calm s (s.recheck pid) := by
  unfold State.recheck
  split
  · split
    · split
      · exact calm_wake s pid
      · exact .refl s
    · exact .refl s
  · exact .refl s

theorem st_land (p : Proc) (r : RName) (v : Word) : (p.land r v).st = p.st := by
  cases r with
  | w n => rfl
  | g i => rfl
  | a i => rfl
  | p i =>
    simp only [Proc.land, Proc.wr, Proc.put, Proc.setFull]
    split <;> rfl

theorem calm_landReg (s : State) (pid : Nat) (r : Option RName) (v : Word) : Calm s (s.landReg pid r v) := by
  unfold State.landReg
  split
  · exact .refl s
  · exact (calm_modProc s pid fun p => st_land p _ v).trans (calm_recheck _ pid)

theorem calm_recordDelayed (s : State) (pid : Nat) (f : FaultInfo) : Calm s (s.recordDelayed pid f) :=
  calm_modProc s pid fun p => by
    split
    · rfl
    · split <;> rfl

theorem calm_endCopy (s : State) (pid : Nat) (dest : Option RName) (cause bytes : Nat) : Calm s (s.endCopy pid dest cause bytes) :=
  (calm_recheck _ pid).after ((calm_landReg _ pid dest _).after (calm_modProc s pid fun _ => rfl))

theorem calm_endTile (s : State) (pid tok cause bytes : Nat) : Calm s (s.endTile pid tok cause bytes) := by
  unfold State.endTile
  split
  · exact .refl s
  · next o _ =>
    have hend : Calm s ((s.modProc pid fun p => { p with ops := tblErase p.ops tok }).endCopy pid o.dest cause bytes) :=
      (calm_endCopy _ pid o.dest cause bytes).after (calm_modProc s pid fun _ => rfl)
    dsimp only
    split
    · exact hend.trans (calm_recordDelayed _ pid _)
    · exact hend

theorem calm_wakeChan (s : State) (pid ticket : Nat) : Calm s (s.wakeChan pid ticket) := by
  unfold State.wakeChan
  split
  · split
    · split
      · exact calm_wake s pid
      · exact .refl s
    · exact .refl s
  · exact .refl s

/-! ### The fate of a message (R245, R248) -/

theorem calm_recordFate (s : State) (ticket cause : Nat) : Calm s (s.recordFate ticket cause) := by
  unfold State.recordFate
  split
  · exact .refl s
  · exact calm_of_eq rfl rfl rfl

theorem calm_told (s : State) (ticket cause bytes : Nat) : Calm s (s.told ticket cause bytes) := by
  unfold State.told
  split
  · exact calm_endTile s _ ticket cause bytes
  · exact calm_recordFate s ticket cause

theorem calm_outbound (s : State) (die : Nat) (m : OutMsg) : Calm s (s.outbound die m).2 := calm_of_eq rfl rfl rfl

theorem calm_fate (s : State) (ctx i : Nat) (m : Msg) (cause bytes : Nat) : Calm s (s.fate ctx i m cause bytes) := by
  unfold State.fate
  dsimp only
  generalize m.link.filter _ = link
  split
  · exact calm_outbound s _ _
  · split
    · exact calm_told s m.ticket cause bytes
    · split
      · split
        · exact .refl s
        · exact calm_endTile s m.pid _ cause bytes
      · refine Calm.trans ?_ (calm_wakeChan _ _ m.ticket)
        split
        · exact .refl s
        · exact calm_endCopy s _ _ cause 0
      · split
        · exact calm_wakeWith s m.pid _
        · split
          · split
            · split
              · exact (calm_wake _ m.pid).after (calm_modProc s m.pid fun _ => rfl)
              · exact .refl s
            · exact .refl s
          · exact .refl s

theorem calm_accept (s : State) (ctx i : Nat) (m : Msg) : Calm s (s.accept ctx i m) := by
  have hdirty := calm_dirtyDie s ctx (s.endDie ctx i)
  unfold State.accept
  dsimp only
  split
  · exact hdirty
  · exact hdirty.trans (calm_fate _ ctx i m 0 0)

/-! ### What waits at a receive end (R242, R246, R247) -/

theorem calm_handParts (s : State) (pid i : Nat) (parts : List (List Byte)) : Calm s (s.handParts pid i parts) :=
  calm_modProc s pid fun _ => rfl

theorem calm_landParts (pid : Nat) (ds : List (Option RName × Option RName)) (s : State) (parts : List (List Byte)) :
    Calm s (s.landParts pid ds parts) := by
  induction ds generalizing s parts with
  | nil => exact .refl s
  | cons d ds ih =>
    cases parts with
    | nil => exact .refl s
    | cons b bs => exact ((calm_landReg s pid d.1 _).trans (calm_landReg _ pid d.2 _)).trans (ih _ bs)

theorem calm_deliverParts (s : State) (ctx i : Nat) (r : Rcv) (parts : List (List Byte)) : Calm s (s.deliverParts ctx i r parts) := by
  have hdirty := calm_dirtyDie s ctx (s.endDie ctx i)
  unfold State.deliverParts
  dsimp only
  split
  · exact (hdirty.trans (calm_handParts _ r.pid i parts)).trans (calm_wake _ r.pid)
  · have hlanded := (hdirty.trans (calm_landParts r.pid r.async _ parts)).trans (calm_handParts _ r.pid i (parts.drop r.async.length))
    have hend (f : ChanEnd → ChanEnd) := hlanded.trans (calm_modEnd _ ctx i f)
    split
    · split
      · split
        · exact (calm_wake _ r.pid).after (hend _)
        · exact hend _
      · exact hend _
    · exact hend _

theorem calm_startTile (s : State) (ctx i : Nat) (m : Msg) (t : TileEnd) (to_ : Option (Nat × TileEnd)) :
    Calm s (s.startTile ctx i m t to_) :=
  (calm_dirtyDie s ctx (s.endDie ctx i)).trans (calm_of_eq rfl rfl rfl)

theorem calm_matchMsg (s : State) (ctx i : Nat) (m : Msg) (r : Rcv) : Calm s (s.matchMsg ctx i m r) := by
  unfold State.matchMsg
  split
  · exact calm_startTile s ctx i m _ _
  · split
    · exact calm_deliverParts s ctx i r m.parts
    · have hend := calm_modEnd s ctx i fun e => { e with matched := e.matched ++ [(m, r)] }
      dsimp only
      split
      · split
        · exact hend.trans (calm_wake _ r.pid)
        · exact hend
      · exact hend

theorem calm_endRcv (s : State) (cause : Nat) (r : Rcv) : Calm s (s.endRcv cause r) := by
  unfold State.endRcv
  split
  · exact calm_endTile s r.pid _ cause 0
  · split
    · exact calm_wakeWith s r.pid _
    · exact .refl s

theorem calm_enterPlace (s : State) (ctx i : Nat) (m : Msg) (put : Msg → ChanEnd → ChanEnd) : Calm s (s.enterPlace ctx i m put) := by
  have hput := calm_modEnd s ctx i (put { m with closed := m.closed && m.tile.isNone })
  unfold State.enterPlace
  refine Calm.trans ?_ (calm_accept _ ctx i m)
  split
  · exact hput.trans (calm_startTile _ ctx i m _ none)
  · exact hput

theorem calm_serveEnd (ctx i fuel : Nat) (s : State) : Calm s (s.serveEnd ctx i fuel) := by
  induction fuel generalizing s with
  | zero => exact .refl s
  | succ fuel ih =>
    rw [State.serveEnd]
    split
    · exact .refl s
    · split
      · split
        · exact .refl s
        · split
          · exact (((calm_modEnd s ctx i _).trans (calm_matchMsg _ ctx i _ _)).trans (calm_accept _ ctx i _)).trans (ih _)
          · exact ((calm_modEnd s ctx i _).trans (calm_endRcv _ 29 _)).trans (ih _)
      · split
        · split
          · exact (calm_enterPlace s ctx i _ _).trans (ih _)
          · exact .refl s
        · split
          · split
            · exact .refl s
            · split
              · exact ((calm_modEnd s ctx i _).trans (calm_matchMsg _ ctx i _ _)).trans (ih _)
              · exact ((calm_modEnd s ctx i _).trans (calm_endRcv _ 29 _)).trans (ih _)
          · exact .refl s

theorem calm_serveChan (s : State) (ctx i : Nat) : Calm s (s.serveChan ctx i) := calm_serveEnd ctx i _ s

theorem calm_rebindAgain (s : State) (ctx i : Nat) : Calm s (s.rebindAgain ctx i) := by
  unfold State.rebindAgain
  refine Calm.trans ?_ (.foldl calm_wake _ _)
  split
  · exact (calm_modEnd s ctx i _).trans (.foldl (fun t r => calm_endRcv t 30 r) _ _)
  · exact .refl s

theorem calm_wakeAwaiting (s : State) (ticket : Nat) : Calm s (s.wakeAwaiting ticket) := by
  refine .foldl (fun t x => ?_) s.procs s
  split
  · split
    · exact calm_wake t x.1
    · exact .refl t
  · exact .refl t

theorem calm_dropPlace (s : State) (ctx i ticket : Nat) : Calm s (s.dropPlace ctx i ticket) :=
  (((calm_modEnd s ctx i _).trans (calm_serveChan _ ctx i)).trans (calm_rebindAgain _ ctx i)).trans (calm_wakeAwaiting _ ticket)

/-! ### Memory servers (R252) -/

theorem calm_serverPacket (s : State) (die srv ticket : Nat) (parts : List (List Byte)) : Calm s (s.serverPacket die srv ticket parts) := by
  unfold State.serverPacket
  dsimp only
  split
  · exact .refl s
  · split <;> exact calm_of_eq rfl rfl rfl

theorem calm_arriveServer (s : State) (ctx i : Nat) (m : Msg) : Calm s (s.arriveServer ctx i m).1 := by
  have htold (die : Nat) (f : Die → Die) := (calm_modDie s die f).trans (calm_fate _ ctx i m 0 0)
  unfold State.arriveServer
  dsimp only
  split
  · exact .refl s
  · split
    · exact calm_modEnd s ctx i fun e => { e with sends := e.sends ++ [m] }
    · split
      · exact htold _ _
      · split
        · exact (calm_serverPacket _ _ _ _ _).after (htold _ _)
        · exact htold _ _

theorem calm_serveServer (die srv fuel : Nat) (s : State) : Calm s (s.serveServer die srv fuel) := by
  induction fuel generalizing s with
  | zero => exact .refl s
  | succ fuel ih =>
    rw [State.serveServer]
    split
    · exact .refl s
    · split
      · exact .refl s
      · exact ((calm_modEnd s _ _ _).trans (calm_arriveServer _ _ _ _)).trans (ih _)

theorem calm_dropServer (s : State) (die srv ticket : Nat) : Calm s (s.dropServer die srv ticket) :=
  (calm_serveServer die srv 64 _).after (calm_modDie s die _)

/-! ### Processes that stop (R233, R242) -/

theorem calm_countSent (s : State) (ctx die : Nat) : Calm s (s.countSent ctx die) :=
  (calm_dirtyDie _ ctx die).after (calm_modCtx s ctx fun _ => rfl)

theorem calm_sendDrop (s : State) (ctx i die rank pid ticket : Nat) : Calm s (s.sendDrop ctx i die rank pid ticket) :=
  (calm_countSent _ ctx die).after ((calm_outbound _ die _).after (calm_of_eq rfl rfl rfl))

theorem calm_abortPacket (s : State) (pid : Nat) : Calm s (s.abortPacket pid) := by
  unfold State.abortPacket
  split
  · exact .refl s
  · split
    · exact .refl s
    · have hclosed := calm_modProc s pid (f := fun p => { p with packet := none }) fun _ => rfl
      dsimp only
      split
      · exact hclosed.trans (calm_sendDrop _ _ _ _ _ _ _)
      · split
        · exact hclosed.trans (calm_dropServer _ _ _ _)
        · exact hclosed.trans (calm_dropPlace _ _ _ _)

theorem calm_enter_stopped (s : State) (pid : Nat) : Calm s (s.enter pid .stopped) :=
  ⟨rfl, fun _ => rfl, fun n p hp => by
    by_cases hn : n = pid
    · subst n; exact ⟨_, Encoding.enter_proc_self hp .stopped, fun _ => rfl⟩
    · exact ⟨p, (Encoding.enter_proc_ne hn .stopped).trans hp, id⟩⟩

theorem calm_stopProc (s : State) (pid : Nat) : Calm s (s.stopProc pid) := by
  unfold State.stopProc
  split
  · exact .refl s
  · next p _ =>
    have hleft := (calm_abortPacket s pid).trans
      (calm_of_eq (t := ((s.abortPacket pid).leaveSlot pid p.core).unready pid p.core) rfl rfl rfl)
    exact (hleft.trans (calm_enter_stopped _ pid)).trans (calm_modCtx _ p.ctx fun _ => rfl)

/-- A process that stops is STOPPED. -/
theorem stopProc_stopped {s : State} {pid : Nat} {p : Proc} (hp : s.proc pid = some p) :
    ∃ q, (s.stopProc pid).proc pid = some q ∧ q.st = .stopped := by
  obtain ⟨q, hq, -⟩ := (calm_abortPacket s pid).proc pid p hp
  have hstop : (s.stopProc pid).proc pid = ((((s.abortPacket pid).leaveSlot pid p.core).unready pid p.core).enter pid .stopped).proc pid := by
    simp only [State.stopProc, hp]
    rfl
  exact ⟨_, hstop.trans (Encoding.enter_proc_self (s := ((s.abortPacket pid).leaveSlot pid p.core).unready pid p.core) hq .stopped), rfl⟩

/-! ### Channels that close (R248) -/

theorem calm_refuseOut (s : State) (ctx i cause pid ticket : Nat) : Calm s (s.refuseOut ctx i cause pid ticket) := by
  unfold State.refuseOut
  split
  · exact (calm_fate _ ctx i _ cause 0).after (calm_of_eq rfl rfl rfl)
  · exact .refl s

theorem calm_refuseWaiting (s : State) (ctx i cause : Nat) : Calm s (s.refuseWaiting ctx i cause) := by
  refine .foldl (fun t x => ?_) _ s
  have hops := Calm.foldl (fun t (o : Nat × Op) => calm_refuseOut t ctx i cause x.1 o.1)
    (x.2.ops.filter fun o => o.2.kind == .other && hType o.2.ea == 2 && hIndex o.2.ea == i) t
  dsimp only
  split
  · split
    · exact hops.trans (calm_refuseOut _ ctx i cause x.1 _)
    · exact hops
  · exact hops

/-- Receives of a closed channel with no message left end. -/
theorem calm_lastRcvs {s t : State} (h : Calm s t) (ctx i cause : Nat) : Calm s (if (t.chanEnd ctx i).held.isEmpty then
    (t.chanEnd ctx i).rcvs.foldl (State.endRcv · cause) (t.modEnd ctx i fun e => { e with rcvs := [] }) else t) := by
  split
  · exact (Calm.foldl (fun u r => calm_endRcv u cause r) _ _).after ((calm_modEnd t ctx i _).after h)
  · exact h

/-- A channel that closes, and the sends at its end refused. -/
def closedSends (s : State) (ctx i cause : Nat) : State :=
  (s.chanEnd ctx i).sends.foldl (fun s m => s.fate ctx i m cause 0)
    ((s.modCtx ctx fun c => { c with chans := tblMod c.chans i fun h => { h with closed := true } }).modEnd ctx i
      fun e => { e.release fun _ => true with sends := [] })

/-- The sends that wait for a server or a queue pair are refused too, and the context's other modules are told. -/
def closedOut (s : State) (ctx i cause : Nat) : State :=
  let ch := s.chan ctx i
  let t := if ch.kind = 3 || ch.kind = 5 then (closedSends s ctx i cause).refuseWaiting ctx i cause else closedSends s ctx i cause
  if (t.ctx ctx).peers.isEmpty || !(ch.kind = 1 || ch.kind = 2) then t
  else { t with closesOut := t.closesOut ++ [(ctx, i, ch.target % 2 ^ 32)] }

theorem closeChan_eq (s : State) (ctx i cause : Nat) :
    let t := (closedOut s ctx i cause).serveChan ctx i
    s.closeChan ctx i cause = if (t.chanEnd ctx i).held.isEmpty then
      (t.chanEnd ctx i).rcvs.foldl (State.endRcv · cause) (t.modEnd ctx i fun e => { e with rcvs := [] }) else t := rfl

theorem calm_closedSends (s : State) (ctx i cause : Nat) : Calm s (closedSends s ctx i cause) :=
  (Calm.foldl (fun u m => calm_fate u ctx i m cause 0) (s.chanEnd ctx i).sends _).after
    ((calm_modEnd _ ctx i _).after (calm_modCtx s ctx fun _ => rfl))

theorem calm_closedOut (s : State) (ctx i cause : Nat) : Calm s (closedOut s ctx i cause) := by
  have hsends := calm_closedSends s ctx i cause
  have hwaits : Calm s (if (s.chan ctx i).kind = 3 || (s.chan ctx i).kind = 5 then
      (closedSends s ctx i cause).refuseWaiting ctx i cause else closedSends s ctx i cause) :=
    .ite (hsends.trans (calm_refuseWaiting _ ctx i cause)) hsends
  exact .ite hwaits (hwaits.trans (calm_of_eq rfl rfl rfl))

theorem calm_closeChan (s : State) (ctx i cause : Nat) : Calm s (s.closeChan ctx i cause) := by
  rw [closeChan_eq]
  exact calm_lastRcvs ((calm_closedOut s ctx i cause).trans (calm_serveChan _ ctx i)) ctx i cause

end Sys2Proof.Proofs.Context
end

section
/-! The family of contexts, eighth part: DESTROY, and the management commands together (R184, O49). -/

namespace Sys2Proof.Proofs.Context

open Sys2Proof Sys2Proof.Machine Sys2Proof.Proofs.Arithmetic

/-! ### DESTROY (R184) -/

/-- The process without the faults that it has still to take. -/
def faultless (p : Proc) : Proc := { p with delayed := [], overflow := none, held := none, wakeFault := none, firm := [] }

/-- A process of a context that is destroyed leaves its waits, and stops. -/
def endProc (s : State) (pid : Nat) : State := ((s.leaveWords pid).modProc pid faultless).stopProc pid

theorem calm_endProc (s : State) (pid : Nat) : Calm s (endProc s pid) :=
  ((calm_of_eq (s := s) (t := s.leaveWords pid) rfl rfl rfl).trans (calm_modProc _ pid (f := faultless) fun _ => rfl)).trans
    (calm_stopProc _ pid)

/-- The process is there, and STOPPED. -/
def Stopped (pid : Nat) (t : State) : Prop := ∃ q, t.proc pid = some q ∧ q.st = .stopped

theorem Calm.stopped {s t : State} {pid : Nat} (h : Calm s t) (hs : Stopped pid s) : Stopped pid t := by
  obtain ⟨p, hp, hst⟩ := hs
  obtain ⟨q, hq, hstop⟩ := h.proc pid p hp
  exact ⟨q, hq, hstop hst⟩

theorem endProc_stopped {s : State} {pid : Nat} {p : Proc} (hp : s.proc pid = some p) : Stopped pid (endProc s pid) :=
  stopProc_stopped (proc_modProc_self (s := s.leaveWords pid) hp _)

/-- The processes of a context that have not stopped. -/
def alivePids (s : State) (ctx : Nat) : List Nat := (s.procs.filter fun e => e.2.ctx == ctx && e.2.st != .stopped).map (·.1)

/-- The context DRAINING, without the FORKRs of its processes. -/
def drainingCtx (s : State) (ctx : Nat) : State :=
  { s.modCtx ctx fun c => { c with st := .draining } with forks := s.forks.filter fun f => !(alivePids s ctx).contains f.pid }

/-- The context DRAINING, its processes stopped. -/
def stoppedCtx (s : State) (ctx : Nat) : State := (alivePids s ctx).foldl endProc (drainingCtx s ctx)

/-- An assigned channel of a context that is destroyed closes. -/
def closeAssigned (ctx : Nat) (s : State) (c : Nat × Chan) : State := if c.2.assigned then s.closeChan ctx c.1 34 else s

/-- The context DRAINING, its processes stopped and its channels closed. -/
def closedCtx (s : State) (ctx : Nat) : State :=
  ((stoppedCtx s ctx).ctx ctx).chans.foldl (closeAssigned ctx) (stoppedCtx s ctx)

theorem destroyCtx_eq (s : State) (ctx : Nat) : s.destroyCtx ctx =
    ((closedCtx s ctx).queues.filter fun q => q.1 != 0 && q.2.en && q.2.ctx == ctx).foldl (fun s q => s.closeQueue q.1)
      (closedCtx s ctx) := rfl

theorem calm_stoppedCtx (s : State) (ctx : Nat) : Calm (drainingCtx s ctx) (stoppedCtx s ctx) := .foldl calm_endProc _ _

theorem calm_closedCtx (s : State) (ctx : Nat) : Calm (stoppedCtx s ctx) (closedCtx s ctx) :=
  .foldl (f := closeAssigned ctx) (fun t c => .ite (calm_closeChan t ctx c.1 34) (.refl t)) _ _

theorem stoppedCtx_stopped {s : State} {ctx pid : Nat} {p : Proc} (hp : s.proc pid = some p) (hc : p.ctx = ctx) :
    Stopped pid (stoppedCtx s ctx) := by
  by_cases hst : p.st = .stopped
  · exact (calm_stoppedCtx s ctx).stopped ⟨p, hp, hst⟩
  · refine foldl_reaches (I := fun t => ∃ q, t.proc pid = some q) (fun t b _ ht => ?_) (fun t ht => ?_)
      (fun t b ht => (calm_endProc t b).stopped ht) (mem_pids hp (by simp [hc, hst])) ⟨p, hp⟩
    · obtain ⟨q, hq⟩ := ht
      obtain ⟨r, hr, -⟩ := (calm_endProc t b).proc pid q hq
      exact ⟨r, hr⟩
    · obtain ⟨q, hq⟩ := ht
      exact endProc_stopped hq

/-- Queues other than 0 that close change the queues alone, and not queue 0. -/
theorem closeQueues_eq (l : List (Nat × HQueue)) (s : State) (h : ∀ q ∈ l, q.1 ≠ 0) :
    ∃ queues, l.foldl (fun s q => s.closeQueue q.1) s = { s with queues := queues } ∧ tblGetD queues 0 {} = s.queue 0 := by
  induction l generalizing s with
  | nil => exact ⟨_, rfl, rfl⟩
  | cons q l ih =>
    obtain ⟨queues, heq, hzero⟩ := ih (s.closeQueue q.1) fun r hr => h r (List.mem_cons_of_mem _ hr)
    exact ⟨queues, heq, hzero.trans (queue_modQueue_ne s _ (h q List.mem_cons_self).symm)⟩

theorem destroy_answered {s : State} {w : List Word} (h : s.command 0x17 = some w) (hempty : Spec.ctxSt s (commandCtx w) ≠ .empty)
    (hdrain : Spec.ctxSt s (commandCtx w) ≠ .draining) : ∃ t, exec .destroy s = .next t ∧ Spec.ctxSt t (commandCtx w) = .draining ∧
      (∀ pid p, s.proc pid = some p → p.ctx = commandCtx w → ∃ q, t.proc pid = some q ∧ q.st = .stopped) ∧
      Spec.Answered s t w (s.queue 0).accepted 3 0 := by
  have hgo : ((s.ctx (commandCtx w)).st == .empty || (s.ctx (commandCtx w)).st == .draining) = false := by simp [hempty, hdrain]
  have hcalm := (calm_stoppedCtx s (commandCtx w)).trans (calm_closedCtx s (commandCtx w))
  obtain ⟨queues, heq, hzero⟩ := closeQueues_eq
    ((closedCtx s (commandCtx w)).queues.filter fun q => q.1 != 0 && q.2.en && q.2.ctx == commandCtx w) (closedCtx s (commandCtx w))
    fun q hq => by
      have hkeeps := (List.mem_filter.1 hq).2
      simp only [Bool.and_eq_true, bne_iff_ne] at hkeeps
      exact hkeeps.1.1
  have hexec : exec .destroy s = .next ({ closedCtx s (commandCtx w) with queues := queues }.answer w none 0) := by
    show execDestroy s = _
    simp only [execDestroy, h, hgo, Bool.false_eq_true, if_false, destroyCtx_eq, heq]
  have hqueue : ({ closedCtx s (commandCtx w) with queues := queues } : State).queue 0 = s.queue 0 :=
    hzero.trans (by rw [State.queue, hcalm.queues]; rfl)
  refine ⟨_, hexec, ?_, fun pid p hp hc => ?_, answered_of_queue hqueue w none 0⟩
  · rw [Spec.ctxSt, answer_ctx]
    refine (hcalm.st _).trans ?_
    show ((s.modCtx (commandCtx w) fun c => { c with st := .draining }).ctx (commandCtx w)).st = _
    rw [ctx_modCtx_self]
  · rw [answer_proc]
    exact (calm_closedCtx s (commandCtx w)).stopped (stoppedCtx_stopped hp hc)

/-! ### The commands together -/

/-- Settles O49: each command by what it asks of its context, and the answer that leaves queue 0. -/
theorem managementCommands : Obligations.ManagementCommands := by
  intro s w ctx hctx
  subst hctx
  refine ⟨fun h => ⟨fun n hn hfree hlow => create_answered h hn hfree hlow, create_full h⟩,
    fun offsets frames h => ⟨fun m slot idx => ?load, kernelLoad_refused h, kernelLoad_not_loading h⟩,
    fun tb sb tab grants h => bind_answered h, fun h => ⟨suspend_answered h, suspend_refused h⟩, resume_answered, save_waits,
    fun addr len h hsave hquiet => imageWrite_answered h hsave hquiet,
    fun accepts tb sb h => ⟨fun m sh tabs ps himage hr => restore_answered h himage hr, restore_without_image h⟩, destroy_answered,
    fun h => queueAssign_answered h⟩
  case load =>
    exact fun hst hparse hgroups hidx hslot hfree hlow hplace hwf =>
      kernelLoad_answered h hst hparse hgroups hidx hslot hfree hlow hplace hwf

end Sys2Proof.Proofs.Context
end

section
/-! The family of queues, first part: the host's side of a work queue, its records, registers and completion entries (R194 to R201). -/

namespace Sys2Proof.Proofs.Queue

open Sys2Proof Sys2Proof.Machine Sys2Proof.Proofs.Arithmetic Sys2Proof.Proofs.Context

/-! ### Completion entries (R200) -/

/-- The completion entry of a record: its tag, then SEQ, STATUS and CAUSE. -/
def completion (tag : Word) (seq status cause : Nat) : Word × Word :=
  (tag, BitVec.ofNat 64 (seq % 2 ^ 32 * 2 ^ 32 + status * 256 + cause))

theorem queue_complete (s : State) (n : Nat) (tag : Word) (seq status cause : Nat) : (s.complete n tag seq status cause).queue n =
    { s.queue n with waiting := if s.faultSink n then (s.queue n).waiting
                                else (s.queue n).waiting ++ [completion tag seq status cause] } := by
  unfold State.complete
  split
  · rfl
  · exact queue_modQueue_self _ _ _

theorem complete_shape (s : State) (n : Nat) (tag : Word) (seq status cause : Nat) :
    ∃ queues, s.complete n tag seq status cause = { s with queues := queues } := by
  unfold State.complete
  split
  · exact ⟨s.queues, rfl⟩
  · exact ⟨_, rfl⟩

/-- Whether a queue takes fault records rests on its context, and on the channels of that. -/
theorem faultSink_congr {s t : State} {n : Nat} (hctx : (t.queue n).ctx = (s.queue n).ctx)
    (hchans : (t.ctx (s.queue n).ctx).chans = (s.ctx (s.queue n).ctx).chans) : t.faultSink n = s.faultSink n := by
  simp only [State.faultSink, hctx, hchans]

/-! ### Records on entry (R195, R197, R200) -/

/-- The record is the last of the queue `n`, and counted. -/
def entered (s : State) (n : Nat) (r : List Word) : State :=
  s.modQueue n fun q => { q with recs := q.recs ++ [r], accepted := (q.accepted + 1) % 2 ^ 32 }

theorem queue_entered (s : State) (n : Nat) (r : List Word) : (entered s n r).queue n =
    { s.queue n with recs := (s.queue n).recs ++ [r], accepted := ((s.queue n).accepted + 1) % 2 ^ 32 } := queue_modQueue_self _ _ _

theorem faultSink_entered (s : State) (n : Nat) (r : List Word) : (entered s n r).faultSink n = s.faultSink n :=
  faultSink_congr (by rw [queue_entered]) rfl

theorem enterQueue_room {s : State} {n : Nat} (h : (s.queue n).recs.length < 16 + (s.queue n).quota) (r : List Word) :
    s.enterQueue n r = some ((entered s n r).complete n (r.getD 3 0) (((s.queue n).accepted + 1) % 2 ^ 32) 1 0) := by
  have hroom : ¬ (s.queue n).cap ≤ (s.queue n).recs.length := not_le.2 h
  simp only [State.enterQueue, hroom, if_false]
  rw [← entered, queue_entered]

theorem enterQueue_full {s : State} {n : Nat} (h : 16 + (s.queue n).quota ≤ (s.queue n).recs.length) (r : List Word) :
    s.enterQueue n r = none := by
  have hfull : (s.queue n).cap ≤ (s.queue n).recs.length := h
  simp only [State.enterQueue, hfull, if_true]

/-- A post that is refused is counted. -/
def turnedAway (s : State) (n : Nat) : State := s.modQueue n fun q => { q with refused := (q.refused + 1) % 2 ^ 20 }

theorem queue_turnedAway (s : State) (n : Nat) :
    (turnedAway s n).queue n = { s.queue n with refused := ((s.queue n).refused + 1) % 2 ^ 20 } := queue_modQueue_self _ _ _

theorem faultSink_turnedAway (s : State) (n : Nat) : (turnedAway s n).faultSink n = s.faultSink n :=
  faultSink_congr (by rw [queue_turnedAway]) rfl

theorem refuseEntry_eq (s : State) (n : Nat) (tag : Word) (cause : Nat) :
    s.refuseEntry n tag cause = (turnedAway s n).complete n tag (((s.queue n).refused + 1) % 2 ^ 20) 2 cause := by
  rw [State.refuseEntry, ← turnedAway, queue_turnedAway]

section Host

variable {s : State} {n : Nat}

/-- The host's post of 64 bytes enters an enabled queue, or is refused where the queue is FULL. -/
theorem exec_workQueuePost (hr : Spec.HostReaches s n) {ws : List Word} (hlen : ws.length = 8) (hen : (s.queue n).en = true)
    (hclosed : (s.queue n).closed = false) :
    exec (.workQueuePost n ws) s = .next ((s.enterQueue n ws).getD (s.refuseEntry n (ws.getD 3 0) 47)) := by
  obtain ⟨hup, hqueue⟩ := hr
  show execWorkQueuePost n ws s = _
  simp only [execWorkQueuePost, hup, hqueue, hlen, hen, hclosed, Bool.not_true, Bool.or_self, bne_self_eq_false, Bool.false_eq_true, if_false]
  cases s.enterQueue n ws <;> rfl

theorem post_enters (hr : Spec.HostReaches s n) {ws : List Word} (hlen : ws.length = 8) (hen : (s.queue n).en = true)
    (hclosed : (s.queue n).closed = false) (hsink : s.faultSink n = false) (hroom : (s.queue n).recs.length < 16 + (s.queue n).quota) :
    ∃ t, exec (.workQueuePost n ws) s = .next t ∧ (t.queue n).recs = (s.queue n).recs ++ [ws] ∧
      (t.queue n).accepted = ((s.queue n).accepted + 1) % 2 ^ 32 ∧ (t.queue n).waiting = (s.queue n).waiting ++
        [(ws.getD 3 0, BitVec.ofNat 64 (((s.queue n).accepted + 1) % 2 ^ 32 * 2 ^ 32 + 256))] ∧ SameMemory s t := by
  obtain ⟨queues, hshape⟩ := complete_shape (entered s n ws) n (ws.getD 3 0) (((s.queue n).accepted + 1) % 2 ^ 32) 1 0
  have hsink' : (entered s n ws).faultSink n = false := (faultSink_entered s n ws).trans hsink
  refine ⟨_, by rw [exec_workQueuePost hr hlen hen hclosed, enterQueue_room hroom, Option.getD_some], ?_, ?_, ?_, ?_⟩
  · rw [queue_complete, queue_entered]
  · rw [queue_complete, queue_entered]
  · rw [queue_complete, hsink', queue_entered]
    simp only [Bool.false_eq_true, if_false, completion, Nat.mod_mod, Nat.reduceMul, Nat.add_zero]
  · rw [hshape]
    exact sameMemory_of_eq rfl rfl rfl

theorem post_refused (hr : Spec.HostReaches s n) {ws : List Word} (hlen : ws.length = 8) (hen : (s.queue n).en = true)
    (hclosed : (s.queue n).closed = false) (hsink : s.faultSink n = false) (hfull : 16 + (s.queue n).quota ≤ (s.queue n).recs.length) :
    ∃ t, exec (.workQueuePost n ws) s = .next t ∧ (t.queue n).recs = (s.queue n).recs ∧
      (t.queue n).refused = ((s.queue n).refused + 1) % 2 ^ 20 ∧ (t.queue n).waiting = (s.queue n).waiting ++
        [(ws.getD 3 0, BitVec.ofNat 64 (((s.queue n).refused + 1) % 2 ^ 20 * 2 ^ 32 + 512 + 47))] ∧ SameMemory s t := by
  obtain ⟨queues, hshape⟩ := complete_shape (turnedAway s n) n (ws.getD 3 0) (((s.queue n).refused + 1) % 2 ^ 20) 2 47
  have hsink' : (turnedAway s n).faultSink n = false := (faultSink_turnedAway s n).trans hsink
  refine ⟨_, by rw [exec_workQueuePost hr hlen hen hclosed, enterQueue_full hfull, Option.getD_none, refuseEntry_eq], ?_, ?_, ?_, ?_⟩
  · rw [queue_complete, queue_turnedAway]
  · rw [queue_complete, queue_turnedAway]
  · have hsmall : ((s.queue n).refused + 1) % 2 ^ 20 % 2 ^ 32 = ((s.queue n).refused + 1) % 2 ^ 20 := by omega
    rw [queue_complete, hsink', queue_turnedAway]
    simp only [Bool.false_eq_true, if_false, completion, hsmall, Nat.reduceMul]
  · rw [hshape]
    exact sameMemory_of_eq rfl rfl rfl

/-! ### The registers of a queue (R197) -/

theorem idle_iff (q : HQueue) : q.idle = true ↔ q.recs = [] ∨ q.closed = true := by
  unfold HQueue.idle HQueue.state
  by_cases hclosed : q.closed = true
  · simp [hclosed]
  · by_cases hrecs : q.recs = []
    · simp [hclosed, hrecs]
    · rw [Bool.not_eq_true] at hclosed
      have hempty : q.recs.isEmpty = false := by simp [hrecs]
      simp only [hclosed, hempty, hrecs, Bool.false_eq_true, if_false, or_self, iff_false]
      split_ifs <;> decide

/-- QCFG as firmware takes it: its grant is free up to the request (R199). -/
def configured (s : State) (n : Nat) (v : Word) : State :=
  { s with fresh := s.fresh + 1 }.modQueue n fun q =>
    { q with quota := if (s.queue n).idle then (Config.freeWord s.fresh).toNat % ((v.extractLsb' 32 16).toNat + 1) else q.quota,
             ien := v.getLsbD 15, vec := (v.extractLsb' 0 11).toNat }

theorem qcfg_written (hr : Spec.HostReaches s n) (v : Word) : ∃ t, exec (.qcfgWrite n v) s = .next t ∧
    (t.queue n).ien = v.getLsbD 15 ∧ (t.queue n).vec = (v.extractLsb' 0 11).toNat ∧ (t.queue n).recs = (s.queue n).recs ∧
    (if (s.queue n).recs = [] ∨ (s.queue n).closed = true then (t.queue n).quota ≤ (v.extractLsb' 32 16).toNat
      else (t.queue n).quota = (s.queue n).quota) := by
  obtain ⟨hup, hqueue⟩ := hr
  refine ⟨configured s n v, ?_, ?_⟩
  · show execQcfgWrite n v s = _
    exact if_neg (by simp [hup, hqueue])
  · rw [configured, queue_modQueue_self]
    refine ⟨rfl, rfl, rfl, ?_⟩
    split
    · next hidle =>
      simp only [(idle_iff _).2 hidle, if_true]
      exact Nat.le_of_lt_succ (Nat.mod_lt _ (Nat.succ_pos _))
    · next hidle =>
      exact if_neg (mt (idle_iff _).1 hidle)

theorem qcmpl_written (hr : Spec.HostReaches s n) (v : Word) (hidle : (s.queue n).recs = [] ∨ (s.queue n).closed = true) :
    ∃ t, exec (.qcmplWrite n v) s = .next t ∧ (t.queue n).base = v.toNat / 4096 * 4096 ∧ (t.queue n).log2n = v.toNat % 16 ∧
      SameMemory s t := by
  obtain ⟨hup, hqueue⟩ := hr
  refine ⟨s.modQueue n fun q => { q with base := v.toNat / 4096 * 4096, log2n := v.toNat % 16 }, ?_, ?_, ?_, sameMemory_of_eq rfl rfl rfl⟩
  · show execQcmplWrite n v s = _
    simp only [execQcmplWrite, hup, hqueue, (idle_iff _).2 hidle, Bool.and_self, if_true]
  · rw [queue_modQueue_self]
  · rw [queue_modQueue_self]

theorem qchead_written (hr : Spec.HostReaches s n) (v : Word) :
    ∃ t, exec (.qcheadWrite n v) s = .next t ∧ (t.queue n).head = v.toNat % 2 ^ 32 ∧ SameMemory s t := by
  obtain ⟨hup, hqueue⟩ := hr
  refine ⟨s.modQueue n fun q => { q with head := v.toNat % 2 ^ 32 }, ?_, ?_, sameMemory_of_eq rfl rfl rfl⟩
  · show execQcheadWrite n v s = _
    simp only [execQcheadWrite, hup, hqueue, Bool.and_self, if_true]
  · rw [queue_modQueue_self]

/-- Where the next completion entry goes in host memory. -/
def ringSlot (q : HQueue) : Nat := q.base + 16 * (q.written % 2 ^ (q.log2n + 4))

/-- The oldest completion entry, of the words `a` and `b`, has gone to the ring, with its MSI-X vector. -/
def ringWritten (s : State) (n : Nat) (a b : Word) (rest : List (Word × Word)) : State :=
  let t := s.modQueue n fun q => { q with waiting := rest, written := (q.written + 1) % 2 ^ 32 }
  { t with
    hostMem := tblSet (tblSet s.hostMem (ringSlot (s.queue n)) a) (ringSlot (s.queue n) + 8) b
    msix := if (s.queue n).ien then s.msix ++ [(s.queue n).vec] else s.msix }

theorem queue_ringWritten (s : State) (n : Nat) (a b : Word) (rest : List (Word × Word)) : (ringWritten s n a b rest).queue n =
    { s.queue n with waiting := rest, written := ((s.queue n).written + 1) % 2 ^ 32 } :=
  queue_modQueue_self s n fun q => { q with waiting := rest, written := (q.written + 1) % 2 ^ 32 }

/-- The oldest entry that waits goes to its place of the ring, where the host has freed one (R200). -/
theorem completion_written (hr : Spec.HostReaches s n) {a b : Word} {rest : List (Word × Word)}
    (hwaiting : (s.queue n).waiting = (a, b) :: rest)
    (hfree : ((s.queue n).written + 2 ^ 32 - (s.queue n).head) % 2 ^ 32 < 2 ^ ((s.queue n).log2n + 4)) :
    ∃ t, exec (.completionEntryWrite n) s = .next t ∧ tblGet t.hostMem (ringSlot (s.queue n)) = some a ∧
      tblGet t.hostMem (ringSlot (s.queue n) + 8) = some b ∧ (t.queue n).waiting = rest ∧ (t.queue n).written = ((s.queue n).written + 1) % 2 ^ 32 ∧
      t.msix = (if (s.queue n).ien then s.msix ++ [(s.queue n).vec] else s.msix) ∧ SameMemory s t := by
  obtain ⟨hup, hqueue⟩ := hr
  refine ⟨ringWritten s n a b rest, ?_, ?_, tblGet_set_self _ _ _, by rw [queue_ringWritten], by rw [queue_ringWritten], rfl,
    sameMemory_of_eq rfl rfl rfl⟩
  · show execCompletionEntryWrite n s = _
    simp only [execCompletionEntryWrite, hwaiting, hup, hqueue, not_le.2 hfree, Bool.not_true, Bool.or_self, decide_false, Bool.false_eq_true,
      if_false]
    rfl
  · exact (tblGet_set_ne _ _ (Nat.ne_of_lt (Nat.lt_add_of_pos_right (by decide)))).trans (tblGet_set_self _ _ _)

end Host

end Sys2Proof.Proofs.Queue
end

section
/-! The family of queues, second part: launch records, and the processes that they create (R195, R199, R209, R210). -/

namespace Sys2Proof.Proofs.Queue

open Sys2Proof Sys2Proof.Machine Sys2Proof.Proofs.Arithmetic Sys2Proof.Proofs.Encoding Sys2Proof.Proofs.Context

/-! ### The process of a seed (R209) -/

theorem newProc_fields {s : State} {occ : List Proc} {q : Seed} {p : Proc} (h : s.newProc occ q = some p) :
    p.ctx = q.ctx ∧ p.rank = q.rank ∧ p.pc = q.start ∧ p.wakeFault = none := by
  unfold State.newProc at h
  dsimp only at h
  split at h
  · contradiction
  · split at h
    · contradiction
    · split at h
      · contradiction
      · split at h
        · cases h
          exact ⟨rfl, rfl, rfl, rfl⟩
        · contradiction

/-- Processes that are created together are those of their seeds, in order. -/
theorem newProcs_forall₂ {s : State} {seeds : List Seed} {occ ps : List Proc} (h : s.newProcs occ seeds = some ps) :
    List.Forall₂ (fun q p => ∃ occ, s.newProc occ q = some p) seeds ps := by
  induction seeds generalizing occ ps with
  | nil =>
    cases h
    exact .nil
  | cons q seeds ih =>
    unfold State.newProcs at h
    split at h
    · contradiction
    · next p hp =>
      obtain ⟨qs, hqs, rfl⟩ := Option.map_eq_some_iff.1 h
      exact .cons ⟨occ, hp⟩ (ih hqs)

/-! ### Registers given to a new process (R210) -/

theorem putW_cons (p : Proc) (i : Nat) (v : Word) (vs : List Word) : p.putW i (v :: vs) = (p.put (.w i) v).putW (i + 1) vs := rfl

theorem putW_shape (p : Proc) (i : Nat) (vs : List Word) : p.putW i vs = { p with win := (p.putW i vs).win } := by
  induction vs generalizing p i with
  | nil => rfl
  | cons v vs ih => rw [putW_cons, ih]; rfl

theorem reg_putW_below (p : Proc) {i n : Nat} (vs : List Word) (h : n < i) : (p.putW i vs).reg (.w n) = p.reg (.w n) := by
  induction vs generalizing p i with
  | nil => rfl
  | cons v vs ih =>
    rw [putW_cons, ih _ (Nat.lt_succ_of_lt h), Proc.reg_put _ _ _ _ (by simp), if_neg (by simp only [RName.w.injEq]; exact h.ne)]

theorem reg_putW (p : Proc) (i : Nat) {j : Nat} {v : Word} {vs : List Word} (h : vs[j]? = some v) : (p.putW i vs).reg (.w (i + j)) = v := by
  induction vs generalizing p i j with
  | nil => simp at h
  | cons u vs ih =>
    rw [putW_cons]
    cases j with
    | zero =>
      rw [show RName.w (i + 0) = .w i from rfl, reg_putW_below _ _ (Nat.lt_add_one i), Proc.reg_put _ _ _ _ (by simp), if_pos rfl]
      simpa using h
    | succ j =>
      rw [show i + (j + 1) = i + 1 + j by omega]
      exact ih _ _ (by simpa using h)

/-! ### A launch record unpacked (R199, R210) -/

/-- The number of processes of a launch record, and the first rank. -/
def launchCount (w : List Word) : Nat := ((w.getD 1 0).extractLsb' 0 32).toNat
def launchRank (w : List Word) : Nat := ((w.getD 1 0).extractLsb' 32 32).toNat

/-- What the registers of process `i` hold, from w0 on. -/
def launchWords (w : List Word) (i : Nat) : List Word := (w.drop 4).take 4 ++ [BitVec.ofNat 64 i, BitVec.ofNat 64 (launchCount w)]

theorem launchWords_ends {w : List Word} (hw : w.length = 8) (i : Nat) : (launchWords w i)[0]? = some (w.getD 4 0) ∧
    (launchWords w i)[3]? = some (w.getD 7 0) ∧ (launchWords w i)[4]? = some (BitVec.ofNat 64 i) := by
  simp [launchWords, hw]

theorem placement_length {s : State} {place : Word} {count : Nat} {cores : List Nat} (h : s.placement place count = some cores) :
    cores.length = count := by
  unfold State.placement at h
  obtain ⟨hgot, hcores⟩ := Option.ite_none_right_eq_some.1 h
  simp only [Bool.and_eq_true, decide_eq_true_eq] at hgot
  rw [← Option.some.inj hcores]
  exact hgot.1

/-- The kernel and entry that a record of a launch which creates the processes `ps` names, and where those come from. -/
theorem unpackLaunch_inr {s : State} {ctx : Nat} {qpriv : Bool} {w : List Word} {ps : List Proc}
    (h : s.unpackLaunch ctx qpriv w = .inr ps) : ∃ (k : Kernel) (en : KEntry) (cores : List Nat) (qs : List Proc),
      tblGet (s.ctx ctx).kernels ((w.getD 0 0).extractLsb' 16 16).toNat = some k ∧
      k.entries[((w.getD 0 0).extractLsb' 0 16).toNat]? = some en ∧ cores.length = launchCount w ∧
      s.newProcs s.occupants (cores.zipIdx.map fun (c : Nat × Nat) =>
        launchSeed ctx w (BitVec.ofNat 64 (k.codeOff + en.codeOff)) c.2 c.1) = some qs ∧
      ps = qs.zipIdx.map fun (p : Proc × Nat) => p.1.putW 0 (launchWords w p.2) := by
  unfold State.unpackLaunch at h
  dsimp only at h
  split at h
  · contradiction
  split at h
  · contradiction
  split at h
  · contradiction
  next k hk =>
    split at h
    · contradiction
    next en hen =>
      split at h
      · contradiction
      split at h
      · contradiction
      split at h
      · contradiction
      next cores hcores =>
        split at h
        · contradiction
        split at h
        · contradiction
        next qs hqs =>
          cases h
          exact ⟨k, en, cores, qs, hk, hen, placement_length hcores, hqs, rfl⟩

/-- Process `i` of a launch record: it starts at the entry `en` of the kernel `k`, with the words of the record. -/
structure StartsAt (ctx : Nat) (w : List Word) (k : Kernel) (en : KEntry) (i : Nat) (p : Proc) : Prop where
  ctx : p.ctx = ctx
  rank : p.rank = launchRank w + i
  pc : p.pc = BitVec.ofNat 64 (k.codeOff + en.codeOff)
  reg : ∀ j v, (launchWords w i)[j]? = some v → p.reg (.w j) = v
  wakeFault : p.wakeFault = none

/-- The processes of a launch record, by the kernel and entry that it names. -/
theorem unpackLaunch_starts {s : State} {ctx : Nat} {qpriv : Bool} {w : List Word} {ps : List Proc}
    (h : s.unpackLaunch ctx qpriv w = .inr ps) : ∃ k en,
      tblGet (s.ctx ctx).kernels ((w.getD 0 0).extractLsb' 16 16).toNat = some k ∧
      k.entries[((w.getD 0 0).extractLsb' 0 16).toNat]? = some en ∧ ps.length = launchCount w ∧
      ∀ i p, ps[i]? = some p → StartsAt ctx w k en i p := by
  obtain ⟨k, en, cores, qs, hk, hen, hcores, hqs, rfl⟩ := unpackLaunch_inr h
  have hseeds := newProcs_forall₂ hqs
  refine ⟨k, en, hk, hen, ?_, fun i p hp => ?_⟩
  · rw [List.length_map, List.length_zipIdx, ← hseeds.length_eq, List.length_map, List.length_zipIdx, hcores]
  · obtain ⟨q, hq, rfl⟩ : ∃ q, qs[i]? = some q ∧ q.putW 0 (launchWords w i) = p := by
      simpa [List.getElem?_map, List.getElem?_zipIdx] using hp
    have hi : i < qs.length := (List.getElem?_eq_some_iff.1 hq).1
    obtain ⟨occ, hnew⟩ := hseeds.get (hseeds.length_eq ▸ hi) hi
    obtain ⟨hctx, hrank, hpc, hfault⟩ := newProc_fields hnew
    obtain rfl : qs[i] = q := (List.getElem?_eq_some_iff.1 hq).2
    simp only [List.get_eq_getElem, List.getElem_map, List.getElem_zipIdx, launchSeed, Nat.zero_add] at hctx hrank hpc hfault
    rw [putW_shape]
    exact ⟨hctx, hrank, hpc, fun j v hj => by rw [← putW_shape, ← reg_putW qs[i] 0 hj, Nat.zero_add], hfault⟩

/-! ### Processes that are enrolled (R208, R218) -/

/-- A new process with its descriptor and its place in its kernel's count, before it is READY. -/
def seated (s : State) (p : Proc) : State :=
  { s with seq := s.seq + 1, procs := tblSet s.procs s.seq { p with wakeFault := none } }.modCtx p.ctx fun c =>
    { c with kernels := tblMod c.kernels p.kernel fun k => { k with n := k.n + 1 } }

theorem enrol_eq (s : State) {p : Proc} (h : p.wakeFault = none) : s.enrol p = (seated s p).makeReady s.seq := by
  simp only [State.enrol, h]
  rfl

/-- Queues, and the states and channels of contexts, are the same. -/
structure Launching (s t : State) : Prop where
  queues : t.queues = s.queues
  st : ∀ n, (t.ctx n).st = (s.ctx n).st
  chans : ∀ n, (t.ctx n).chans = (s.ctx n).chans

namespace Launching

theorem refl (s : State) : Launching s s := ⟨rfl, fun _ => rfl, fun _ => rfl⟩

theorem trans {s t u : State} (h : Launching s t) (h' : Launching t u) : Launching s u :=
  ⟨h'.queues.trans h.queues, fun n => (h'.st n).trans (h.st n), fun n => (h'.chans n).trans (h.chans n)⟩

theorem queue {s t : State} (h : Launching s t) (n : Nat) : t.queue n = s.queue n := by rw [State.queue, h.queues, State.queue]

theorem faultSink {s t : State} (h : Launching s t) (n : Nat) : t.faultSink n = s.faultSink n :=
  faultSink_congr (by rw [h.queue]) (h.chans _)

end Launching

theorem launching_modCtx (s : State) (n : Nat) {f : Ctx → Ctx} (hst : ∀ c, (f c).st = c.st) (hchans : ∀ c, (f c).chans = c.chans) :
    Launching s (s.modCtx n f) := by
  refine ⟨rfl, fun m => ?_, fun m => ?_⟩ <;> rw [ctx_modCtx] <;> split
  · subst m; exact hst _
  · rfl
  · subst m; exact hchans _
  · rfl

theorem launching_seated (s : State) (p : Proc) : Launching s (seated s p) :=
  Launching.trans (t := { s with seq := s.seq + 1, procs := tblSet s.procs s.seq { p with wakeFault := none } }) ⟨rfl, fun _ => rfl, fun _ => rfl⟩
    (launching_modCtx _ _ (fun _ => rfl) fun _ => rfl)

theorem launching_rescheduled {s t : State} (h : Rescheduled s t) : Launching s t := by
  refine ⟨h.queues, h.st, fun n => ?_⟩
  obtain ⟨_, hdirty⟩ := h.woken.ctx n
  rw [hdirty]

theorem launching_enrol (s : State) {p : Proc} (h : p.wakeFault = none) : Launching s (s.enrol p) := by
  rw [enrol_eq s h]
  exact (launching_seated s p).trans (launching_rescheduled (rescheduled_makeReady _ _))

theorem launching_enrols {ps : List Proc} (h : ∀ p ∈ ps, p.wakeFault = none) (s : State) : Launching s (ps.foldl State.enrol s) := by
  induction ps generalizing s with
  | nil => exact .refl s
  | cons p ps ih =>
    exact (launching_enrol s (h p List.mem_cons_self)).trans (ih (fun q hq => h q (List.mem_cons_of_mem _ hq)) _)

theorem enrol_proc (s : State) {p : Proc} (h : p.wakeFault = none) : ∃ q, (s.enrol p).proc s.seq = some q ∧ unscheduled q = unscheduled p := by
  have hseated : (seated s p).proc s.seq = some { p with wakeFault := none } := tblGet_set_self _ _ _
  rw [enrol_eq s h]
  obtain ⟨q, hq, hsame⟩ := (woken_makeReady (seated s p) s.seq).some hseated
  refine ⟨q, hq, hsame.trans ?_⟩
  rw [← h]

theorem unscheduled_place {p q : Proc} (h : unscheduled q = unscheduled p) :
    q.ctx = p.ctx ∧ q.rank = p.rank ∧ q.core = p.core ∧ q.pc = p.pc := by
  have hctx : (unscheduled q).ctx = (unscheduled p).ctx := by rw [h]
  have hrank : (unscheduled q).rank = (unscheduled p).rank := by rw [h]
  have hcore : (unscheduled q).core = (unscheduled p).core := by rw [h]
  have hpc : (unscheduled q).pc = (unscheduled p).pc := by rw [h]
  exact ⟨hctx, hrank, hcore, hpc⟩

/-! ### The oldest record of a queue is taken (R195, R199) -/

/-- `w` is the oldest record of the queue `n`, which can be taken: its completion entry has a place in the ring. -/
structure Takes (s : State) (n : Nat) (w : List Word) (rest : List (List Word)) : Prop where
  number : n ≠ 0
  head : (s.queue n).recs = w :: rest
  up : s.queueUp n = true
  room : (s.queue n).ringFree = true
  sink : s.faultSink n = false

/-- The record has left the queue `n`, which keeps those after it, and its completion entry waits for the ring. -/
def Done (s t : State) (n : Nat) (w : List Word) (rest : List (List Word)) (status cause : Nat) : Prop :=
  (t.queue n).recs = rest ∧
    (t.queue n).waiting = (s.queue n).waiting ++ [completion (w.getD 3 0) (s.queue n).accepted status cause]

/-- The oldest record has left. -/
def shortened (s : State) (n : Nat) (rest : List (List Word)) : State := s.modQueue n fun q => { q with recs := rest }

theorem queue_shortened (s : State) (n : Nat) (rest : List (List Word)) : (shortened s n rest).queue n = { s.queue n with recs := rest } :=
  queue_modQueue_self _ _ _

theorem faultSink_shortened (s : State) (n : Nat) (rest : List (List Word)) : (shortened s n rest).faultSink n = s.faultSink n :=
  faultSink_congr (by rw [queue_shortened]) rfl

theorem launching_activate (s : State) (ctx kernel : Nat) : Launching s (s.activate ctx kernel) :=
  launching_modCtx s ctx (fun _ => rfl) fun _ => rfl

/-- The context RUNNING, with the processes of the record that has left. -/
def launched (s : State) (n : Nat) (w : List Word) (rest : List (List Word)) (ps : List Proc) : State :=
  (ps.foldl State.enrol ((shortened s n rest).modCtx (s.queue n).ctx fun c => { c with st := .running })).activate (s.queue n).ctx
    ((w.getD 0 0).extractLsb' 16 16).toNat

section Take

variable {s : State} {n : Nat} {w : List Word} {rest : List (List Word)}

theorem done_complete {u : State} (h : Takes s n w rest) (hq : u.queue n = { s.queue n with recs := rest })
    (hsink : u.faultSink n = s.faultSink n) (status cause : Nat) :
    Done s (u.complete n (w.getD 3 0) (s.queue n).accepted status cause) n w rest status cause := by
  rw [Done, queue_complete, hsink, h.sink, hq]
  exact ⟨rfl, rfl⟩

/-- The record has left its CLOSED queue. -/
def discarded (s : State) (n : Nat) (w : List Word) (rest : List (List Word)) : State :=
  (shortened s n rest).complete n (w.getD 3 0) (s.queue n).accepted 5 0

theorem done_discarded (h : Takes s n w rest) : Done s (discarded s n w rest) n w rest 5 0 :=
  done_complete h (queue_shortened s n rest) (faultSink_shortened s n rest) 5 0

theorem leaveClosed_eq (h : Takes s n w rest) : s.leaveClosed n = if rest.isEmpty then
    (discarded s n w rest).modQueue n fun q => { q with closed := false, priv := false } else discarded s n w rest :=
  calc s.leaveClosed n = if ((discarded s n w rest).queue n).recs.isEmpty then
        (discarded s n w rest).modQueue n fun q => { q with closed := false, priv := false } else discarded s n w rest := by
          simp only [State.leaveClosed, h.head]
          rfl
    _ = _ := by rw [(done_discarded h).1]

/-- From a CLOSED queue the record is discarded with STATUS 0x05 (R195, R200). -/
theorem take_closed (h : Takes s n w rest) (hclosed : (s.queue n).closed = true) : ∃ t, exec (.launchRecordTake n) s = .next t ∧
    Done s t n w rest 5 0 ∧ (t.queue n).closed = !rest.isEmpty ∧ t.procs = s.procs := by
  have hexec : exec (.launchRecordTake n) s = .next (s.leaveClosed n) := by
    show execLaunchRecordTake n s = _
    simp only [execLaunchRecordTake, h.head, h.up, h.room, hclosed, Bool.not_true, Bool.or_self, Bool.false_eq_true, if_false, if_true]
  have hclosed' : ((discarded s n w rest).queue n).closed = true := by
    rw [discarded, queue_complete, queue_shortened]
    exact hclosed
  obtain ⟨queues, hshape⟩ := complete_shape (shortened s n rest) n (w.getD 3 0) (s.queue n).accepted 5 0
  have hprocs : (discarded s n w rest).procs = s.procs := by
    rw [discarded, hshape]
    rfl
  refine ⟨_, hexec, ?_⟩
  rw [leaveClosed_eq h]
  split
  · next hempty =>
    rw [Done, queue_modQueue_self, hempty]
    exact ⟨done_discarded h, rfl, hprocs⟩
  · next hmore =>
    rw [hclosed', Bool.eq_false_iff.2 hmore]
    exact ⟨done_discarded h, rfl, hprocs⟩

/-- What becomes of a record that its context takes, by how it unpacks (R199). -/
def launchTaken (s : State) (n : Nat) (w : List Word) (rest : List (List Word)) : Nat ⊕ List Proc → State
  | .inl cause => (shortened s n rest).complete n (w.getD 3 0) (s.queue n).accepted 4 cause
  | .inr ps => (launched s n w rest ps).complete n (w.getD 3 0) (s.queue n).accepted 3 0

/-- A record of a queue whose context is BOUND or RUNNING is taken. -/
theorem exec_take_open (h : Takes s n w rest) (hclosed : (s.queue n).closed = false) (hen : (s.queue n).en = true)
    (hst : Spec.ctxSt s (s.queue n).ctx = .bound ∨ Spec.ctxSt s (s.queue n).ctx = .running) : exec (.launchRecordTake n) s =
    .next (launchTaken s n w rest (s.unpackLaunch (s.queue n).ctx (s.queue n).priv w)) := by
  have hgo : ((s.ctx (s.queue n).ctx).st != .bound && (s.ctx (s.queue n).ctx).st != .running) = false := by
    rcases hst with hst | hst <;> simp [hst]
  show execLaunchRecordTake n s = _
  simp only [execLaunchRecordTake, h.head, h.up, h.room, hclosed, hen, h.sink, h.number, hgo, Bool.not_true, Bool.or_self,
    Bool.false_eq_true, if_false]
  cases s.unpackLaunch (s.queue n).ctx (s.queue n).priv w <;> rfl

/-- A record that its context cannot launch leaves with STATUS 0x04 and the cause (R199). -/
theorem launchTaken_refused (h : Takes s n w rest) (cause : Nat) :
    Done s (launchTaken s n w rest (.inl cause)) n w rest 4 cause ∧ (launchTaken s n w rest (.inl cause)).procs = s.procs := by
  obtain ⟨queues, hshape⟩ := complete_shape (shortened s n rest) n (w.getD 3 0) (s.queue n).accepted 4 cause
  refine ⟨done_complete h (queue_shortened s n rest) (faultSink_shortened s n rest) 4 cause, ?_⟩
  rw [launchTaken, hshape]
  rfl

/-- A record that is launched leaves with STATUS 0x03, its context RUNNING and its processes created (R199, R210). -/
theorem launchTaken_launched (h : Takes s n w rest) {ps : List Proc} (hfault : ∀ p ∈ ps, p.wakeFault = none) :
    Done s (launchTaken s n w rest (.inr ps)) n w rest 3 0 ∧
    Spec.ctxSt (launchTaken s n w rest (.inr ps)) (s.queue n).ctx = .running ∧ ∀ p, ps = [p] → ∃ pid r,
      (launchTaken s n w rest (.inr ps)).proc pid = some r ∧ r.ctx = p.ctx ∧ r.rank = p.rank ∧ r.core = p.core ∧ r.pc = p.pc := by
  have hkeeps := (launching_enrols hfault ((shortened s n rest).modCtx (s.queue n).ctx fun c => { c with st := .running })).trans
    (launching_activate _ (s.queue n).ctx ((w.getD 0 0).extractLsb' 16 16).toNat)
  obtain ⟨queues, hshape⟩ := complete_shape (launched s n w rest ps) n (w.getD 3 0) (s.queue n).accepted 3 0
  refine ⟨done_complete h ?_ ?_ 3 0, ?_, fun p hp => ?_⟩
  · exact (hkeeps.queue n).trans (queue_shortened s n rest)
  · refine (hkeeps.faultSink n).trans (faultSink_congr ?_ ?_)
    · rw [State.modCtx_at_queue, queue_shortened]
    · rw [ctx_modCtx_self]
      rfl
  · rw [launchTaken, hshape]
    refine (hkeeps.st _).trans ?_
    rw [ctx_modCtx_self]
  · subst hp
    obtain ⟨r, hr, hsame⟩ := enrol_proc ((shortened s n rest).modCtx (s.queue n).ctx fun c => { c with st := .running })
      (hfault p List.mem_cons_self)
    rw [launchTaken, hshape]
    exact ⟨_, r, hr, unscheduled_place hsame⟩

end Take

end Sys2Proof.Proofs.Queue
end

section
/-! The family of queues, third part: the host's accesses to device memory, and the host's queues together (R201, O50). -/

namespace Sys2Proof.Proofs.Queue

open Sys2Proof Sys2Proof.Machine Sys2Proof.Proofs.Arithmetic Sys2Proof.Proofs.Consistency Sys2Proof.Proofs.Context

/-! ### Full bits under a store (R134, R136) -/

theorem empty_cacheDrop (s : State) (die l : Nat) : (s.cacheDrop die l).empty = s.empty := by
  unfold State.cacheDrop
  dsimp only
  split
  · rfl
  · split <;> rfl

theorem empty_cacheFill (s : State) (die slice l : Nat) : (s.cacheFill die slice l).empty = s.empty := by
  unfold State.cacheFill
  dsimp only
  split
  · rfl
  · split
    · rfl
    · exact empty_cacheDrop _ _ _

theorem empty_dirtyLine (s : State) (l : Nat) (home : Option Nat) : (s.dirtyLine l home).empty = s.empty := by
  cases home with
  | none =>
    unfold State.dirtyLine
    dsimp only
    split <;> rfl
  | some k =>
    unfold State.dirtyLine
    dsimp only
    split <;> exact empty_cacheFill s _ k l

/-- A store leaves the full bits. -/
theorem empty_write (s : State) (a : Nat) (bs : List Byte) (home : Option Nat) : (s.write a bs home).empty = s.empty := by
  have hlines (l : List Nat) (t : State) : (l.foldl (fun t k => t.dirtyLine k home) t).empty = t.empty := by
    induction l generalizing t with
    | nil => rfl
    | cons k l ih => exact (ih _).trans (empty_dirtyLine t k home)
  unfold State.write
  dsimp only
  split
  · exact hlines _ s
  · rfl

/-! ### CXL.mem (R201) -/

section Cxl

variable {s : State}

theorem not_funcUp (hup : s.funcUp = true) : (!s.funcUp) = false := by
  rw [hup]
  rfl

theorem exec_cxlMemRead (hup : s.funcUp = true) {off n : Nat} (hspan : s.hostSpan off n = true) :
    exec (.cxlMemRead off n) s = .next { s with cxlReply := some (s.read off n, (s.badWord off n).isSome) } := by
  show execCxlMemRead off n s = _
  simp only [execCxlMemRead, not_funcUp hup, hspan, Bool.false_eq_true, if_false, if_true]

theorem exec_cxlMemWrite (hup : s.funcUp = true) {off : Nat} {bs : List Byte} (hspan : s.hostSpan off bs.length = true) :
    exec (.cxlMemWrite off bs) s = .next
      { (s.dropCopies (off / 2 ^ 37) none (unitsOf 64 off bs.length)).write off bs (s.homeOf (off / 2 ^ 37) off) with
        cxlReply := some ([], false) } := by
  show execCxlMemWrite off bs s = _
  simp only [execCxlMemWrite, not_funcUp hup, hspan, Bool.false_eq_true, if_false, if_true]

/-- A write to a die that is not live is answered as Unsupported Request. -/
theorem exec_cxlMemWrite_absent (hup : s.funcUp = true) {off : Nat} {bs : List Byte} (hspan : s.hostSpan off bs.length = false) :
    exec (.cxlMemWrite off bs) s = .next { s with cxlReply := none } := by
  show execCxlMemWrite off bs s = _
  simp only [execCxlMemWrite, not_funcUp hup, hspan, Bool.false_eq_true, if_false]

theorem cxlMemWrite_stores (hup : s.funcUp = true) {off : Nat} {bs : List Byte} (hspan : s.hostSpan off bs.length = true)
    (hwf : s.wf = true) : ∃ t, exec (.cxlMemWrite off bs) s = .next t ∧ t.read off bs.length = bs ∧ OnlyBytes s t off bs.length ∧
      t.empty = s.empty ∧ t.procs = s.procs ∧ t.cxlReply = some ([], false) := by
  have hdrop : Consistency.Kept s (s.dropCopies (off / 2 ^ 37) none (unitsOf 64 off bs.length)) := ⟨rfl, rfl, fun _ => rfl⟩
  have hstored := hdrop.stored (stored_write _ off bs (s.homeOf (off / 2 ^ 37) off))
  refine ⟨_, exec_cxlMemWrite hup hspan, ?_⟩
  obtain ⟨hread, honly⟩ := hstored.bytes (t := { (s.dropCopies (off / 2 ^ 37) none (unitsOf 64 off bs.length)).write off bs
    (s.homeOf (off / 2 ^ 37) off) with cxlReply := some ([], false) }) rfl hwf rfl
  exact ⟨hread, honly, empty_write _ _ _ _, hstored.procs, rfl⟩

end Cxl

/-! ### The host's queues together -/

/-- Settles O50: what the host does by the register or window that it writes, a launch record by its queue and how it unpacks, CXL.mem by
the dies that the offsets name. -/
theorem hostQueues : Obligations.HostQueues := by
  refine ⟨fun s n hr => ⟨fun ws hlen hen hclosed hsink => ⟨?enters, ?refused⟩, qcfg_written hr, qcmpl_written hr, qchead_written hr,
      fun a b rest => completion_written hr⟩,
    fun s n w rest => ?take,
    fun s off n bs hup => ⟨fun hspan => ⟨_, exec_cxlMemRead hup hspan, rfl, sameMemory_of_eq rfl rfl rfl⟩, cxlMemWrite_stores hup,
      exec_cxlMemWrite_absent hup⟩⟩
  case enters => exact fun hroom => post_enters hr hlen hen hclosed hsink hroom
  case refused => exact fun hfull => post_refused hr hlen hen hclosed hsink hfull
  case take =>
    intro q hn hrecs hup hfree hsink done
    have h : Takes s n w rest := ⟨hn, hrecs, hup, hfree, hsink⟩
    refine ⟨fun hclosed => ?discard, fun hclosed hen hst => ⟨fun c hc => ?refuse, fun ps hps => ?launch⟩⟩
    case discard =>
      obtain ⟨t, hexec, hdone, hrest⟩ := take_closed h hclosed
      exact ⟨t, ⟨hexec, hdone⟩, hrest⟩
    case refuse =>
      obtain ⟨hdone, hprocs⟩ := launchTaken_refused h c
      exact ⟨_, ⟨by rw [exec_take_open h hclosed hen hst, hc], hdone⟩, hprocs⟩
    case launch =>
      obtain ⟨k, en, hk, hen', hlength, hstarts⟩ := unpackLaunch_starts hps
      have hfault : ∀ p ∈ ps, p.wakeFault = none := fun p hp => by
        obtain ⟨i, hi⟩ := List.mem_iff_getElem?.1 hp
        exact (hstarts i p hi).wakeFault
      obtain ⟨hdone, hrunning, hone⟩ := launchTaken_launched h hfault
      refine ⟨_, ⟨by rw [exec_take_open h hclosed hen hst, hps], hdone⟩, hrunning, hone, fun k' en' hw hk' hen'' => ?_⟩
      obtain rfl : k = k' := Option.some.inj (hk.symm.trans hk')
      obtain rfl : en = en' := Option.some.inj (hen'.symm.trans hen'')
      refine ⟨hlength, fun i p hp => ?_⟩
      obtain ⟨hctx, hrank, hpc, hreg, -⟩ := hstarts i p hp
      obtain ⟨h0, h3, h4⟩ := launchWords_ends hw i
      exact ⟨hctx, hrank, hpc, hreg 0 _ h0, hreg 3 _ h3, hreg 4 _ h4⟩

end Sys2Proof.Proofs.Queue
end

section
/-! The family of queues, fourth part: GSEND, GRED, GQRY and GSW (R316 to R326). -/

namespace Sys2Proof.Proofs.Queue

open Sys2Proof Sys2Proof.Machine Sys2Proof.Proofs.Arithmetic Sys2Proof.Proofs.Encoding Sys2Proof.Proofs.Consistency Sys2Proof.Proofs.Context

section
variable {x : Args} {s : State} {p : Proc}

/-! ### Waits and accesses of an instruction (R126, R167) -/

/-- A wait as a FENCE.rel of any scope is over where nothing is left to wait for. -/
theorem released_go {e : Entry} {scope : Nat} (h : Spec.Quiet s p scope) (go : Act) : (envOf e x s s.cur p).released scope go = go := by
  obtain ⟨htoks, hmark, hsb⟩ := h
  simp [Env.released, htoks, hmark, State.sbDone, hsb]

theorem spaceOf_of_firstFault {r : AReg} {space ea n align : Nat} {perms : BitVec 8}
    (h : Spec.firstFault s p r space ea n align perms = none) : Spec.spaceOf r = space := by
  unfold Spec.firstFault at h
  split at h
  · contradiction
  · next hvalid => exact not_not.1 (not_or.1 hvalid).2

/-- An access to LOCAL or CLUSTER memory that passes its checks is one piece. -/
theorem access_window {e : Entry} {r : AReg} {ea : Word} {n align : Nat} {perms : BitVec 8} {need : Need} {go : List Piece → Act}
    (hspace : Spec.spaceOf r < 2) (hcheck : Spec.firstFault s p r (Spec.spaceOf r) ea.toNat n align perms = none) :
    (envOf e x s s.cur p).access r ea n (Spec.spaceOf r) perms align need go =
      go [{ va := ea.toNat, pa := Spec.windowPA s p (Spec.spaceOf r) ea.toNat, len := n }] := by
  have haccess : s.check p.ctx p.core p.priv r ea.toNat n (Spec.spaceOf r) perms align need =
      .ok [{ va := ea.toNat, pa := Spec.windowPA s p (Spec.spaceOf r) ea.toNat, len := n }] := by
    rw [State.check, checkRange_window hspace hcheck]
    exact locate_window hspace _ _ _ _
  simp only [Env.access, envOf_s0, envOf_p, haccess]

theorem space_in_window {r : AReg} (h : Spec.spaceOf r < 2) : (r.valid && r.space != spLocal && r.space != spCluster) = false := by
  have hspace : r.space = spLocal ∨ r.space = spCluster := by
    have : r.space < 2 := h
    simp only [spLocal, spCluster]
    omega
  rcases hspace with hspace | hspace <;> simp [hspace]

/-! ### GSEND (R319) -/

/-- The fields of GSEND's control word: the count, the offset at the members, and whether those receive it in CLUSTER memory. -/
def gsendCount (x : Args) (p : Proc) : Nat := (p.scalar (cOf .modw x).toNat).toNat % 2 ^ 17
def gsendOffset (x : Args) (p : Proc) : Nat := (p.scalar (cOf .modw x).toNat).toNat / 2 ^ 40 % 2 ^ 23
def gsendCluster (x : Args) (p : Proc) : Bool := (p.scalar (cOf .modw x).toNat).getLsbD 63

/-- A member of a usable group sends, under a control word and a barrier field that are legal. -/
structure Sends (x : Args) (s : State) (p : Proc) : Prop where
  usable : s.groupUsable p.ctx (p.scalar x.a.toNat) = true
  member : (s.group p.ctx (p.scalar x.a.toNat).toNat).has p.rank = true
  reserved : (p.scalar (cOf .modw x).toNat).toNat / 2 ^ 17 % 2 ^ 23 = 0
  barrier : (mN x).testBit 7 = true → mN x % 128 < 96

theorem barBad_false (h : (mN x).testBit 7 = true → mN x % 128 < 96) : barBad x = false := by
  unfold barBad barField
  split
  · next hb => simpa using h hb
  · rfl

/-- A GSEND of no bytes completes with status 0. -/
theorem gsend_none (h : Ready eGsend x s p) (hs : Sends x s p) (hn : gsendCount x p = 0) :
    exec (.gsend x) s = .next (s.after eGsend x p fun q => q.wrOp x.d.toNat 0) := by
  refine settle_ret_ready h ?_
  have ha : (envOf eGsend x s s.cur p).a = p.scalar x.a.toNat := rfl
  have hc : (envOf eGsend x s s.cur p).c = p.scalar (cOf .modw x).toNat := rfl
  have hn : (p.scalar (cOf .modw x).toNat).toNat % 2 ^ 17 = 0 := hn
  simp only [ha, hc, envOf_s0, envOf_p, envOf_x, hs.usable, hs.member, hs.reserved, barBad_false hs.barrier, hn, bne_self_eq_false,
    Bool.not_true, Bool.false_eq_true, if_false, if_true]

/-- The packet that a GSEND hands to the Diffuser. -/
def gsendPacket (x : Args) (s : State) (p : Proc) : GPacket :=
  let src := p.addr (x.b.toNat - 40)
  { ctx := p.ctx, pid := s.cur, tok := s.seq, entry := (p.scalar x.a.toNat).toNat, die := p.die, core := p.core, space := Spec.spaceOf src,
    src := src.ptr.toNat, count := gsendCount x p, sb := (s.core p.core).sbSeq, toks := p.relToks 4, off := gsendOffset x p,
    dsp := gsendCluster x p, bar := barField x }

/-- The process awaits the end of its packet, under the packet's token. -/
def gsendAwaited (x : Args) (s : State) (p q : Proc) : Proc :=
  { q with ops := tblSet q.ops s.seq { kind := .other, owner := .die, dest := p.name x.d.toNat } }

/-- The packet at the Diffuser. -/
def gsendHanded (x : Args) (s : State) (p : Proc) (t : State) : State :=
  { t with seq := s.seq + 1, gpackets := t.gpackets ++ [gsendPacket x s p] }

/-- The packet at the Diffuser, and the process that awaits its end. -/
def gsendQueued (x : Args) (s : State) (p : Proc) : State :=
  gsendHanded x s p (s.withCur (gsendAwaited x s p (Spec.copyStarted x (taken eGsend x p))))

theorem cCopy_pend (q : Proc) (r : RName) : (q.pend r).cCopy = q.cCopy := by
  unfold Proc.pend
  split
  · rfl
  · rw [Proc.setEmpty_shape]

theorem startCopy_eq {e : Entry} (h : s.proc s.cur = some p) :
    (envOf e x s s.cur p).startCopy = s.withCur (Spec.copyStarted x (taken e x p)) :=
  (congrArg (envOf e x s s.cur p).upd (funext fun q => by
    unfold Spec.copyStarted
    cases hname : q.name x.d.toNat with
    | none => simp only [envOf_x, hname]
    | some r => simp only [envOf_x, hname, cCopy_pend])).trans (upd_eq h (Spec.copyStarted x))

/-- What the bytes of a GSEND must meet: count and offsets that the members' windows hold, and a source that R126 allows. -/
structure SendsBytes (x : Args) (s : State) (p : Proc) : Prop where
  pos : 0 < gsendCount x p
  le : gsendCount x p ≤ 65536
  aligned : gsendCount x p % 8 = 0
  offset : gsendOffset x p % 8 = 0
  fits : gsendOffset x p + gsendCount x p ≤ if gsendCluster x p then (s.ctx p.ctx).slen else (s.ctx p.ctx).tlen
  space : Spec.spaceOf (p.addr (x.b.toNat - 40)) < 2
  source : Spec.firstFault s p (p.addr (x.b.toNat - 40)) (Spec.spaceOf (p.addr (x.b.toNat - 40))) (p.addr (x.b.toNat - 40)).ptr.toNat
    (gsendCount x p) 8 0x12 = none
  room : p.cCopy < 65535

theorem exec_gsend (h : Ready eGsend x s p) (hs : Sends x s p) (hb : SendsBytes x s p) :
    exec (.gsend x) s = .next ((gsendQueued x s p).retire s.cur (p.nextPc x)) := by
  have ha : (envOf eGsend x s s.cur p).a = p.scalar x.a.toNat := rfl
  have hc : (envOf eGsend x s s.cur p).c = p.scalar (cOf .modw x).toNat := rfl
  have hr : (envOf eGsend x s s.cur p).areg x.b = p.addr (x.b.toNat - 40) := rfl
  have hcount : (p.scalar (cOf .modw x).toNat).toNat % 2 ^ 17 = gsendCount x p := rfl
  have hoffset : (p.scalar (cOf .modw x).toNat).toNat / 2 ^ 40 % 2 ^ 23 = gsendOffset x p := rfl
  have hcluster : (p.scalar (cOf .modw x).toNat).getLsbD 63 = gsendCluster x p := rfl
  have hmod : (gsendCount x p % 8 != 0 || gsendOffset x p % 8 != 0) = false := by simp [hb.aligned, hb.offset]
  show perform eGsend x s _ = _
  rw [perform_ready h]
  simp only [ha, hc, hr, envOf_s0, envOf_p, envOf_x, envOf_pid, hs.usable, hs.member, hs.reserved, barBad_false hs.barrier,
    hcount, hoffset, hcluster, hb.pos.ne', not_lt.2 hb.le, hmod, not_lt.2 hb.fits, space_in_window hb.space, bne_self_eq_false,
    Bool.not_true, Bool.false_eq_true, if_false]
  have hstart : (envOf eGsend x s s.cur p).startCopy.modProc s.cur (gsendAwaited x s p) =
      s.withCur (gsendAwaited x s p (Spec.copyStarted x (taken eGsend x p))) := by
    rw [startCopy_eq h.proc, withCur_mod]
  refine congrArg Host.Outcome.next ((congrArg (settle s s.cur p x) (access_window hb.space hb.source)).trans ?_)
  refine (congrArg (settle s s.cur p x) (if_neg (not_le.2 hb.room))).trans ?_
  exact congrArg (fun t => (gsendHanded x s p t).retire s.cur (p.nextPc x)) hstart

theorem issued_gsendQueued (x : Args) (s : State) (p : Proc) :
    Issued s (Spec.copyStarted x (taken eGsend x p)) (gsendQueued x s p) :=
  ⟨⟨_, withCur_cur s _, rfl⟩, sameMemory_of_eq rfl rfl rfl, fun n hn => (withCur_proc s _ n).trans (if_neg (by simpa using hn))⟩

theorem gsend_queues (h : Ready eGsend x s p) (hs : Sends x s p) (hb : SendsBytes x s p) : ∃ t q k,
    exec (.gsend x) s = .next t ∧ t.gpackets = s.gpackets ++ [k] ∧ k.pid = s.cur ∧ k.entry = (p.scalar x.a.toNat).toNat ∧
      k.count = gsendCount x p ∧ k.off = gsendOffset x p ∧ k.dsp = gsendCluster x p ∧ k.src = (p.addr (x.b.toNat - 40)).ptr.toNat ∧
      k.bytes = none ∧ t.proc s.cur = some q ∧ Spec.SameButOps (procAfter eGsend x p (Spec.copyStarted x)) q ∧ SameMemory s t ∧
      OtherProcs s t [s.cur] := by
  obtain ⟨⟨q, hq, hops⟩, hmem, hprocs⟩ := issued_retire (issued_gsendQueued x s p) (p.nextPc x)
  exact ⟨_, q, gsendPacket x s p, exec_gsend h hs hb, rfl, rfl, rfl, rfl, rfl, rfl, rfl, rfl, hq, hops, hmem, hprocs⟩

/-! ### GRED (R323) -/

/-- The instance of its group to which a member's next GRED belongs (R323). -/
def redInstance (x : Args) (s : State) (p : Proc) : Nat :=
  tblGetD (s.ctx p.ctx).redNext ((p.scalar x.a.toNat).toNat * 2 ^ 32 + p.rank) 0

/-- The operation that the members of an instance must agree on. -/
def redKey (x : Args) (p : Proc) : RedKey :=
  { op := mN x % 8, ty := tyN x, rm := modeOf (rndOf .modw x).toNat p.fpc, payl := fpcPayl p.fpc }

/-- The contribution on its way to the combining point. -/
def contributed (x : Args) (s : State) (p : Proc) : State :=
  let t := s.modCtx p.ctx fun c =>
    { c with redNext := tblSet c.redNext ((p.scalar x.a.toNat).toNat * 2 ^ 32 + p.rank) (redInstance x s p + 1) }
  { t with gContrib := s.gContrib ++
      [(p.ctx, (p.scalar x.a.toNat).toNat, redInstance x s p, redKey x p, ⟨s.cur, p.rank, p.scalar x.b.toNat⟩)] }

/-- A GRED that wakes writes the result. -/
theorem gred_woken {v : Word} (h : Ready eGred x s p) (hv : p.wakeVal = some v) :
    exec (.gred x) s = .next (s.after eGred x p fun q => q.wrOp x.d.toNat v) :=
  settle_ret_ready h (by simp only [envOf_p, hv])

/-- A member of a usable group contributes for the first time, with nothing left that it waits for. -/
structure Contributes (x : Args) (s : State) (p : Proc) : Prop where
  asleep : p.wakeVal = none
  packet : p.packet = none
  usable : s.groupUsable p.ctx (p.scalar x.a.toNat) = true
  member : (s.group p.ctx (p.scalar x.a.toNat).toNat).has p.rank = true
  quiet : Spec.Quiet s p 3

theorem exec_gred (h : Ready eGred x s p) (hi : x.i = false) (hc : Contributes x s p) :
    exec (.gred x) s = .next ((contributed x s p).park s.cur .memoryServer
      (.collective (p.scalar x.a.toNat).toNat (redInstance x s p))) := by
  have ha : (envOf eGred x s s.cur p).a = p.scalar x.a.toNat := rfl
  have hb : (envOf eGred x s s.cur p).b = p.scalar x.b.toNat := envOf_b_reg hi rfl
  show perform eGred x s _ = _
  rw [perform_ready h]
  simp only [envOf_p, hc.asleep, ha, hb, envOf_s0, envOf_x, envOf_pid, hc.usable, hc.member, released_go hc.quiet, Bool.not_true,
    Bool.false_eq_true, if_false, settle, hc.packet, Option.isSome_none]
  rfl

theorem gred_contributes (h : Ready eGred x s p) (hi : x.i = false) (hc : Contributes x s p) : ∃ t q key i k,
    exec (.gred x) s = .next t ∧ t.proc s.cur = some q ∧ q.pc = p.pc ∧
      q.st = .parked .memoryServer (.collective (p.scalar x.a.toNat).toNat i) k ∧ key.op = mN x % 8 ∧ key.ty = tyN x ∧
      t.gContrib = s.gContrib ++ [(p.ctx, (p.scalar x.a.toNat).toNat, i, key, ⟨s.cur, p.rank, p.scalar x.b.toNat⟩)] ∧
      SameMemory s t ∧ OtherProcs s t [s.cur] := by
  have hproc : (contributed x s p).proc s.cur = some p := h.proc
  refine ⟨_, _, redKey x p, redInstance x s p, _, exec_gred h hi hc, park_proc_self hproc _ _, rfl, rfl, rfl, rfl, ?_,
    park_sameMemory hproc _ _, fun n hn => park_proc_ne hproc (by simpa using hn) _ _⟩
  rw [park_eq hproc]
  rfl

/-! ### GQRY (R326) -/

section Query

variable (h : Ready eGqry x s p) (ha : (p.scalar x.a.toNat).toNat < 256)
include h ha

theorem gqry_set (hm : mN x = 2) : exec (.gqry x) s = .next (s.after eGqry x p fun q => q.wrOp x.d.toNat
    (BitVec.ofNat 64 (s.group p.ctx (p.scalar x.a.toNat).toNat).w0)) := by
  refine settle_ret_ready h ?_
  have hval : (envOf eGqry x s s.cur p).a = p.scalar x.a.toNat := by simp only [envOf, eGqry, hm]; rfl
  simp only [envOf_x, envOf_s0, envOf_p, hm, hval, not_le.2 ha, if_false, if_true]

theorem gqry_state (hm : mN x = 3) : exec (.gqry x) s = .next (s.after eGqry x p fun q => q.wrOp x.d.toNat
    (BitVec.ofNat 64 (s.group p.ctx (p.scalar x.a.toNat).toNat).w1)) := by
  refine settle_ret_ready h ?_
  have hval : (envOf eGqry x s s.cur p).a = p.scalar x.a.toNat := by simp only [envOf, eGqry, hm]; rfl
  simp only [envOf_x, envOf_s0, envOf_p, hm, hval, not_le.2 ha, if_false, if_true, Nat.reduceEqDiff]

theorem gqry_member (hi : x.i = false) (hm : mN x = 1) (hstate : 2 ≤ (s.group p.ctx (p.scalar x.a.toNat).toNat).state)
    (hb : (p.scalar x.b.toNat).toNat < (s.group p.ctx (p.scalar x.a.toNat).toNat).count) :
    exec (.gqry x) s = .next (s.after eGqry x p fun q => q.wrOp x.d.toNat (BitVec.ofNat 64
      ((s.group p.ctx (p.scalar x.a.toNat).toNat).first + (p.scalar x.b.toNat).toNat * (s.group p.ctx (p.scalar x.a.toNat).toNat).stride))) := by
  refine settle_ret_ready h ?_
  have hval : (envOf eGqry x s s.cur p).a = p.scalar x.a.toNat := by simp only [envOf, eGqry, hm]; rfl
  have hindex : (envOf eGqry x s s.cur p).b = p.scalar x.b.toNat := envOf_b_reg hi (by simp only [eGqry, hm]; rfl)
  simp only [envOf_x, envOf_s0, envOf_p, hm, hval, hindex, not_le.2 ha, not_lt.2 hstate, not_le.2 hb, if_false, OfNat.one_ne_ofNat,
    one_ne_zero]

end Query

/-! ### GSW (R322) -/

/-- The group with the member set that GSW gives it. -/
def switched (x : Args) (p : Proc) (g : Group) : Group :=
  { g with first := (p.scalar x.b.toNat).toNat / 2 ^ 32, stride := (p.scalar x.b.toNat).toNat % 2 ^ 32,
           count := (p.scalar (cOf .modw x).toNat).toNat % 2 ^ 32, state := if g.draining = 0 then 2 else 3, gen := (g.gen + 1) % 2 ^ 16 }

theorem switched_active {g : Group} (hstate : g.state = 2) (hdrain : g.draining = 0) : switched x p g =
    { g with first := (p.scalar x.b.toNat).toNat / 2 ^ 32, stride := (p.scalar x.b.toNat).toNat % 2 ^ 32,
             count := (p.scalar (cOf .modw x).toNat).toNat % 2 ^ 32, gen := (g.gen + 1) % 2 ^ 16 } := by
  rw [switched, if_pos hdrain, ← hstate]

/-- A GSW whose wait for the drain has ended completes. -/
theorem gsw_drained_completes (h : Ready eGsw x s p) (hphase : p.phase = 1) : exec (.gsw x) s = .next (s.after eGsw x p fun q => q) := by
  show perform eGsw x s _ = _
  rw [perform_ready h]
  simp only [envOf_p, hphase, if_true, settle_next h.proc]

/-- GSW names a usable group with nothing under way, and a legal set. -/
structure Switches (x : Args) (s : State) (p : Proc) : Prop where
  phase : p.phase = 0
  usable : s.groupUsable p.ctx (p.scalar x.a.toNat) = true
  active : (s.group p.ctx (p.scalar x.a.toNat).toNat).state = 2
  drained : (s.group p.ctx (p.scalar x.a.toNat).toNat).draining = 0
  quiet : Spec.Quiet s p 3
  legal : s.legalSet p.ctx (p.scalar x.a.toNat).toNat ((p.scalar x.b.toNat).toNat / 2 ^ 32) ((p.scalar x.b.toNat).toNat % 2 ^ 32)
    ((p.scalar (cOf .modw x).toNat).toNat % 2 ^ 32) = true

theorem exec_gsw (h : Ready eGsw x s p) (hi : x.i = false) (hw : Switches x s p) :
    exec (.gsw x) s = .next ((s.after eGsw x p fun q => q).modGroup p.ctx (p.scalar x.a.toNat).toNat (switched x p)) := by
  have ha : (envOf eGsw x s s.cur p).a = p.scalar x.a.toNat := rfl
  have hb : (envOf eGsw x s s.cur p).b = p.scalar x.b.toNat := envOf_b_reg hi rfl
  have hc : (envOf eGsw x s s.cur p).c = p.scalar (cOf .modw x).toNat := rfl
  show perform eGsw x s _ = _
  rw [perform_ready h]
  simp only [envOf_p, hw.phase, ha, hb, hc, envOf_s0, hw.usable, hw.legal, hw.active, hw.drained, released_go hw.quiet, Bool.not_true,
    Bool.false_eq_true, if_false, if_true, zero_ne_one, Nat.reduceEqDiff]
  exact congrArg _ (settle_modCtx h.proc p.ctx _)

theorem gsw_switches (h : Ready eGsw x s p) (hi : x.i = false) (hw : Switches x s p) : ∃ t, exec (.gsw x) s = .next t ∧
    t.group p.ctx (p.scalar x.a.toNat).toNat = { s.group p.ctx (p.scalar x.a.toNat).toNat with
      first := (p.scalar x.b.toNat).toNat / 2 ^ 32, stride := (p.scalar x.b.toNat).toNat % 2 ^ 32,
      count := (p.scalar (cOf .modw x).toNat).toNat % 2 ^ 32, gen := ((s.group p.ctx (p.scalar x.a.toNat).toNat).gen + 1) % 2 ^ 16 } ∧
    t.proc s.cur = some (procAfter eGsw x p fun q => q) ∧ SameMemory s t ∧ OtherProcs s t [s.cur] := by
  refine ⟨_, exec_gsw h hi hw, ?_, after_proc (s := s) fun q => q, sameMemory_of_eq rfl rfl rfl,
    after_otherProcs s eGsw x p fun q => q⟩
  rw [group_modGroup_self]
  exact switched_active hw.active hw.drained

end

end Sys2Proof.Proofs.Queue
end

section
/-! The family of queues, fifth part: QPOST, and the instructions of groups and queues together (R205, O40). -/

namespace Sys2Proof.Proofs.Queue

open Sys2Proof Sys2Proof.Machine Sys2Proof.Proofs.Arithmetic Sys2Proof.Proofs.Encoding Sys2Proof.Proofs.Consistency Sys2Proof.Proofs.Context

/-! ### Parts of what is read -/

theorem memRead_drop (m : Memory) (a n k : Nat) : (memRead m a n).drop k = memRead m (a + k) (n - k) := by
  induction k generalizing a n with
  | zero => rfl
  | succ k ih =>
    cases n with
    | zero => rw [Nat.zero_sub]; rfl
    | succ n => rw [memRead, List.drop_succ_cons, ih, Nat.add_sub_add_right, show a + 1 + k = a + (k + 1) by omega]

theorem memRead_take (m : Memory) {a n k : Nat} (h : k ≤ n) : (memRead m a n).take k = memRead m a k := by
  induction k generalizing a n with
  | zero => rfl
  | succ k ih =>
    cases n with
    | zero => contradiction
    | succ n => rw [memRead, List.take_succ_cons, ih (Nat.le_of_succ_le_succ h), memRead]

theorem read_part (s : State) {a n k j : Nat} (h : k + j ≤ n) : ((s.read a n).drop k).take j = s.read (a + k) j := by
  rw [State.read, memRead_drop, memRead_take _ (by omega), State.read]

/-- The record of 64 bytes of memory: eight words. -/
def recordAt (s : State) (pa : Nat) : List Word := (List.range 8).map fun i => BitVec.ofNat 64 (s.readNat (pa + 8 * i) 8)

theorem recordAt_eq (s : State) (pa : Nat) :
    ((List.range 8).map fun i => BitVec.ofNat 64 (bytesNat (((s.read pa 64).drop (8 * i)).take 8))) = recordAt s pa :=
  List.map_congr_left fun i hi => by rw [read_part s (by have := List.mem_range.1 hi; omega), State.readNat]

section Post

variable {x : Args} {s : State} {p : Proc}

/-! ### QPOST (R205) -/

/-- The region that QPOST's operand B names, as bytes of memory; and the queue to which its handle sends. -/
def postPA (x : Args) (s : State) (p : Proc) : Nat := Spec.windowPA s p 0 (p.addr (x.b.toNat - 40)).ptr.toNat
def postQueue (x : Args) (s : State) (p : Proc) : Nat := (s.chan p.ctx (hIndex (p.scalar x.a.toNat))).target

/-- QPOST's handle, region and record pass their checks, and nothing that it waits for is outstanding. -/
structure Posts (x : Args) (s : State) (p : Proc) : Prop where
  handle : s.hcheck p.ctx p.rank (p.scalar x.a.toNat) false [3] [4] = none
  packet : p.packet = none
  quiet : Spec.Quiet s p 4
  region : Spec.firstFault s p (p.addr (x.b.toNat - 40)) 0 (p.addr (x.b.toNat - 40)).ptr.toNat 64 8 0x10 = none
  sound : s.badWord (postPA x s p) 64 = none
  plain : ((recordAt s (postPA x s p)).getD 0 0).getLsbD 55 = false

/-- What QPOST makes of its queue, which the record has entered, or which is FULL. -/
def postEnter (e : Env) : Option State → Act
  | some t => .next (t.modProc e.pid fun p => p.wrOp e.x.d.toNat 1)
  | none => if (mN e.x).testBit 0 then e.ret 0 else e.trap 47

/-- What QPOST makes of the queue unit's answer. -/
def postAct (e : Env) (n : Nat) (r : List Word) : Act :=
  let q := e.s0.queue n
  if !q.en || q.closed || q.ctx != e.p.ctx then e.trap 30 else postEnter e (e.s.enterQueue n r)

/-- The record in its queue, and its completion entry where the queue writes one. -/
def posted (x : Args) (s : State) (p : Proc) : State :=
  (entered (s.withCur (taken eQpost x p)) (postQueue x s p) (recordAt s (postPA x s p))).complete (postQueue x s p)
    ((recordAt s (postPA x s p)).getD 3 0) (((s.queue (postQueue x s p)).accepted + 1) % 2 ^ 32) 1 0

theorem posted_shape (x : Args) (s : State) (p : Proc) :
    ∃ queues, posted x s p = { s.withCur (taken eQpost x p) with queues := queues } := by
  obtain ⟨queues, hshape⟩ := complete_shape (entered (s.withCur (taken eQpost x p)) (postQueue x s p) (recordAt s (postPA x s p)))
    (postQueue x s p) ((recordAt s (postPA x s p)).getD 3 0) (((s.queue (postQueue x s p)).accepted + 1) % 2 ^ 32) 1 0
  exact ⟨queues, hshape⟩

theorem posted_recs (x : Args) (s : State) (p : Proc) : ((posted x s p).queue (postQueue x s p)).recs =
    (s.queue (postQueue x s p)).recs ++ [recordAt s (postPA x s p)] := by
  rw [posted, queue_complete, queue_entered]
  rfl

theorem exec_qpost (h : Ready eQpost x s p) (hp : Posts x s p) : exec (.qpost x) s = .next (settle s s.cur p x
    ((envOf eQpost x s s.cur p).asked (postAct (envOf eQpost x s s.cur p) (postQueue x s p) (recordAt s (postPA x s p))))) := by
  have ha : (envOf eQpost x s s.cur p).a = p.scalar x.a.toNat := rfl
  have hr : (envOf eQpost x s s.cur p).areg x.b = p.addr (x.b.toNat - 40) := rfl
  have hspace := spaceOf_of_firstFault hp.region
  have haccess (go : List Piece → Act) : (envOf eQpost x s s.cur p).access (p.addr (x.b.toNat - 40)) (p.addr (x.b.toNat - 40)).ptr 64
      spLocal pRD 8 { rd := true } go = go [{ va := (p.addr (x.b.toNat - 40)).ptr.toNat, pa := postPA x s p, len := 64 }] := by
    have := access_window (e := eQpost) (x := x) (s := s) (p := p) (r := p.addr (x.b.toNat - 40)) (ea := (p.addr (x.b.toNat - 40)).ptr)
      (n := 64) (align := 8) (perms := pRD) (need := { rd := true }) (go := go) (by omega) (by rw [hspace]; exact hp.region)
    rwa [hspace] at this
  show perform eQpost x s _ = _
  rw [perform_ready h]
  simp only [ha, hr, envOf_s0, envOf_p, envOf_x, hp.handle, hp.packet, haccess, loadBytes_window hp.sound, recordAt_eq, hp.plain,
    released_go hp.quiet, Option.isSome_none, Bool.false_eq_true, if_false]
  rfl

/-- QPOST asks the queue unit, and parks until it has answered. -/
theorem qpost_asks (h : Ready eQpost x s p) (hp : Posts x s p) (hphase : p.phase ≠ 1) : Spec.Asks (exec (.qpost x) s) s p := by
  have hexec : exec (.qpost x) s = .next (s.park s.cur .memoryServer .ask) := by
    rw [exec_qpost h hp, Env.asked, envOf_p, if_neg hphase, envOf_s0, settle_park hp.packet]
  exact ⟨_, _, _, hexec, park_proc_self h.proc _ _, rfl, rfl, park_sameMemory h.proc _ _,
    fun n hn => park_proc_ne h.proc (by simpa using hn) _ _⟩

section Answer

variable (h : Ready eQpost x s p) (hp : Posts x s p) (hphase : p.phase = 1) (hen : (s.queue (postQueue x s p)).en = true)
  (hclosed : (s.queue (postQueue x s p)).closed = false) (hctx : (s.queue (postQueue x s p)).ctx = p.ctx)
include h hp hphase hen hclosed hctx

/-- The answer in hand, QPOST's record is put to an enabled queue of its context. -/
theorem exec_qpost_answered : exec (.qpost x) s = .next (settle s s.cur p x (postEnter (envOf eQpost x s s.cur p)
    ((s.withCur (taken eQpost x p)).enterQueue (postQueue x s p) (recordAt s (postPA x s p))))) := by
  rw [exec_qpost h hp, Env.asked, envOf_p, if_pos hphase]
  simp only [postAct, envOf_s0, envOf_p, envOf_s h.proc, hen, hclosed, hctx, bne_self_eq_false, Bool.not_true, Bool.or_self,
    Bool.false_eq_true, if_false]

theorem qpost_enters (hroom : (s.queue (postQueue x s p)).recs.length < 16 + (s.queue (postQueue x s p)).quota) : ∃ t,
    exec (.qpost x) s = .next t ∧
      (t.queue (postQueue x s p)).recs = (s.queue (postQueue x s p)).recs ++ [recordAt s (postPA x s p)] ∧
      t.proc s.cur = some (procAfter eQpost x p fun q => q.wrOp x.d.toNat 1) ∧ SameMemory s t ∧ OtherProcs s t [s.cur] := by
  have henter : (s.withCur (taken eQpost x p)).enterQueue (postQueue x s p) (recordAt s (postPA x s p)) = some (posted x s p) :=
    enterQueue_room (s := s.withCur (taken eQpost x p)) hroom _
  obtain ⟨queues, hshape⟩ := posted_shape x s p
  have hproc : (posted x s p).proc s.cur = some (taken eQpost x p) := by
    rw [hshape]
    exact withCur_cur s _
  rw [exec_qpost_answered h hp hphase hen hclosed hctx, henter]
  refine ⟨_, rfl, posted_recs x s p, proc_modProc_self (proc_modProc_self hproc _) _, ?_, fun n hn => ?_⟩
  · have hmem : SameMemory s (posted x s p) := by
      rw [hshape]
      exact sameMemory_of_eq rfl rfl rfl
    exact hmem
  · have hne : n ≠ s.cur := by simpa using hn
    refine (proc_modProc_ne _ _ hne).trans ((proc_modProc_ne _ _ hne).trans ?_)
    rw [hshape]
    exact (withCur_proc s _ n).trans (if_neg hne)

theorem qpost_full (hfull : 16 + (s.queue (postQueue x s p)).quota ≤ (s.queue (postQueue x s p)).recs.length)
    (htry : (mN x).testBit 0 = true) : exec (.qpost x) s = .next (s.after eQpost x p fun q => q.wrOp x.d.toNat 0) := by
  have henter := enterQueue_full (s := s.withCur (taken eQpost x p)) hfull (recordAt s (postPA x s p))
  rw [exec_qpost_answered h hp hphase hen hclosed hctx, henter]
  simp only [postEnter, envOf_x, htry, if_true, settle_ret h.proc]

end Answer

end Post

/-! ### The instructions together -/

/-- Settles O40: GSEND by its count, GRED by whether it wakes, GQRY by its selector, GSW by its phase, QPOST by its phase and the room in
its queue. -/
theorem groupsAndQueues : Obligations.GroupsAndQueues := by
  intro x s p hi a b c g r
  refine ⟨fun h husable hmember => ?gsend, fun v => gred_woken,
    fun h hv hk husable hmember hquiet => gred_contributes h hi ⟨hv, hk, husable, hmember, hquiet⟩,
    fun h ha => ⟨gqry_set h ha, gqry_state h ha, gqry_member h ha hi⟩,
    fun h hphase husable hstate hdrain hquiet hlegal =>
      gsw_switches h hi ⟨hphase, husable, hstate, hdrain, hquiet, hlegal⟩,
    gsw_drained_completes, fun h hhandle hk hquiet => ?qpost⟩
  case gsend =>
    intro n off hreserved hbar
    have hs : Sends x s p := ⟨husable, hmember, hreserved, hbar⟩
    refine ⟨gsend_none h hs, fun hpos hle haligned hoffset hfits hspace hsource hroom => ?_⟩
    exact gsend_queues h hs ⟨hpos, hle, haligned, hoffset, hfits, hspace, hsource, hroom⟩
  case qpost =>
    intro pa record n q0 hregion hsound hplain
    have hp : Posts x s p := ⟨hhandle, hk, hquiet, hregion, hsound, hplain⟩
    exact ⟨qpost_asks h hp, fun hphase hen hclosed hctx =>
      ⟨qpost_enters h hp hphase hen hclosed hctx, qpost_full h hp hphase hen hclosed hctx⟩⟩

end Sys2Proof.Proofs.Queue
end

section
/-! The family of kernels: why the clause about JINIT does not hold of every state (O33). -/

namespace Sys2Proof.Proofs.Kernels

open Sys2Proof Sys2Proof.Machine

/-- JINIT [a0], w0. -/
def jinitCell : Args := { Spec.plain with a := 40 }

/-- A process whose a0 is the first word of LOCAL, which it may write (R91, R214). -/
def cellProc : Proc := { ctx := 0, rank := 0, core := 0, areg := [(0, { ps := 0x28, len := 8 })] }

/-- That word, by its number. -/
def cellWord : Nat := tcmPA 0 0 0 / 8

/-- A machine whose set of empty words, as no hypothesis excludes, is out of order: the cell stands in it twice. -/
def twiceEmptyMachine : State :=
  { State.reset with procs := [(0, cellProc)], ctxs := [(0, { tlen := 8 })], empty := [(cellWord, ()), (cellWord, ())] }

theorem twiceEmptyMachine_ready : Ready eJinit jinitCell twiceEmptyMachine cellProc := by
  constructor <;> decide

/-- Descriptors from `seq` on are FREE. -/
theorem twiceEmptyMachine_free (n : Nat) (hn : twiceEmptyMachine.seq ≤ n) : twiceEmptyMachine.proc n = none := by
  have hpos : n ≠ 0 := Nat.ne_of_gt hn
  show tblGet [(0, cellProc)] n = none
  rw [tblGet, if_neg hpos, if_neg (Nat.not_lt_zero n), tblGet]

/-- The cell is the one word of the effective address. -/
theorem cellWord_mem : cellWord ∈
    wordsOf (Spec.windowPA twiceEmptyMachine cellProc (Spec.spaceOf (Spec.srcA jinitCell cellProc)) (Spec.ea jinitCell cellProc).toNat) 8 := by
  decide

/-- The full bit of the cell in the state that an instruction leaves. -/
def cellFullAfter : Host.Outcome State Fault Refusal → Option Bool
  | .next t => some (t.wordFull cellWord)
  | _ => none

/-- Setting the full bit takes the cell out of the set once, and the set names it still. -/
theorem cellFullAfter_jinit : cellFullAfter (exec (.jinit jinitCell) twiceEmptyMachine) = some false := by decide +kernel

/-- Refutes O33, in its clause about JINIT: no premise keeps the set of empty words in order (`State.wf` speaks of the bytes of memory
only). Where it lists the cell twice, JINIT removes one entry, and the cell is not full. -/
theorem not_processesAndJoins : ¬ Obligations.ProcessesAndJoins := by
  intro h
  obtain ⟨-, -, jinit, -⟩ := h jinitCell twiceEmptyMachine cellProc rfl (by decide) rfl (by decide) twiceEmptyMachine_free
  obtain ⟨t, hexec, -, -, hfull, -⟩ := jinit twiceEmptyMachine_ready rfl (by decide) (by decide)
  have hset : cellFullAfter (exec (.jinit jinitCell) twiceEmptyMachine) = some true := by
    rw [hexec]
    exact congrArg some (hfull cellWord cellWord_mem)
  exact absurd (hset.symm.trans cellFullAfter_jinit) (by decide)

end Sys2Proof.Proofs.Kernels
end

section
/-! The family of processes, first part: a step from every state gives a next state (O60). -/

namespace Sys2Proof.Proofs.Process

open Sys2Proof Sys2Proof.Machine

/-- The machine goes on: the outcome is a next state. -/
def GoesOn (o : Host.Outcome State Fault Refusal) : Prop := ∃ t, o = .next t

theorem goesOn_next (t : State) : GoesOn (.next t) := ⟨t, rfl⟩

theorem goesOn_ite {c : Prop} [Decidable c] {a b : Host.Outcome State Fault Refusal} (ha : GoesOn a) (hb : GoesOn b) :
    GoesOn (if c then a else b) := by
  split
  · exact ha
  · exact hb

/-! ### The meanings of the opcode table -/

/-- Every row of the opcode table goes on. An event is one next state, or a choice with a next state in every branch; whatever the
effect of an instruction answers, a fault among it, `perform` settles as a next state (R229). -/
theorem exec_goesOn (i : Instr) (s : State) : GoesOn (exec i s) := by
  cases i with
  | copyEngineChunk | endLost | watchdogExpiry | budgetPeriodStart | orderLogDrain | contextDrainEnd | getResponseArrival
  | ramoResponseArrival | spdmSessionClose | delayedFaultDelivery | slotTake | preemption | quantumExpiry | processFill | qcmplWrite
  | qcheadWrite | cxlMemRead | cxlMemWrite | rmapVersionInstall | linkFailure | linkTrainingFail | linkFence | transientCapStep
  | moduleReset | tilePipeStart =>
    exact goesOn_next _
  | storeBufferPerform | ldgMissReturn | groupBarrierArrival | groupBarrierCompletion | diffuserPacketAccept | gsendCopyLand
  | gswDrainComplete | gredContributionArrival | engineComplete | tileTransferComplete | timeoutFiring | channelMessageArrival
  | channelNotice | faultRecordSend | rmackArrival | rmapAckWindowExpiry | wdogKickArrival | deadlockTokenVisit | tokenReissue
  | memoryServerRequestTake | memoryServerRequestComplete | ownerOnIssuingDiePerform | outboundMessageSend | emptyMaskExpiry
  | keyHoldExpiry | fragmentForward | ageIncrement | fragmentArrival | decodeWindowExpiry | slotRequest | slotGrant | slotRelease
  | slotRequestRepeat | ackArrival | nakArrival | finalFailureArrival | ackWindowExpiry | putFlagPerform | flagCancel
  | qpStateFetchComplete | qpStateWrite | qpPeerError | keyUpdate | lkRateWrite | pageWalk | requesterRetransmit | tlbiComplete
  | migrationCopyDone | taskRecordTake | taskRecordSteal | faultDelivery | sleepWake | waitLimitExpiry | processFree | workQueuePost
  | qcfgWrite | completionEntryWrite | launchRecordTake | create | kernelLoad | bind | suspend | resume | queueAssign | destroy | save
  | contextImageWrite | restore | debugHalt | debugHaltEnd | debugRegisterWrite | firmwareCauseRaise | linkTrainingComplete
  | coreRetire | dieLoss | ioDieLoss | hostPortFailover | hbmChannelFault | persistentCapSet | hostFunctionPresent | tldComplete
  | tstComplete | tmmaComplete =>
    dsimp only [exec,
      execStoreBufferPerform, execLdgMissReturn, execGroupBarrierArrival, execGroupBarrierCompletion, execDiffuserPacketAccept,
      execGsendCopyLand, execGswDrainComplete, execGredContributionArrival, execEngineComplete, execTileTransferComplete,
      execTimeoutFiring, execChannelMessageArrival, execChannelNotice, execFaultRecordSend, execRmackArrival, execRmapAckWindowExpiry,
      execWdogKickArrival, execDeadlockTokenVisit, execTokenReissue, execMemoryServerRequestTake, execMemoryServerRequestComplete,
      execOwnerOnIssuingDiePerform, execOutboundMessageSend, execEmptyMaskExpiry, execKeyHoldExpiry, execFragmentForward, execAgeIncrement,
      execFragmentArrival, execDecodeWindowExpiry, execSlotRequest, execSlotGrant, execSlotRelease, execSlotRequestRepeat, execAckArrival,
      execNakArrival, execFinalFailureArrival, execAckWindowExpiry, execPutFlagPerform, execFlagCancel, execQpStateFetchComplete,
      execQpStateWrite, execQpPeerError, execKeyUpdate, execLkRateWrite, execPageWalk, execRequesterRetransmit, execTlbiComplete,
      execMigrationCopyDone, execTaskRecordTake, execTaskRecordSteal, execFaultDelivery, execSleepWake, execWaitLimitExpiry,
      execProcessFree, execWorkQueuePost, execQcfgWrite, execCompletionEntryWrite, execLaunchRecordTake, execCreate, execKernelLoad,
      execBind, execSuspend, execResume, execQueueAssign, execDestroy, execSave, execContextImageWrite, execRestore, execDebugHalt,
      execDebugHaltEnd, execDebugRegisterWrite, execFirmwareCauseRaise, execLinkTrainingComplete, execCoreRetire, execDieLoss,
      execIoDieLoss, execHostPortFailover, execHbmChannelFault, execPersistentCapSet, execHostFunctionPresent, execTldComplete,
      execTstComplete, execTmmaComplete]
    -- Branch by branch: an end is a next state, and a choice goes on where each of its branches does.
    repeat' first
      | with_reducible exact goesOn_next _
      | refine goesOn_ite ?_ ?_
      | split
  | _ => exact perform_next _ _ _ _

/-! ### The issue of a core (R58, R222) -/

/-- What the choice of a process comes to, where it has issued, goes on. -/
def TriedGoesOn : Tried → Prop
  | .issued o => GoesOn o
  | .notReady _ => True

/-- The process in a slot issues with a next state: a fault that falls due, or that its fetch meets, is delivered to it (R229), and its
instruction goes on. -/
theorem tryIssue_goesOn (s : State) (core slot pid : Nat) : TriedGoesOn (s.tryIssue core slot pid) := by
  unfold State.tryIssue
  split
  case h_1 => exact trivial
  case h_2 p _ =>
    split
    case h_1 =>
      split
      · exact trivial
      · exact goesOn_next _
    case h_2 =>
      split
      case isTrue =>
        split
        · exact goesOn_next _
        · split
          · exact goesOn_next _
          · exact trivial
      case isFalse =>
        split
        case h_1 => exact goesOn_next _
        case h_2 => split <;> exact goesOn_next _
        case h_3 i _ =>
          split
          · split
            · exact goesOn_next _
            · exact trivial
          · obtain ⟨t, ht⟩ := exec_goesOn i (s.ready pid p)
            simp only [ht]
            split
            · exact trivial
            · exact goesOn_next _

theorem tryAll_goesOn (core : Nat) (cs : List (Nat × Nat)) (s : State) : GoesOn (s.tryAll core cs) := by
  induction cs generalizing s with
  | nil => exact goesOn_next s
  | cons c cs ih =>
    have htried := tryIssue_goesOn s core c.1 c.2
    unfold State.tryAll
    cases h : s.tryIssue core c.1 c.2 with
    | issued o => rw [h] at htried; exact htried
    | notReady t => exact ih t

theorem issue_goesOn (s : State) (core : Nat) : GoesOn (s.issue core) :=
  goesOn_ite (tryAll_goesOn core _ _) (goesOn_next s)

/-! ### The inputs of the agenda -/

theorem thenDo_goesOn {o : Host.Outcome State Fault Refusal} {f : State → Host.Outcome State Fault Refusal} (ho : GoesOn o)
    (hf : ∀ t, GoesOn (f t)) : GoesOn (thenDo o f) := by
  obtain ⟨t, rfl⟩ := ho
  exact hf t

/-- A write of BAR 0 is a write of a queue's register, a post, or nothing (R197). -/
theorem barWrite_goesOn (s : State) (a : Nat) (v : Word) : GoesOn (s.input (.barWrite a v)) := by
  rw [State.input]
  split
  · exact goesOn_next s
  · exact exec_goesOn (.qcfgWrite _ v) s
  · exact exec_goesOn (.qcmplWrite _ v) s
  · exact exec_goesOn (.qcheadWrite _ v) s
  · exact goesOn_ite (exec_goesOn (.workQueuePost _ [v]) s) (goesOn_next s)

theorem input_goesOn (s : State) (x : Input) : GoesOn (s.input x) := by
  cases x with
  | issue core => exact issue_goesOn s core
  | event i => exact exec_goesOn i s
  | barWrite a v => exact barWrite_goesOn s a v
  | postAndTake q ws =>
    exact goesOn_ite (thenDo_goesOn (exec_goesOn (.launchRecordTake q) s) (exec_goesOn (.workQueuePost q ws)))
      (thenDo_goesOn (exec_goesOn (.workQueuePost q ws) s) (exec_goesOn (.launchRecordTake q)))
  | takeAndSteal core thief => exact thenDo_goesOn (exec_goesOn (.taskRecordTake core) s) (exec_goesOn (.taskRecordSteal thief))
  | _ => exact goesOn_next _

/-- Settles O60: the core in focus issues, or the first input of the agenda acts, and each goes on. -/
theorem everyStepGoesOn : Obligations.EveryStepGoesOn := by
  intro s
  show GoesOn (step s)
  unfold step
  split
  · exact issue_goesOn s s.focus
  · exact input_goesOn _ _

end Sys2Proof.Proofs.Process
end

section
/-! The family of processes, second part: a fault that no handler takes (O11). -/

namespace Sys2Proof.Proofs.Process

open Sys2Proof Sys2Proof.Machine Sys2Proof.Proofs.Arithmetic Sys2Proof.Proofs.Encoding

section Failing

variable {s : State} {pid : Nat} {p : Proc}

/-- The process leaves its slot and its ready queues. -/
def withdrawn (s : State) (pid : Nat) (p : Proc) : State := (s.leaveSlot pid p.core).unready pid p.core

theorem withdrawn_slots (s : State) (pid : Nat) (p : Proc) :
    ((withdrawn s pid p).core p.core).slots.all (· != some pid) = true := by
  rw [withdrawn, unready_slots]
  exact leaveSlot_slots s pid p.core

theorem withdrawn_records (s : State) (pid : Nat) (p : Proc) :
    ((withdrawn s pid p).core p.core).records = (s.core p.core).records := by
  rw [withdrawn, State.unready, core_modCore_self, State.leaveSlot, core_modCore_self]

/-- The process without what it kept of its instruction. -/
def dropped (p : Proc) : Proc :=
  { p with held := none, sbMark := none, granted := [], phase := 0, wakeVal := none, waitsOn := none }

/-- That process FAULTED, as the `n`-th change of state (R229). -/
def faulted (n : Nat) (p : Proc) : Proc := { dropped p with st := .faulted, stateSeq := n }

theorem faulted_pc (n : Nat) (p : Proc) : (faulted n p).pc = p.pc := rfl

-- Said of any words: with `causeWord f` for `w`, comparing the two processes would have the kernel evaluate it.
theorem described_pc (w fa epc : Word) (p : Proc) : ({ p with cause := w, faddr := fa, epc := epc } : Proc).pc = p.pc := rfl

theorem latch_pc (f : FaultInfo) (epc : Word) (p : Proc) : (p.latch f epc).pc = p.pc := described_pc (causeWord f) f.faddr epc p

/-- The record of a fault with its FLAGS (R230). -/
def faultRecord (p : Proc) (f : FaultInfo) (epc : Word) (slide nested lost : Bool) : FRec :=
  { rank := p.rank, core := p.core, ctx := p.ctx, lost := lost, slide := slide, nested := nested, code := f.cause, info := f.info,
    epc := epc, faddr := f.faddr }

theorem fail_eq (h : s.proc pid = some p) (f : FaultInfo) (epc : Word) (slide nested lost : Bool) :
    s.fail pid f epc slide nested lost =
      (((withdrawn s pid p).modProc pid fun q => dropped (q.latch f epc)).enter pid .faulted).modCore p.core fun c =>
        { c with records := c.records ++ [(faultRecord p f epc slide nested lost, some pid)] } := by
  simp only [State.fail, h]
  rfl

theorem fail_proc (h : s.proc pid = some p) (f : FaultInfo) (epc : Word) (slide nested lost : Bool) :
    (s.fail pid f epc slide nested lost).proc pid = some (faulted s.seq (p.latch f epc)) := by
  rw [fail_eq h]
  exact enter_proc_self (s := (withdrawn s pid p).modProc pid fun q => dropped (q.latch f epc))
    (proc_modProc_self (s := withdrawn s pid p) h _) .faulted

theorem fail_proc_ne (h : s.proc pid = some p) {n : Nat} (hn : n ≠ pid) (f : FaultInfo) (epc : Word) (slide nested lost : Bool) :
    (s.fail pid f epc slide nested lost).proc n = s.proc n := by
  rw [fail_eq h]
  exact (enter_proc_ne hn .faulted).trans (proc_modProc_ne (withdrawn s pid p) _ hn)

theorem fail_slots (h : s.proc pid = some p) (f : FaultInfo) (epc : Word) (slide nested lost : Bool) :
    ((s.fail pid f epc slide nested lost).core p.core).slots.all (· != some pid) = true := by
  rw [fail_eq h, core_modCore_self]
  exact withdrawn_slots s pid p

theorem fail_records (h : s.proc pid = some p) (f : FaultInfo) (epc : Word) (slide nested lost : Bool) :
    ((s.fail pid f epc slide nested lost).core p.core).records =
      (s.core p.core).records ++ [(faultRecord p f epc slide nested lost, some pid)] := by
  rw [fail_eq h, core_modCore_self, ← withdrawn_records s pid p]
  rfl

theorem fail_sameMemory (h : s.proc pid = some p) (f : FaultInfo) (epc : Word) (slide nested lost : Bool) :
    SameMemory s (s.fail pid f epc slide nested lost) := by
  rw [fail_eq h]
  exact sameMemory_of_eq rfl rfl rfl

/-- A fault that meets no handler, or one that is active, is not delivered (R229). -/
theorem deliver_unhandled (h : s.proc pid = some p) (hk : p.packet = none)
    (hh : p.thdl.getLsbD 0 = false ∨ p.thdl.getLsbD 1 = true) (f : FaultInfo) (epc : Word) :
    s.deliver pid f epc = s.fail pid f epc false (p.thdl.getLsbD 1) false := by
  have hno : (!p.thdlEn || p.thdlAct) = true := by
    rw [Proc.thdlEn, Proc.thdlAct]
    rcases hh with hh | hh
    · rw [hh]; rfl
    · rw [hh, Bool.or_true]
  simp only [State.deliver, abortPacket_none h hk, h, hno, if_true]
  rfl

end Failing

/-- Settles O11: such a fault fails its process, and what that leaves is read field by field. -/
theorem faultWithoutHandler : Obligations.FaultWithoutHandler := by
  intro s p f epc h hk hh
  exact ⟨_, _, deliver_unhandled h hk hh f epc, fail_proc h f epc _ _ _, rfl, (faulted_pc _ _).trans (latch_pc f epc p), rfl, rfl, rfl,
    fail_slots h f epc _ _ _, fail_records h f epc _ _ _, fail_sameMemory h f epc _ _ _,
    fun n hn => fail_proc_ne h (by simpa using hn) f epc _ _ _⟩

end Sys2Proof.Proofs.Process
end

section
/-! The family of processes, third part: the debug interface (R231, R391). -/

namespace Sys2Proof.Proofs.Process

open Sys2Proof Sys2Proof.Machine Sys2Proof.Proofs.Arithmetic Sys2Proof.Proofs.Encoding Sys2Proof.Proofs.Context

section Debug

variable {s : State} {mgmt ctx rank pid : Nat} {p : Proc}

/-- A halt that is due on a process that could issue: it leaves its slot for SUSPENDED, and the management core is told (R231). -/
theorem holdBack_due (h : s.proc pid = some p) (hk : p.packet = none) (hst : p.st = .running ∨ p.st = .ready)
    (hh : p.halt = some mgmt) (hd : p.haltDue = true) :
    s.holdBack pid = ((withdrawn s pid p).enter pid .suspended).haltMark pid p mgmt := by
  have hheld : s.heldBack p = true := by simp [State.heldBack, hh]
  have hissues : (p.st == .running || p.st == .ready) = true := by rcases hst with hst | hst <;> simp [hst]
  simp only [State.holdBack, h, hk, hh, hd, hheld, hissues, Option.isSome_none, Bool.false_eq_true, if_false, Bool.and_self, if_true]
  rfl

/-- The process with a debug halt that has still to take effect. -/
def haltAsked (p : Proc) (mgmt : Nat) : Proc := { p with halt := some mgmt, haltDue := true }

/-- The process once that halt has taken effect, as the `n`-th change of state. -/
def haltTaken (p : Proc) (mgmt n : Nat) : Proc :=
  { p with halt := some mgmt, haltDue := false, st := .suspended, stateSeq := n, cause := (p.cause &&& ~~~0x3F) ||| 59 }

/-- The record that tells the management core of the halt. -/
def haltRecord (p : Proc) : FRec := { rank := p.rank, core := p.core, ctx := p.ctx, code := 59, epc := p.pc }

theorem haltMark_proc (h : s.proc pid = some p) (q : Proc) (hst : q.st = .running ∨ q.st = .ready) :
    (s.haltMark pid q mgmt).proc pid = some { p with haltDue := false, cause := (p.cause &&& ~~~0x3F) ||| 59 } := by
  have hlive : ¬(q.st = .faulted ∨ q.st = .stopped) := by rcases hst with hst | hst <;> simp [hst]
  simp only [State.haltMark, if_neg hlive]
  exact proc_modProc_self (s := { s with toMgmt := _ }) h _

theorem debugHalt_suspends (hn : s.named ctx rank = some (pid, p)) (h : s.proc pid = some p) (hh : p.halt = none)
    (hst : p.st = .running ∨ p.st = .ready) (hk : p.packet = none) : ∃ t, exec (.debugHalt mgmt ctx rank) s = .next t ∧
      t.proc pid = some (haltTaken p mgmt s.seq) ∧ t.toMgmt = s.toMgmt ++ [(mgmt, haltRecord p)] ∧ SameMemory s t ∧
      OtherProcs s t [pid] := by
  have hasked : (s.modProc pid fun q => haltAsked q mgmt).proc pid = some (haltAsked p mgmt) := proc_modProc_self h _
  have hexec : exec (.debugHalt mgmt ctx rank) s = .next ((s.modProc pid fun q => haltAsked q mgmt).holdBack pid) := by
    show execDebugHalt mgmt ctx rank s = _
    simp only [execDebugHalt, hn, hh, Option.isSome_none, Bool.false_eq_true, if_false]
    rfl
  rw [hexec, holdBack_due hasked hk hst rfl rfl]
  refine ⟨_, rfl, ?_, rfl, sameMemory_of_eq rfl rfl rfl, fun n hne => ?_⟩
  · have hentered := enter_proc_self (s := withdrawn (s.modProc pid fun q => haltAsked q mgmt) pid (haltAsked p mgmt)) hasked .suspended
    exact haltMark_proc hentered _ hst
  · have hne : n ≠ pid := by simpa using hne
    exact (proc_modProc_ne _ _ hne).trans ((enter_proc_ne hne .suspended).trans (proc_modProc_ne s _ hne))

/-- A process without a debug halt that waits SUSPENDED becomes READY, unless its context is SUSPENDED (R181, R218). -/
theorem makeReady_suspended (h : s.proc pid = some p) (hst : p.st = .suspended) (hh : p.halt = none) : ∃ q,
    (s.makeReady pid).proc pid = some q ∧ q.halt = none ∧
      q.st = if Spec.ctxSt s p.ctx = .suspended then .suspended else .ready := by
  by_cases hctx : (s.ctx p.ctx).st = .suspended
  · refine ⟨p, ?_, hh, by rw [Spec.ctxSt, if_pos hctx, hst]⟩
    simp [State.makeReady, h, State.heldBack, hctx, hst]
  · refine ⟨_, makeReady_self h ?_, hh, by rw [Spec.ctxSt, if_neg hctx]⟩
    simp [State.heldBack, hctx, hh]

/-- The process with its debug halt gone. -/
def haltGone (p : Proc) : Proc := { p with halt := none, haltDue := false }

theorem debugHaltEnd_releases (hn : s.named ctx rank = some (pid, p)) (h : s.proc pid = some p) (hh : p.halt = some mgmt)
    (hst : p.st = .suspended) : ∃ t q, exec (.debugHaltEnd mgmt ctx rank) s = .next t ∧ t.proc pid = some q ∧ q.halt = none ∧
      q.st = (if Spec.ctxSt s p.ctx = .suspended then .suspended else .ready) ∧ SameMemory s t ∧ OtherProcs s t [pid] := by
  have hgone : (s.modProc pid haltGone).proc pid = some (haltGone p) := proc_modProc_self h _
  have hexec : exec (.debugHaltEnd mgmt ctx rank) s = .next ((s.modProc pid haltGone).makeReady pid) := by
    show execDebugHaltEnd mgmt ctx rank s = _
    simp only [execDebugHaltEnd, hn, hh, hst, bne_self_eq_false, Bool.false_eq_true, if_false, beq_self_eq_true, if_true]
    rfl
  obtain ⟨q, hq, hqh, hqst⟩ := makeReady_suspended hgone hst rfl
  refine ⟨_, q, hexec, hq, hqh, hqst, ?_, fun n hne => ?_⟩
  · exact (rescheduled_makeReady (s.modProc pid haltGone) pid).woken.sameMemory
  · have hne : n ≠ pid := by simpa using hne
    exact (makeReady_ne _ hne).trans (proc_modProc_ne s _ hne)

theorem debugHaltEnd_other (hn : s.named ctx rank = some (pid, p)) (hh : p.halt ≠ some mgmt) :
    exec (.debugHaltEnd mgmt ctx rank) s = .next s := by
  show execDebugHaltEnd mgmt ctx rank s = _
  simp only [execDebugHaltEnd, hn, bne_iff_ne, ne_eq, hh, not_false_eq_true, if_true]

/-- A change of one process leaves memory and the other processes. -/
theorem modProc_frame (h : s.proc pid = some p) (f : Proc → Proc) : (s.modProc pid f).proc pid = some (f p) ∧
    SameMemory s (s.modProc pid f) ∧ OtherProcs s (s.modProc pid f) [pid] :=
  ⟨proc_modProc_self h f, sameMemory_of_eq rfl rfl rfl, fun _ hne => proc_modProc_ne s f (by simpa using hne)⟩

theorem debugRegisterWrite_writes (hn : s.named ctx rank = some (pid, p)) (hh : p.halt = some mgmt) (hst : p.st = .suspended)
    {reg : DebugReg} (hland : ∀ r, p.debugName reg = some r → r ∉ p.pending) (v : Word) :
    exec (.debugRegisterWrite mgmt ctx rank reg v) s = .next (s.modProc pid fun q => q.debugPut reg v) := by
  have hwaits : ((p.debugName reg).any fun r => p.pending.contains r) = false := by
    cases hr : p.debugName reg with
    | none => rfl
    | some r => simpa using hland r hr
  show execDebugRegisterWrite mgmt ctx rank reg v s = _
  simp only [execDebugRegisterWrite, hn, hwaits, hh, hst, decide_true, beq_self_eq_true, Bool.or_true, Bool.not_false, Bool.and_self,
    if_true]

theorem firmwareCauseRaise_raises (hn : s.named ctx rank = some (pid, p)) (hh : p.halt = some mgmt) (hrun : p.st ≠ .running)
    (hready : p.st ≠ .ready) {cause : Nat} (hlo : 60 ≤ cause) (hhi : cause ≤ 63) :
    exec (.firmwareCauseRaise mgmt ctx rank cause) s = .next (s.modProc pid fun q => { q with firm := q.firm ++ [cause] }) := by
  show execFirmwareCauseRaise mgmt ctx rank cause s = _
  simp [execFirmwareCauseRaise, hn, hh, hrun, hready, hlo, hhi]

/-- A window register that a management core writes reads as written. -/
theorem debugPut_window (p : Proc) (v : Word) {i : Nat} (hi : i < 32) : (p.debugPut (.w i) v).reg (.w (24 * p.level + i)) = v := by
  show (p.put (.w (24 * p.level + i % 32)) v).reg _ = v
  rw [Nat.mod_eq_of_lt hi, Proc.reg_put _ _ _ _ (fun _ => by simp), if_pos rfl]

end Debug

end Sys2Proof.Proofs.Process
end

section
/-! The family of processes, fourth part: module boot (R388), and with it debug halts and boot (O51). -/

namespace Sys2Proof.Proofs.Process

open Sys2Proof Sys2Proof.Machine Sys2Proof.Proofs.Arithmetic Sys2Proof.Proofs.Encoding Sys2Proof.Proofs.Context

/-! ### Tables written key by key -/

theorem tblGet_map_range' {α : Type} (f : Nat → α) (m n c : Nat) :
    tblGet ((List.range' m n).map fun i => (i, f i)) c = if m ≤ c ∧ c < m + n then some (f c) else none := by
  induction n generalizing m with
  | zero => rw [if_neg (by omega)]; rfl
  | succ n ih =>
    rw [List.range'_succ, List.map_cons, tblGet, ih]
    by_cases hc : c = m
    · rw [if_pos hc, if_pos (by omega), hc]
    · rw [if_neg hc]
      by_cases hlt : c < m
      · rw [if_pos hlt, if_neg (by omega)]
      · rw [if_neg hlt]
        exact if_congr (by omega) rfl rfl

/-- A table with an entry for each number below `n`. -/
theorem tblGet_map_range {α : Type} (f : Nat → α) (n c : Nat) :
    tblGet ((List.range n).map fun i => (i, f i)) c = if c < n then some (f c) else none := by
  rw [List.range_eq_range', tblGet_map_range']
  exact if_congr (by omega) rfl rfl

section Foldl

variable {α : Type} (key : α → Nat)

theorem die_foldl_modDie_ne (f : α → Die) {l : List α} {n : Nat} (hn : n ∉ l.map key) (s : State) :
    (l.foldl (fun s x => s.modDie (key x) fun _ => f x) s).die n = s.die n := by
  induction l generalizing s with
  | nil => rfl
  | cons y l ih =>
    rw [List.map_cons, List.mem_cons, not_or] at hn
    rw [List.foldl_cons, ih hn.2, Consistency.die_modDie, if_neg hn.1]

/-- Dies written one after another, each once, hold what is written. -/
theorem die_foldl_modDie (f : α → Die) {l : List α} (hl : (l.map key).Nodup) {x : α} (hx : x ∈ l) (s : State) :
    (l.foldl (fun s x => s.modDie (key x) fun _ => f x) s).die (key x) = f x := by
  induction l generalizing s with
  | nil => exact absurd hx List.not_mem_nil
  | cons y l ih =>
    rw [List.map_cons, List.nodup_cons] at hl
    rw [List.foldl_cons]
    rcases List.mem_cons.1 hx with rfl | hx
    · rw [die_foldl_modDie_ne key f hl.1, die_modDie_self]
    · exact ih hl.2 hx _

theorem foldl_modDie_eq (f : α → Die) (l : List α) (s : State) :
    ∃ dies, l.foldl (fun s x => s.modDie (key x) fun _ => f x) s = { s with dies := dies } := by
  induction l generalizing s with
  | nil => exact ⟨_, rfl⟩
  | cons x l ih => exact (ih _).imp fun _ h => h

theorem foldl_modIo_eq (f : α → IoDie) (l : List α) (s : State) :
    ∃ ios, l.foldl (fun s x => s.modIo (key x) fun _ => f x) s = { s with ios := ios } := by
  induction l generalizing s with
  | nil => exact ⟨_, rfl⟩
  | cons x l ih => exact (ih _).imp fun _ h => h

end Foldl

/-! ### The state after module reset (R388) -/

/-- The EPOCH that each physical die had last (R366). -/
def lastEpochs (s : State) : Tbl Nat :=
  (s.dies.filter fun d => d.2.present).foldl (fun t d => tblSet t d.2.phys d.2.epoch) s.lastEpoch

/-- The state after reset but for what lies outside the module (log entry 6). -/
def cleared (s : State) (b : BootPlan) : State :=
  { State.reset with agenda := s.agenda, focus := s.focus, fresh := s.fresh, seq := s.seq, hostMem := s.hostMem,
                     msix := s.msix, cxlReply := s.cxlReply, toMgmt := s.toMgmt, images := s.images, mrev := s.mrev,
                     devId := b.devId.toNat, lastEpoch := lastEpochs s, cfgRetry := s.cfgRetry }

/-- The compute die that takes a logical number. -/
def numberedDie (s : State) (b : BootPlan) (x : Nat × Nat) : Die :=
  { bootDie b x.2 with epoch := (tblGet (lastEpochs s) x.2).elim 0 fun e => (e + 1) % 256 }

/-- The dies of a boot numbered, over the cleared state. -/
def numbered (s : State) (b : BootPlan) : State :=
  (bootLogical b).foldl (fun (s' : State) x => s'.modDie x.1 fun _ => numberedDie s b x) (cleared s b)

def bootLink (b : BootPlan) (l : Nat) : Link :=
  if (bootLinks b).contains l then { st := 2, lanes := (bootRate b l).1, speed := (bootRate b l).2 } else { st := 3 }

/-- The record, the links and the cores of a boot, over a state with its dies (R380, R383). -/
def booted (b : BootPlan) (s : State) : State :=
  { s with map := bootRecord b, hostPort := bootPort b, sessions := b.peers.foldl nsAdd []
           links := (List.range 41).map fun l => (l, bootLink b l)
           cores := (List.range (256 * (bootDies b).length)).map fun c => (c, bootCore b c) }

/-- With an I/O die that takes part, a boot numbers the dies of the cleared state and gives it its I/O dies, record, links and cores. -/
theorem boot_eq (s : State) {b : BootPlan} (h : bootIos b ≠ []) : ∃ ios, s.boot b = booted b { numbered s b with ios := ios } := by
  obtain ⟨ios, hios⟩ := foldl_modIo_eq id (fun _ => { present := true, map := bootRecord b }) (bootIos b) (numbered s b)
  have hboot : s.boot b = booted b ((bootIos b).foldl
      (fun (s' : State) n => s'.modIo (id n) fun _ => { present := true, map := bootRecord b }) (numbered s b)) := if_neg h
  exact ⟨ios, hboot.trans (congrArg (booted b) hios)⟩

/-- The first parts of pairs are a sublist of the list that they come from. -/
theorem map_fst_zip_sublist {α β : Type} (l : List α) (l' : List β) : ((l.zip l').map Prod.fst).Sublist l := by
  induction l generalizing l' with
  | nil => exact List.Sublist.slnil
  | cons a l ih =>
    cases l' with
    | nil => exact List.nil_sublist _
    | cons b l' => exact (ih l').cons_cons a

/-- Each logical number is given once. -/
theorem bootLogical_nodup (b : BootPlan) : ((bootLogical b).map Prod.fst).Nodup :=
  List.nodup_range.sublist (map_fst_zip_sublist _ _)

theorem numbered_die (s : State) {b : BootPlan} {x : Nat × Nat} (hx : x ∈ bootLogical b) :
    (numbered s b).die x.1 = numberedDie s b x :=
  die_foldl_modDie Prod.fst (numberedDie s b) (bootLogical_nodup b) hx (cleared s b)

/-- Numbering changes dies alone. -/
theorem numbered_eq (s : State) (b : BootPlan) : ∃ dies, numbered s b = { cleared s b with dies := dies } := foldl_modDie_eq _ _ _ _

theorem booted_core_live (b : BootPlan) (s : State) (c : Nat) :
    ((booted b s).core c).live = (decide (c < 256 * (bootDies b).length) &&
      bootHolds b ((bootDies b).getD (coreDie c) 0) (coreClu c) (corePos c)) := by
  rw [State.core, booted, tblGetD, tblGet_map_range]
  by_cases hc : c < 256 * (bootDies b).length
  · rw [if_pos hc, decide_eq_true hc, Bool.true_and]
    rfl
  · rw [if_neg hc, decide_eq_false hc, Bool.false_and]
    rfl

theorem booted_link_st (b : BootPlan) (s : State) {l : Nat} (hl : l < 41) :
    ((booted b s).link l).st = if (bootLinks b).contains l then 2 else 3 := by
  rw [State.link, booted, tblGetD, tblGet_map_range, if_pos hl, Option.getD_some, bootLink]
  split <;> rfl

/-- Step 8 of R388: the function appears and queue 0 opens. -/
theorem hostFunctionPresent_opens {s : State} (hp : (s.io (8 + s.hostPort)).present = true) (hl : (s.io (8 + s.hostPort)).lost = false)
    (hm : recField s.map 0 0 32 ≠ 0) :
    exec .hostFunctionPresent s = .next ({ s with funcUp := true }.modQueue 0 fun q => { q with en := true }) := by
  show execHostFunctionPresent s = _
  simp only [execHostFunctionPresent, hp, hl, Bool.not_false, Bool.and_self, Bool.true_and, bne_iff_ne, ne_eq, hm, not_false_eq_true,
    if_true]

/-- Settles O51: halts and what a management core does under them, then boot and the function that appears after it. -/
theorem debugAndBoot : Obligations.DebugAndBoot := by
  refine ⟨fun s mgmt ctx rank pid p hn h => ⟨fun hh hst hk => ?halts, debugHaltEnd_releases hn h, debugHaltEnd_other hn,
    fun reg v hh hst hland => ?writes, fun cause hh hrun hready hlo hhi => ?raises⟩,
    fun p v => ⟨rfl, fun i hi => debugPut_window p v hi⟩, fun s b hb => ?boots, fun s hp hl hm => ?appears⟩
  case halts =>
    obtain ⟨t, hexec, hproc, htold, hframe⟩ := debugHalt_suspends hn h hh hst hk
    exact ⟨t, _, hexec, hproc, rfl, rfl, rfl, htold, hframe⟩
  case writes => exact ⟨_, debugRegisterWrite_writes hn hh hst hland v, modProc_frame h _⟩
  case raises => exact ⟨_, firmwareCauseRaise_raises hn hh hrun hready hlo hhi, modProc_frame h _⟩
  case boots =>
    obtain ⟨ios, hboot⟩ := boot_eq s hb
    obtain ⟨dies, hdies⟩ := numbered_eq s b
    have hdie {x : Nat × Nat} (hx : x ∈ bootLogical b) : tblGetD dies x.1 {} = numberedDie s b x := by
      rw [← numbered_die s hx, hdies]
      rfl
    rw [hdies] at hboot
    refine ⟨_, congrArg Host.Outcome.next hboot, rfl, rfl, rfl, rfl, rfl, rfl, rfl, fun x hx => ?_, booted_core_live b _,
      fun l hl => booted_link_st b _ hl⟩
    rw [State.die, booted, hdie hx]
    exact ⟨rfl, rfl, rfl, rfl⟩
  case appears =>
    exact ⟨_, hostFunctionPresent_opens hp hl hm, rfl, congrArg HQueue.en (queue_modQueue_self _ 0 _),
      sameMemory_of_eq rfl rfl rfl, rfl⟩

end Sys2Proof.Proofs.Process
end

section
/-! The family of processes, fifth part: why the clause about a message that arrives does not hold of every message (O38). -/

namespace Sys2Proof.Proofs.Process

open Sys2Proof Sys2Proof.Machine

/-- A message of rank 1 on channel 1, whose sender waits on die 0. -/
def ownDieWire : ChanWire := { ctx := 0, chan := 1, msg := { ticket := 5, pid := 2, parts := [[7]], link := some (0, 0) } }

/-- Rank 0, at which the channel ends, runs on die 0 too: it has moved there since the message left (R251). -/
def ownDieMachine : State :=
  { State.reset with
    procs := [(1, { ctx := 0, rank := 0, core := 0 }), (2, { ctx := 0, rank := 1, core := 1, st := .parked .channel (.chan 5) 0 })]
    dies := [(0, { present := true })]
    ctxs := [(0, { chans := [(1, { assigned := true, kind := 1, depth := 1 })] })]
    chanIn := [ownDieWire] }

/-- The outbound write buffer of die 0 after an event, and how the process that sent goes on. -/
def outAfter : Host.Outcome State Fault Refusal → Option (Tbl OutMsg × Option PState)
  | .next t => some ((t.die 0).out, (t.proc 2).map Proc.st)
  | _ => none

/-- The sender is told at once, and no notice leaves the die. -/
theorem outAfter_arrival : outAfter (exec (.channelMessageArrival 0) ownDieMachine) = some ([], some .ready) := by decide +kernel

/-- Refutes O38, in its clause about a message that arrives: the clause asks for a channel notice of KIND 17 (R412) wherever the message
names a die whose sender waits, and that die may be the one on which the receive end lies by then. The sender is told there
directly, and nothing is sent. -/
theorem not_channelEvents : ¬ Obligations.ChannelEvents := by
  rintro ⟨arrival, -⟩
  obtain ⟨t, hexec, -, -, ⟨k, m, hsent, -⟩, -⟩ := arrival ownDieMachine 0 ownDieWire 0 0 rfl
    (fun v hv => absurd hv List.not_mem_nil) (.inl rfl) (by decide) rfl rfl rfl rfl rfl rfl (by decide) (fun m hm => absurd hm List.not_mem_nil) rfl rfl
  have hafter := outAfter_arrival
  rw [hexec, outAfter, Option.some.injEq, Prod.mk.injEq] at hafter
  have hdie : ownDieMachine.endDie ownDieWire.ctx ownDieWire.chan = 0 := by decide
  rw [hdie, hafter.1] at hsent
  exact absurd hsent (by simp [tblGet])

end Sys2Proof.Proofs.Process
end

section
/-! The family of channels, first part: SEND, SENDV, RECV and RECVV of parts (R242 to R247, R261, R262, O36). -/

namespace Sys2Proof.Proofs.Channels

open Sys2Proof Sys2Proof.Machine Sys2Proof.Proofs.Arithmetic Sys2Proof.Proofs.Encoding Sys2Proof.Proofs.Queue

/-! ### A receive end that changes -/

/-- `t` is `s` but for its contexts, and channel `i` of `ctx` but for its receive end, which is `e`. -/
structure EndIs (s t : State) (ctx i : Nat) (e : ChanEnd) : Prop where
  shape : ∃ ctxs, t = { s with ctxs := ctxs }
  chan : t.chan ctx i = s.chan ctx i
  receive : t.chanEnd ctx i = e

section Ends

variable {s t : State} {ctx i : Nat} {e : ChanEnd}

theorem endIs_refl (s : State) (ctx i : Nat) : EndIs s s ctx i (s.chanEnd ctx i) := ⟨⟨_, rfl⟩, rfl, rfl⟩

theorem EndIs.proc (h : EndIs s t ctx i e) (n : Nat) : t.proc n = s.proc n := by
  obtain ⟨_, rfl⟩ := h.shape
  rfl

theorem EndIs.sameMemory (h : EndIs s t ctx i e) : SameMemory s t := by
  obtain ⟨_, rfl⟩ := h.shape
  exact sameMemory_of_eq rfl rfl rfl

theorem endIs_modCtx {f : Ctx → Ctx} {g : ChanEnd → ChanEnd} (h : EndIs s t ctx i e) (hchans : ∀ c, (f c).chans = c.chans)
    (hends : ∀ c, tblGetD (f c).ends i {} = g (tblGetD c.ends i {})) : EndIs s (t.modCtx ctx f) ctx i (g e) where
  shape := by
    obtain ⟨_, rfl⟩ := h.shape
    exact ⟨_, rfl⟩
  chan := by
    rw [State.chan, ctx_modCtx_self, hchans]
    exact h.chan
  receive := by
    rw [State.chanEnd, ctx_modCtx_self, hends]
    exact congrArg g h.receive

theorem endIs_modEnd (h : EndIs s t ctx i e) (f : ChanEnd → ChanEnd) : EndIs s (t.modEnd ctx i f) ctx i (f e) :=
  endIs_modCtx h (fun _ => rfl) fun _ => tblGetD_set_self _ _ _ _

theorem endIs_dirtyDie (h : EndIs s t ctx i e) (die : Nat) : EndIs s (t.dirtyDie ctx die) ctx i e :=
  endIs_modCtx (g := id) h (fun _ => rfl) fun _ => rfl

theorem endIs_countSent (h : EndIs s t ctx i e) (die : Nat) : EndIs s (t.countSent ctx die) ctx i e :=
  endIs_dirtyDie (endIs_modCtx (f := fun c => { c with sent := tblSet c.sent die (tblGetD c.sent die 0 + 1) }) (g := id) h
    (fun _ => rfl) fun _ => rfl) die

theorem endIs_countDelivered (h : EndIs s t ctx i e) (die : Nat) : EndIs s (t.countDelivered ctx die) ctx i e :=
  endIs_dirtyDie (endIs_modCtx (f := fun c => { c with delivered := tblSet c.delivered die (tblGetD c.delivered die 0 + 1) }) (g := id) h
    (fun _ => rfl) fun _ => rfl) die

theorem endIs_modProc (h : EndIs s t ctx i e) (n : Nat) (f : Proc → Proc) : EndIs (s.modProc n f) (t.modProc n f) ctx i e := by
  obtain ⟨⟨_, rfl⟩, hchan, hreceive⟩ := h
  exact ⟨⟨_, rfl⟩, hchan, hreceive⟩

/-- What an instruction leaves whose effect is on its process and on a receive end. -/
theorem completes_endIs {n : Entry} {x : Args} {p : Proc} {k : Nat} {f : Proc → Proc} {body : Env → Act} (hready : Ready n x s p)
    (hbody : body (envOf n x s s.cur p) = .next t) (h : EndIs { s.withCur (f (taken n x p)) with seq := k } t ctx i e) :
    ∃ u, perform n x s body = .next u ∧ u.chanEnd ctx i = e ∧ u.proc s.cur = some (procAfter n x p f) ∧ SameMemory s u ∧
      OtherProcs s u [s.cur] := by
  refine ⟨t.retire s.cur (p.nextPc x), by rw [perform_ready hready, hbody]; rfl, h.receive, ?_, h.sameMemory, fun m hm => ?_⟩
  · exact proc_modProc_self ((h.proc s.cur).trans (withCur_cur s _)) _
  · have hne : m ≠ s.cur := by simpa using hm
    exact (proc_modProc_ne t _ hne).trans ((h.proc m).trans ((withCur_proc s _ m).trans (if_neg hne)))

/-! ### What waits at a receive end (R246, R247, R251) -/

theorem rebinding_of_nil (h : (s.chanEnd ctx i).rebind = []) : s.rebinding ctx i = false := congrArg (List.any · _) h

/-- Nothing goes on at an end where nothing waits. -/
theorem serveEnd_idle (hsends : (s.chanEnd ctx i).sends = []) (hrcvs : (s.chanEnd ctx i).rcvs = [])
    (hrebind : (s.chanEnd ctx i).rebind = []) (fuel : Nat) : s.serveEnd ctx i fuel = s := by
  cases fuel with
  | zero => rfl
  | succ fuel =>
    have hpair : (s.chanEnd ctx i).pair = none := by simp only [ChanEnd.pair, hrcvs, pickFirst]
    simp only [State.serveEnd, rebinding_of_nil hrebind, hpair, hsends, hrcvs, List.isEmpty_nil, Bool.not_true, Bool.and_false,
      Bool.false_eq_true, if_false]
    split
    · rfl
    · split
      · contradiction
      · rfl

/-- The oldest send that waits enters a free place of a buffered channel. -/
theorem serveEnd_enters {m : Msg} {ms : List Msg} (hsends : (s.chanEnd ctx i).sends = m :: ms) (hrebind : (s.chanEnd ctx i).rebind = [])
    (hroom : (s.chanEnd ctx i).held.length < (s.chan ctx i).depth) (fuel : Nat) :
    s.serveEnd ctx i (fuel + 1) = (s.enterPlace ctx i m fun m e => { e with sends := ms, held := e.held ++ [m] }).serveEnd ctx i fuel := by
  simp only [State.serveEnd, rebinding_of_nil hrebind, Nat.ne_of_gt (Nat.zero_lt_of_lt hroom), hroom, hsends, List.isEmpty_cons,
    Bool.not_false, Bool.and_true, decide_true, Bool.false_eq_true, if_false, if_true]

/-! ### A message of one's own die (R244, R245) -/

/-- A message of parts whose sender runs on the die, and has not parked for it. -/
structure Live (s : State) (m : Msg) : Prop where
  tile : m.tile = none
  link : m.link = none
  req : m.req = none
  sender : ∃ p, s.proc m.pid = some p ∧ p.st = .running

/-- The sender that goes on has nothing to learn. -/
theorem fate_accepted {m : Msg} (h : Live s m) (ctx i : Nat) : s.fate ctx i m 0 0 = s := by
  obtain ⟨htile, hlink, hreq, p, hp, hst⟩ := h
  have hnamed : (decide (m.pid = 0) && (s.proc 0).isNone) = false := by
    by_cases h0 : m.pid = 0
    · rw [h0] at hp
      simp [hp]
    · simp [h0]
  simp [State.fate, htile, hlink, hreq, hp, hst, hnamed]

/-- A message enters a place of the queue, and its sender goes on. -/
theorem endIs_enterPlace {m : Msg} (h : EndIs s t ctx i e) (hm : Live s m) (put : Msg → ChanEnd → ChanEnd) :
    EndIs s (t.enterPlace ctx i m put) ctx i (put m e) := by
  have hput : ({ m with closed := m.closed && m.tile.isNone } : Msg) = m :=
    congrArg (fun b => { m with closed := b }) (by rw [hm.tile]; exact Bool.and_true _)
  have hend := endIs_dirtyDie (endIs_modEnd h (put m)) ((t.modEnd ctx i (put m)).endDie ctx i)
  have hlive : Live ((t.modEnd ctx i (put m)).dirtyDie ctx ((t.modEnd ctx i (put m)).endDie ctx i)) m :=
    ⟨hm.tile, hm.link, hm.req, by rw [hend.proc]; exact hm.sender⟩
  have henter : t.enterPlace ctx i m put = (t.modEnd ctx i (put m)).dirtyDie ctx ((t.modEnd ctx i (put m)).endDie ctx i) := by
    rw [State.enterPlace, hput]
    simp only [hm.tile, State.accept, Option.isSome_none, Bool.false_eq_true, if_false, fate_accepted hlive]
  rwa [henter]

/-- A message that arrives at an open end with a free place and nobody waiting takes the place at once (R244, R247). -/
theorem arrive_takesPlace {m : Msg} (hm : Live s m) (hopen : (s.chan ctx i).closed = false) (he : s.chanEnd ctx i = e)
    (hrebind : e.rebind = []) (hsends : e.sends = []) (hrcvs : e.rcvs = []) (hfree : ∀ h ∈ e.held, h.rsv = none)
    (hroom : e.held.length < (s.chan ctx i).depth) :
    (s.arrive ctx i m).2 = .accepted ∧ EndIs s (s.arrive ctx i m).1 ctx i { e with held := e.held ++ [m] } := by
  have hdirty := endIs_dirtyDie (he ▸ endIs_refl s ctx i) (s.endDie ctx i)
  generalize hu : s.dirtyDie ctx (s.endDie ctx i) = u at hdirty
  have hjoined := endIs_modEnd hdirty fun e => { e with sends := e.sends ++ [m] }
  have hplaced := endIs_enterPlace hjoined hm fun m e => { e with sends := [], held := e.held ++ [m] }
  have hserve : (u.modEnd ctx i fun e => { e with sends := e.sends ++ [m] }).serveChan ctx i =
      (u.modEnd ctx i fun e => { e with sends := e.sends ++ [m] }).enterPlace ctx i m
        fun m e => { e with sends := [], held := e.held ++ [m] } := by
    rw [State.serveChan, serveEnd_enters (m := m) (ms := []) (by rw [hjoined.receive, hsends]; rfl)
      (by rw [hjoined.receive]; exact hrebind) (by rw [hjoined.receive, hjoined.chan]; exact hroom)]
    exact serveEnd_idle (by rw [hplaced.receive]) (by rw [hplaced.receive]; exact hrcvs) (by rw [hplaced.receive]; exact hrebind) _
  have hnone : (e.held.any fun h => h.rsv == some m.pid && !h.closed && h.ticket == 0) = false :=
    List.any_eq_false.2 fun h hh => by simp [hfree h hh]
  have harrive : s.arrive ctx i m = u.queueSend ctx i m := by
    simp only [State.arrive, hu, he, hopen, rebinding_of_nil (hdirty.receive ▸ hrebind), Nat.ne_of_gt (Nat.zero_lt_of_lt hroom), hnone,
      Bool.false_eq_true, if_false]
  rw [harrive, State.queueSend, hserve, hplaced.receive]
  refine ⟨rfl, ?_⟩
  rw [show ({ e with held := e.held ++ [m] } : ChanEnd) = { e with sends := [], held := e.held ++ [m] } from
    congrArg (fun l => { e with sends := l, held := e.held ++ [m] }) hsends]
  exact hplaced

end Ends

section Parts

variable {n : Entry} {x : Args} {s : State} {p : Proc} {i : Nat} {a : Word}

/-! ### A receive end on the die of its process (R241, R243) -/

theorem sendGoal_here (h : Spec.OpenHere s p i) : s.sendGoal p.ctx i = ((s.devId, coreDie p.core), none) := by
  obtain ⟨hkind, -, hplace, -⟩ := h
  have h5 : (s.chan p.ctx i).kind ≠ 5 := by omega
  have h3 : (s.chan p.ctx i).kind ≠ 3 := by omega
  simp only [State.sendGoal, h5, h3, if_false, hplace]

theorem sendScope_here (h : Spec.OpenHere s p i) : s.sendScope p.ctx i p.die = 2 := by
  simp [State.sendScope, sendGoal_here h, Proc.die]

theorem isFar_here (h : Spec.OpenHere s p i) : s.isFar p.ctx i p.die = false := by
  simp [State.isFar, sendGoal_here h, Proc.die]

theorem isMoving_here (h : Spec.OpenHere s p i) : s.isMoving p.ctx i = false := by
  obtain ⟨-, -, -, -, hstill, -⟩ := h
  simp only [State.isMoving, hstill, Bool.and_false]

/-! ### SEND and SENDV (R261) -/

/-- The message that an opening or one-part send of the process puts into its channel. -/
def opening (s : State) (part : List Byte) (last : Bool) : Msg := { ticket := s.seq, pid := s.cur, parts := [part], closed := last }

/-- A process with no packet open may send to channel `i`: the end is open, nobody waits at it, and a place is free. -/
structure MaySend (s : State) (p : Proc) (i : Nat) : Prop where
  here : Spec.OpenHere s p i
  idle : p.packet = none ∧ p.wakeVal = none ∧ p.st = .running
  quiet : Spec.Quiet s p 2
  sends : (s.chanEnd p.ctx i).sends = []
  rcvs : (s.chanEnd p.ctx i).rcvs = []
  room : (s.chanEnd p.ctx i).held.length < (s.chan p.ctx i).depth

/-- The part is taken at once: its message has a place at the end, and a packet opens where the part is not the last. -/
theorem sendPart_accepted {type code : Nat} {part : List Byte} (h : s.proc s.cur = some p) (ha : (envOf n x s s.cur p).a = a)
    (hs : MaySend s p (hIndex a)) (hcheck : s.hcheck p.ctx p.rank a false [type] [1, 2, 3, 5] = none) :
    ∃ u, sendPart (envOf n x s s.cur p) type code part = .next u ∧
      EndIs { s.withCur (openPacket a s.seq part x.e (taken n x p)) with seq := s.seq + 1 } u p.ctx (hIndex a)
        { s.chanEnd p.ctx (hIndex a) with held := (s.chanEnd p.ctx (hIndex a)).held ++ [opening s part x.e] } := by
  obtain ⟨hhere, ⟨hpacket, hwake, hst⟩, hquiet, hsends, hrcvs, hroom⟩ := hs
  have hscope := sendScope_here hhere
  have hfar := isFar_here hhere
  have hmoving := isMoving_here hhere
  obtain ⟨hkind, hopen, -, hrebind, -, -, hfree⟩ := hhere
  have h3 : (s.chan p.ctx (hIndex a)).kind ≠ 3 := by omega
  have hlive : Live { s.withCur (taken n x p) with seq := s.seq + 1 } (opening s part x.e) :=
    ⟨rfl, rfl, rfl, taken n x p, withCur_cur s _, by rw [taken_shape]; exact hst⟩
  obtain ⟨haccepted, hend⟩ := arrive_takesPlace (i := hIndex a) hlive hopen rfl hrebind hsends hrcvs hfree hroom
  have hopened := endIs_modProc (endIs_countDelivered (endIs_countSent hend p.die) p.die) s.cur (openPacket a s.seq part x.e)
  rw [show ({ s.withCur (taken n x p) with seq := s.seq + 1 } : State).modProc s.cur (openPacket a s.seq part x.e) =
    { s.withCur (openPacket a s.seq part x.e (taken n x p)) with seq := s.seq + 1 } from
    congrArg (fun t : State => { t with seq := s.seq + 1 }) (withCur_mod s _ _)] at hopened
  rw [opening] at haccepted
  refine ⟨_, ?_, hopened⟩
  simp only [sendPart, Env.sendProc, envOf_p, envOf_s0, envOf_s h, envOf_pid, envOf_x, ha, hwake, hcheck, hpacket, hscope,
    released_go hquiet, hmoving, h3, hfar, Bool.false_eq_true, if_false, haccepted]
  rfl

theorem send_completes {type code : Nat} {part : List Byte} {body : Env → Act} (h : Ready n x s p)
    (hbody : body (envOf n x s s.cur p) = sendPart (envOf n x s s.cur p) type code part) (ha : (envOf n x s s.cur p).a = a)
    (hs : MaySend s p (hIndex a)) (hcheck : s.hcheck p.ctx p.rank a false [type] [1, 2, 3, 5] = none) :
    ∃ t, perform n x s body = .next t ∧
      (t.chanEnd p.ctx (hIndex a)).held = (s.chanEnd p.ctx (hIndex a)).held ++ [opening s part x.e] ∧
      t.proc s.cur = some (procAfter n x p (openPacket a s.seq part x.e)) ∧ SameMemory s t ∧ OtherProcs s t [s.cur] := by
  obtain ⟨u, hact, hend⟩ := sendPart_accepted (code := code) (part := part) h.proc ha hs hcheck
  obtain ⟨t, hexec, hreceive, hrest⟩ := completes_endIs h (hbody.trans hact) hend
  exact ⟨t, hexec, congrArg ChanEnd.held hreceive, hrest⟩

/-! ### RECV and RECVV (R262) -/

/-- A process that has begun no receive and keeps no parts receives at an open end at which nobody waits. -/
structure MayReceive (s : State) (p : Proc) (i : Nat) : Prop where
  here : Spec.OpenHere s p i
  phase : p.phase = 0
  parts : tblGetD p.rx i [] = []
  sends : (s.chanEnd p.ctx i).sends = []
  rcvs : (s.chanEnd p.ctx i).rcvs = []

/-- The receive needs a new message. -/
theorem recvPart_new {types : List Nat} {code : Nat} {write : List Byte → Proc → Proc} (ha : (envOf n x s s.cur p).a = a)
    (hr : MayReceive s p (hIndex a)) (hcheck : s.hcheck p.ctx p.rank a true types [1, 2] = none) :
    recvPart (envOf n x s s.cur p) types code write = (envOf n x s s.cur p).newMessage (hIndex a) code write := by
  simp only [recvPart, envOf_p, envOf_s0, ha, hr.phase, hr.parts, hcheck, bne_self_eq_false, List.isEmpty_nil, Bool.false_and,
    Bool.false_eq_true, if_false, if_true]

/-- The process keeps the parts that it has not taken (R242). -/
def keeping (i : Nat) (parts : List (List Byte)) (q : Proc) : Proc :=
  { q with rx := if parts.isEmpty then tblErase q.rx i else tblSet q.rx i parts }

/-- The predicate of the instruction tells whether the part taken was the last (R262). -/
def toldLast (x : Args) (parts : List (List Byte)) (q : Proc) : Proc :=
  if (mN x).testBit 1 then q.wr (.p (cOf .modw x).toNat) (if parts.length = 1 then 1 else 0) else q

theorem tookPart_eq (x : Args) (i : Nat) (parts : List (List Byte)) (q : Proc) :
    Spec.tookPart x i parts q = toldLast x parts (keeping i parts.tail q) := rfl

/-- A write of registers has nothing to do with the parts kept. -/
def KeepsParts (write : Proc → Proc) : Prop := ∀ i parts q, write (keeping i parts q) = keeping i parts (write q)

theorem keepsParts_wrOp (f : Nat) (v : Word) : KeepsParts fun q => q.wrOp f v := by
  intro i parts q
  have hname : (keeping i parts q).name f = q.name f := rfl
  simp only [Proc.wrOp, hname]
  cases q.name f with
  | none => rfl
  | some r =>
    cases r with
    | p j =>
      simp only [Proc.wr, Proc.put]
      split <;> rfl
    | _ => rfl

theorem keepsParts_setVec (f : Nat) (v : BitVec 1024) : KeepsParts fun q => q.setVec f v := fun _ _ _ => rfl

/-- The process takes the first part of a message. -/
theorem takePart_next {t : State} {e : ChanEnd} {parts : List (List Byte)} {write : List Byte → Proc → Proc}
    (hwrite : KeepsParts (write (parts.headD []))) (h : EndIs (s.withCur (taken n x p)) t p.ctx i e) :
    ∃ u, (envOf n x s s.cur p).takePart t i parts write = .next u ∧
      EndIs (s.withCur (Spec.tookPart x i parts (write (parts.headD []) (taken n x p)))) u p.ctx i e := by
  have hmoved := endIs_modProc (endIs_modProc h s.cur (keeping i parts.tail)) s.cur fun q => toldLast x parts (write (parts.headD []) q)
  rw [withCur_mod, withCur_mod, hwrite, ← tookPart_eq] at hmoved
  exact ⟨_, rfl, hmoved⟩

/-- The oldest message held leaves the end, and its first part reaches the process, which keeps the others. -/
theorem newMessage_takes {m : Msg} {rest : List Msg} {code : Nat} {write : List Byte → Proc → Proc} (h : s.proc s.cur = some p)
    (hr : MayReceive s p i) (hheld : (s.chanEnd p.ctx i).held = m :: rest) (hclosed : m.closed = true)
    (hdepth : (s.chan p.ctx i).depth ≠ 0) (hwrite : KeepsParts (write (m.parts.headD []))) :
    ∃ u, (envOf n x s s.cur p).newMessage i code write = .next u ∧
      EndIs (s.withCur (Spec.tookPart x i m.parts (write (m.parts.headD []) (taken n x p)))) u p.ctx i
        { s.chanEnd p.ctx i with held := rest } := by
  obtain ⟨hhere, -, -, hsends, hrcvs⟩ := hr
  obtain ⟨-, -, -, hrebind, -, hmatched, -⟩ := hhere
  have hend := endIs_dirtyDie (endIs_modEnd (endIs_refl (s.withCur (taken n x p)) p.ctx i) fun e => { e with held := rest }) p.die
  generalize ht : ((s.withCur (taken n x p)).modEnd p.ctx i fun e => { e with held := rest }).dirtyDie p.ctx p.die = t at hend
  have hserve : t.serveChan p.ctx i = t :=
    serveEnd_idle (by rw [hend.receive]; exact hsends) (by rw [hend.receive]; exact hrcvs) (by rw [hend.receive]; exact hrebind) _
  obtain ⟨u, hact, hu⟩ := takePart_next hwrite hend
  refine ⟨u, ?_, hu⟩
  simp only [Env.newMessage, envOf_p, envOf_s0, envOf_s h, envOf_pid, hmatched, hrcvs, hheld, hclosed, hdepth, rebinding_of_nil hrebind,
    List.find?_nil, List.any_nil, Bool.or_self, Bool.false_eq_true, if_false, if_true, ht, hserve, hact]

theorem recv_completes {types : List Nat} {code : Nat} {write : List Byte → Proc → Proc} {m : Msg} {rest : List Msg}
    {body : Env → Act} (h : Ready n x s p) (hbody : body (envOf n x s s.cur p) = recvPart (envOf n x s s.cur p) types code write)
    (ha : (envOf n x s s.cur p).a = a) (hr : MayReceive s p (hIndex a)) (hcheck : s.hcheck p.ctx p.rank a true types [1, 2] = none)
    (hheld : (s.chanEnd p.ctx (hIndex a)).held = m :: rest) (hclosed : m.closed = true)
    (hdepth : (s.chan p.ctx (hIndex a)).depth ≠ 0) (hwrite : KeepsParts (write (m.parts.headD []))) :
    ∃ t, perform n x s body = .next t ∧ (t.chanEnd p.ctx (hIndex a)).held = rest ∧
      t.proc s.cur = some (procAfter n x p fun q => Spec.tookPart x (hIndex a) m.parts (write (m.parts.headD []) q)) ∧
      SameMemory s t ∧ OtherProcs s t [s.cur] := by
  obtain ⟨u, hact, hend⟩ := newMessage_takes (n := n) (x := x) (code := code) h.proc hr hheld hclosed hdepth hwrite
  obtain ⟨t, hexec, hreceive, hrest⟩ := completes_endIs (k := s.seq)
    (f := fun q => Spec.tookPart x (hIndex a) m.parts (write (m.parts.headD []) q)) h
    (hbody.trans ((recvPart_new ha hr hcheck).trans hact)) hend
  exact ⟨t, hexec, congrArg ChanEnd.held hreceive, hrest⟩

/-- The machine in which the process has joined the receives that wait at an end. -/
def joined (x : Args) (s : State) (p : Proc) (i : Nat) (a : Word) (code : Nat) : State :=
  (({ s with seq := s.seq + 1 } : State).modEnd p.ctx i fun c => { c with rcvs := c.rcvs ++ [{ ticket := s.seq, pid := s.cur }] }).modProc
    s.cur fun q => { q with waitsOn := some (a, code), phase := if (mN x).testBit 0 then 2 else 1 }

/-- With no message held the receive joins those that wait. -/
theorem newMessage_joins {code : Nat} {write : List Byte → Proc → Proc} (ha : (envOf n x s s.cur p).a = a) (hr : MayReceive s p i)
    (hheld : (s.chanEnd p.ctx i).held = []) :
    (envOf n x s s.cur p).newMessage i code write = .park (joined x s p i a code) .channel (.chan s.seq) := by
  obtain ⟨hhere, -, -, hsends, hrcvs⟩ := hr
  obtain ⟨-, hopen, -, hrebind, -, hmatched, -⟩ := hhere
  have hpick : pickSend s.cur (s.chanEnd p.ctx i).sends = none := by rw [hsends]; rfl
  simp only [Env.newMessage, envOf_p, envOf_s0, envOf_pid, envOf_x, ha, hmatched, hrcvs, hheld, hopen, hpick, rebinding_of_nil hrebind,
    List.find?_nil, List.any_nil, Bool.or_self, Bool.false_eq_true, if_false, ite_self]
  rfl

theorem recv_parks {types : List Nat} {code : Nat} {write : List Byte → Proc → Proc} {body : Env → Act} (h : Ready n x s p)
    (hbody : body (envOf n x s s.cur p) = recvPart (envOf n x s s.cur p) types code write) (ha : (envOf n x s s.cur p).a = a)
    (hpacket : p.packet = none) (hr : MayReceive s p (hIndex a)) (hcheck : s.hcheck p.ctx p.rank a true types [1, 2] = none)
    (hheld : (s.chanEnd p.ctx (hIndex a)).held = []) : ∃ t q c, perform n x s body = .next t ∧
      t.proc s.cur = some q ∧ q.st = .parked .channel (.chan s.seq) c ∧ q.pc = p.pc ∧
      (t.chanEnd p.ctx (hIndex a)).rcvs = [{ ticket := s.seq, pid := s.cur }] ∧ SameMemory s t ∧ OtherProcs s t [s.cur] := by
  have hproc : (joined x s p (hIndex a) a code).proc s.cur = some _ := proc_modProc_self (n := s.cur) h.proc _
  have hend := endIs_modEnd (endIs_refl { s with seq := s.seq + 1 } p.ctx (hIndex a))
    fun c => { c with rcvs := c.rcvs ++ [{ ticket := s.seq, pid := s.cur }] }
  have hexec : perform n x s body = .next ((joined x s p (hIndex a) a code).park s.cur .channel (.chan s.seq)) := by
    rw [perform_ready h, hbody, recvPart_new ha hr hcheck, newMessage_joins ha hr hheld]
    simp only [settle, hpacket, Option.isSome_none, Bool.false_eq_true, if_false]
  refine ⟨_, _, _, hexec, park_proc_self hproc _ _, rfl, rfl, ?_, park_sameMemory hproc _ _, fun m hm => ?_⟩
  · rw [park_eq hproc]
    exact (congrArg ChanEnd.rcvs hend.receive).trans (congrArg (· ++ _) hr.rcvs)
  · have hne : m ≠ s.cur := by simpa using hm
    exact (park_proc_ne hproc hne _ _).trans (proc_modProc_ne _ _ hne)

end Parts

/-- Settles O36: SEND and SENDV put their part into a free place, RECV and RECVV take the oldest message held, and RECV joins the receives
that wait where none is. -/
theorem channelParts : Obligations.ChannelParts := by
  intro x s p hpacket hst hwake hphase a i ch e hhere hsends hrcvs hparts
  have hr : MayReceive s p (hIndex a) := ⟨hhere, hphase, hparts, hsends, hrcvs⟩
  refine ⟨?send, fun m rest hheld hclosed hne hdepth => ⟨fun h hcheck => ?recv, fun h hcheck => ?recvv⟩,
    fun hheld h hcheck => ?parks⟩
  case send =>
    intro r hrow h hi hcheck hquiet hroom
    have hs : MaySend s p (hIndex a) := ⟨hhere, ⟨hpacket, hwake, hst⟩, hquiet, hsends, hrcvs, hroom⟩
    simp only [List.mem_cons, List.not_mem_nil, or_false] at hrow
    obtain rfl | rfl := hrow
    · have hb : (envOf eSend x s s.cur p).b = p.scalar x.b.toNat := envOf_b_reg hi rfl
      exact send_completes h (congrArg (fun b : Word => sendPart (envOf eSend x s s.cur p) 0 1 (natBytes 8 b.toNat)) hb) rfl hs hcheck
    · exact send_completes (n := eSendv) (code := 3) h rfl rfl hs hcheck
  case recv =>
    exact recv_completes (write := fun b q => q.wrOp x.d.toNat (BitVec.ofNat 64 (bytesNat b))) h rfl rfl hr hcheck hheld hclosed hdepth
      (keepsParts_wrOp _ _)
  case recvv =>
    exact recv_completes (write := fun b q => q.setVec x.d.toNat (BitVec.ofNat 1024 (bytesNat b))) h rfl rfl hr hcheck hheld hclosed
      hdepth (keepsParts_setVec _ _)
  case parks => exact recv_parks h rfl rfl hpacket hr hcheck hheld

end Sys2Proof.Proofs.Channels
end

section
/-! The family of channels, second part: why the clause about CHCL does not hold of every state (O37). -/

namespace Sys2Proof.Proofs.Channels

open Sys2Proof Sys2Proof.Machine

/-- CHCL w8. -/
def closeW8 : Args := { Spec.plain with a := 8 }

/-- A process whose w8 is a handle of channel 1, and whose CHCL has had its answer (R266). -/
def closer : Proc := { ctx := 0, rank := 0, core := 0, st := .running, phase := 1, win := [(8, 1)] }

/-- A second entry of the process table under the same number: it waits with ticket 7 for the channel to take its part (R244). -/
def senderTwin : Proc := { closer with st := .parked .channel (.chan 7) 0, phase := 0, waitsOn := some (1, 1) }

/-- The message with that ticket, which has not left its die for the memory server of channel 1. -/
def unsentPart : OutMsg := outTo 6 0 0 0 0 1 { ctx := 0, chan := 1, msg := { ticket := 7, pid := 0, parts := [[7]] } } [7]

/-- A machine whose table of processes, as no hypothesis excludes, lists process 0 twice. -/
def twiceListedMachine : State :=
  { State.reset with
    procs := [(0, closer), (0, senderTwin)]
    ctxs := [(0, { chans := [(1, { assigned := true, kind := 3 })] })]
    dies := [(0, { out := [(0, unsentPart)] })] }

theorem twiceListedMachine_ready : Ready eChcl closeW8 twiceListedMachine closer := by
  constructor <;> decide

/-- The fault that process 0 would raise as it issues next, after an instruction. -/
def wakeFaultAfter : Host.Outcome State Fault Refusal → Option (Option FaultInfo)
  | .next t => (t.proc 0).map Proc.wakeFault
  | _ => none

/-- The refusal of the twin's message reaches the process that the number finds: the one that closes the channel. -/
theorem wakeFaultAfter_chcl : wakeFaultAfter (exec (.chcl closeW8) twiceListedMachine) = some (some { cause := 30 }) := by decide +kernel

/-- Refutes O37, in its last clause about CHCL: no premise keeps the table of processes in order. Where it lists the closing process twice,
and the second entry waits for a memory server to take its message, the close refuses that message, and the process that closed the
channel is the one that wakes with fault 30. -/
theorem not_channelControl : ¬ Obligations.ChannelControl := by
  intro h
  obtain ⟨-, -, -, -, close, -⟩ := h closeW8 twiceListedMachine closer rfl rfl rfl
  obtain ⟨-, -, closesOpen⟩ := close twiceListedMachine_ready (by decide) (by decide)
  obtain ⟨t, hexec, -, hproc, -⟩ := closesOpen rfl (by decide) (by decide) (by decide) rfl
  have hafter := wakeFaultAfter_chcl
  have hproc0 : t.proc 0 = some (procAfter eChcl closeW8 closer fun q => q) := hproc
  simp only [hexec, wakeFaultAfter, hproc0, Option.map_some, Option.some.injEq] at hafter
  exact absurd hafter (by decide)

end Sys2Proof.Proofs.Channels
end
